-- ==== Sys2Proof/Word.lean ====
section
/-! DEFINITION. The machine words of the module: 64-bit words, bytes, and the index types of the units that
`00_scope.md` R16 (Table 0.2) numbers, and what the checker of a lane reports. -/

namespace Sys2Proof

/-- A 64-bit register or memory word (R37, R74). -/
abbrev Word := BitVec 64
/-- One byte. -/
abbrev Byte := BitVec 8
/-- A general register number g0–g31 (R37). -/
abbrev Reg := BitVec 5
/-- A logical tile number, 0–3,071 (R16). -/
abbrev LTile := Fin 3072
/-- A physical tile site, id = y·56 + x (R16). -/
abbrev SiteIx := Fin 3136
/-- A partition number, 0–7 (R71, R409). -/
abbrev PartIx := Fin 8
/-- A PCIe function: 0 the physical function, 1–8 the virtual ones (R402). -/
abbrev FnIx := Fin 9
/-- A Ranov port LP00–LP15 (R348). -/
abbrev PortIx := Fin 16
/-- A lane of a port (R348). -/
abbrev LaneIx := Fin 4
/-- An HBM stack H0–H7 (R311). -/
abbrev StackIx := Fin 8
/-- A compute die Q0–Q3 (R18). -/
abbrev DieIx := Fin 4
/-- A control core CC0–CC11 (R16). -/
abbrev CoreIx := Fin 12
/-- A bell, 0–63; 63 is the commit bell (R16). -/
abbrev BellIx := Fin 64

/-- A command slot of a function (section 13.4). -/
abbrev SlotIx := Fin 1024
/-- An endpoint of a tile (R286). -/
abbrev EpIx := Fin 16
/-- A DMA stream of a tile (R318). -/
abbrev StreamIx := Fin 4

/-- What a lane's checker reports: bit and symbol errors, ns from its first lock, whether it locked, the error rate × 10^15. -/
structure LaneReport where
  bits : Nat
  symbols : Nat
  ns : Nat
  locked : Bool
  rate : Nat
  deriving DecidableEq, Repr

end Sys2Proof
end

