-- ==== Sys2Proof/Syntax.lean ====
section
/-! DEFINITION. The commands of the block: one constructor for each row of `opcode_table.json`. A core instruction
carries its tile and the fields of its format as the word holds them (R39, Table 2.1), reserved ones included; a
time-driven event carries the unit it happens at and the inputs that the outside or the engine's timing brings. -/

namespace Sys2Proof

inductive Instr where
  -- integer instructions, formats A, I and U (Table 2.3)
  | add (l : LTile) (gd gs1 gs2 : Reg)
  | sub (l : LTile) (gd gs1 gs2 : Reg)
  | and (l : LTile) (gd gs1 gs2 : Reg)
  | or (l : LTile) (gd gs1 gs2 : Reg)
  | xor (l : LTile) (gd gs1 gs2 : Reg)
  | shl (l : LTile) (gd gs1 gs2 : Reg)
  | shr (l : LTile) (gd gs1 gs2 : Reg)
  | sra (l : LTile) (gd gs1 gs2 : Reg)
  | slt (l : LTile) (gd gs1 gs2 : Reg)
  | sltu (l : LTile) (gd gs1 gs2 : Reg)
  | min (l : LTile) (gd gs1 gs2 : Reg)
  | max (l : LTile) (gd gs1 gs2 : Reg)
  | minu (l : LTile) (gd gs1 gs2 : Reg)
  | maxu (l : LTile) (gd gs1 gs2 : Reg)
  | mul (l : LTile) (gd gs1 gs2 : Reg)
  | mulh (l : LTile) (gd gs1 gs2 : Reg)
  | mulhu (l : LTile) (gd gs1 gs2 : Reg)
  | div (l : LTile) (gd gs1 gs2 : Reg)
  | divu (l : LTile) (gd gs1 gs2 : Reg)
  | rem (l : LTile) (gd gs1 gs2 : Reg)
  | remu (l : LTile) (gd gs1 gs2 : Reg)
  | clz (l : LTile) (gd gs1 gs2 : Reg)
  | popc (l : LTile) (gd gs1 gs2 : Reg)
  | addi (l : LTile) (gd gs1 : Reg) (imm : BitVec 14)
  | andi (l : LTile) (gd gs1 : Reg) (imm : BitVec 14)
  | ori (l : LTile) (gd gs1 : Reg) (imm : BitVec 14)
  | xori (l : LTile) (gd gs1 : Reg) (imm : BitVec 14)
  | shli (l : LTile) (gd gs1 : Reg) (imm : BitVec 14)
  | shri (l : LTile) (gd gs1 : Reg) (imm : BitVec 14)
  | srai (l : LTile) (gd gs1 : Reg) (imm : BitVec 14)
  | slti (l : LTile) (gd gs1 : Reg) (imm : BitVec 14)
  | sltiu (l : LTile) (gd gs1 : Reg) (imm : BitVec 14)
  | liu (l : LTile) (gd : Reg) (imm : BitVec 19)
  -- loads, stores and full/empty accesses, format M
  | ldB (l : LTile) (gt gs : Reg) (h : BitVec 6) (imm : BitVec 8)
  | ldBu (l : LTile) (gt gs : Reg) (h : BitVec 6) (imm : BitVec 8)
  | ldH (l : LTile) (gt gs : Reg) (h : BitVec 6) (imm : BitVec 8)
  | ldHu (l : LTile) (gt gs : Reg) (h : BitVec 6) (imm : BitVec 8)
  | ldW (l : LTile) (gt gs : Reg) (h : BitVec 6) (imm : BitVec 8)
  | ldWu (l : LTile) (gt gs : Reg) (h : BitVec 6) (imm : BitVec 8)
  | ldD (l : LTile) (gt gs : Reg) (h : BitVec 6) (imm : BitVec 8)
  | stB (l : LTile) (gt gs : Reg) (h : BitVec 6) (imm : BitVec 8)
  | stH (l : LTile) (gt gs : Reg) (h : BitVec 6) (imm : BitVec 8)
  | stW (l : LTile) (gt gs : Reg) (h : BitVec 6) (imm : BitVec 8)
  | stD (l : LTile) (gt gs : Reg) (h : BitVec 6) (imm : BitVec 8)
  | la (l : LTile) (gt gs : Reg) (h : BitVec 6) (imm : BitVec 8)
  | ldFe (l : LTile) (gt gs : Reg) (h : BitVec 6) (imm : BitVec 8)
  | stEf (l : LTile) (gt gs : Reg) (h : BitVec 6) (imm : BitVec 8)
  | ldF (l : LTile) (gt gs : Reg) (h : BitVec 6) (imm : BitVec 8)
  | stF (l : LTile) (gt gs : Reg) (h : BitVec 6) (imm : BitVec 8)
  | fullemptyComplete (l : LTile) (n : Nat)
  -- branches and jumps
  | beq (l : LTile) (gs1 gs2 : Reg) (off : BitVec 14)
  | bne (l : LTile) (gs1 gs2 : Reg) (off : BitVec 14)
  | blt (l : LTile) (gs1 gs2 : Reg) (off : BitVec 14)
  | bge (l : LTile) (gs1 gs2 : Reg) (off : BitVec 14)
  | bltu (l : LTile) (gs1 gs2 : Reg) (off : BitVec 14)
  | bgeu (l : LTile) (gs1 gs2 : Reg) (off : BitVec 14)
  | jal (l : LTile) (gd : Reg) (off : BitVec 19)
  | jalr (l : LTile) (gd gs1 : Reg) (imm : BitVec 14)
  -- synchronisation and system instructions; `hi` is imm14[13:8] of a BELL, whose mode bits the row fixes
  | enter (l : LTile) (gd gs : Reg) (id hi : BitVec 6)
  | arrive (l : LTile) (gd gs : Reg) (id hi : BitVec 6)
  | wait (l : LTile) (gd gs : Reg) (id hi : BitVec 6)
  | bellWaitComplete (l : LTile) (n : Nat)
  | waitc (l : LTile) (gd gs : Reg) (imm : BitVec 14)
  | waitcComplete (l : LTile) (n : Nat)
  | tsig (l : LTile) (gd gs : Reg) (imm : BitVec 14)
  | twait (l : LTile) (gd gs : Reg) (imm : BitVec 14)
  | twaitComplete (l : LTile) (n : Nat)
  | fence (l : LTile) (gd gs : Reg) (imm : BitVec 14)
  | fenceComplete (l : LTile) (n : Nat)
  | halt (l : LTile) (gd gs : Reg) (imm : BitVec 14)
  | haltComplete (l : LTile) (n : Nat)
  | exc (l : LTile) (gd gs : Reg) (imm : BitVec 14)
  | eret (l : LTile) (gd gs : Reg) (imm : BitVec 14)
  | csrR (l : LTile) (gd gs : Reg) (imm : BitVec 14)
  | csrW (l : LTile) (gd gs : Reg) (imm : BitVec 14)
  | waitLimit (l : LTile)
  -- engine issue, format E (R39, R51)
  | engineIssue (l : LTile) (op : BitVec 8) (ga gb gc : Reg) (we : Bool) (wtok : BitVec 3) (se : Bool) (stok : BitVec 3) (r0 : Bool)
  | queueWaitEnd (l : LTile) (n : Nat)
  | resultWaitEnd (l : LTile) (n : Nat)
  -- writes of tile control registers that have a row of their own
  | spHandleWrite (l : LTile) (h : BitVec 6) (gs : Reg)
  | counterSet (l : LTile) (c : BitVec 4) (gs : Reg)
  | counterSubtract (l : LTile) (c : BitVec 4) (gs : Reg)
  | scaleRecordWrite (l : LTile) (w : BitVec 3) (gs : Reg)
  | walkerStart (l : LTile) (gs : Reg)
  | walkerStop (l : LTile) (gs : Reg)
  | cbsubWrite (l : LTile) (n : BitVec 4) (gs : Reg)
  -- the command board: a host write of 4 or 8 bytes to BAR0, slots, replies, events, interrupts
  | registerWrite (f : FnIx) (off : BitVec 26) (wide : Bool) (data : Word)
  -- the scratchpad by itself, at a site
  | freeze (x : SiteIx)
  | scrubRead (x : SiteIx)
  | wipeComplete (x : SiteIx) (failed : BitVec 16)
  -- matrix engine instructions as they start: tc lost as stalls, tc waited for bank slots
  | mxLoad (l : LTile) (conf : Nat)
  | mxFwd (l : LTile) (stall conf : Nat)
  | mxDgrad (l : LTile) (stall conf : Nat)
  | mxWgrad (l : LTile) (stall conf : Nat)
  | mxStore (l : LTile) (conf : Nat)
  | mxPass (l : LTile) (conf : Nat)
  | mxAload (l : LTile) (conf : Nat)
  | mxInstrComplete (l : LTile)
  -- vector engine instructions as they start
  | vxSetvl (l : LTile)
  | vxEpload (l : LTile) (conf : Nat)
  | vxConst (l : LTile)
  | vxSdef (l : LTile)
  | vxRun (l : LTile) (stall conf : Nat)
  | vxCmpr (l : LTile) (stall conf : Nat)
  | vxExpd (l : LTile) (stall conf : Nat)
  | vxOcld (l : LTile) (stall conf : Nat)
  | vxOcst (l : LTile) (stall conf : Nat)
  | vxXld (l : LTile) (stall conf : Nat)
  | vxXst (l : LTile) (stall conf : Nat)
  | vxXrnd (l : LTile)
  | vxInstrComplete (l : LTile)
  -- exchange unit instructions, and exchange descriptors of the queue or of the walker
  | xcPut (l : LTile)
  | xcOpenReceive (l : LTile)
  | xcOpenSend (l : LTile)
  | xcClose (l : LTile)
  | xcSend (l : LTile)
  | sendResume (l : LTile) (n : Nat)
  | xcSelect (l : LTile)
  | selectReady (l : LTile)
  | xcDone (l : LTile)
  | xcInstrComplete (l : LTile)
  | write (l : LTile) (walker : Bool)
  | reduce (l : LTile) (walker : Bool) (n : Nat)
  | cbwrite (l : LTile) (walker : Bool)
  | announce (l : LTile) (walker : Bool)
  | dma (l : LTile) (walker : Bool)
  -- DMA streams of a tile, and their translation faults
  | toHbm (l : LTile) (k : StreamIx)
  | fromHbm (l : LTile) (k : StreamIx)
  | hbmCopy (l : LTile) (k : StreamIx)
  | gather (l : LTile) (k : StreamIx)
  | scatter (l : LTile) (k : StreamIx)
  | ckSave (l : LTile) (k : StreamIx)
  | ckLoad (l : LTile) (k : StreamIx)
  | dmaComplete (l : LTile) (k : StreamIx)
  | translationFaultTimeout (l : LTile) (k : StreamIx)
  -- the memory blocks, BAR2, HBM
  | mmFresumeResume (p : PartIx) (id : BitVec 14)
  | mmFresumeAbort (p : PartIx) (id : BitVec 14)
  | mmInval (p : PartIx)
  | invalidationComplete (p : PartIx)
  | mmApply (p : PartIx)
  | mmChrel (p : PartIx) (slot : BitVec 8)
  | mmRegApply (p : PartIx)
  | regulatorRefill (p : PartIx)
  | bar2Write (f : FnIx) (off : BitVec 36) (bytes : List Byte)
  | bar2Read (f : FnIx) (off : BitVec 36) (n : Nat)
  | patrolScrub (u : Nat)
  | hbmTempRead (h : StackIx) (t : Nat)
  -- bells, releases, flows
  | bellArrival (p : PartIx) (k : Nat)
  | bellRelease (p : PartIx) (b : BellIx)
  | releaseApply (l : LTile) (b : BellIx)
  | walkerFiringEnd (l : LTile)
  | lateThresholdUpdate (p : PartIx)
  | latenessFold (p : PartIx)
  | bellArrivalNotice (k : Nat)
  | bellReleaseNotice (k : Nat)
  | bellTimeout (p : PartIx) (b : BellIx)
  | bellLost (p : PartIx) (b : BellIx)
  | recessHoldExpire (p : PartIx) (b : BellIx)
  | countUpdate (k : Nat)
  | announceReceive (k : Nat)
  | announceExpired (p : PartIx) (flow : BitVec 8)
  -- the package: packets by their place in flight, trees, chalkboard, chart
  | remoteWriteDeliver (k : Nat) (bad : Bool)
  | reduceMerge (p : PartIx) (tree : BitVec 10) (node : BitVec 12)
  | chalkboardGrant
  | chalkboardDeliver (l : LTile) (bad : Bool)
  | countWordApply (l : LTile)
  | chartWord (l : LTile) (x : SiteIx) (p : PartIx) (valid hold : Bool)
  | writeFailureNotice (k : Nat)
  -- what reaches a channel endpoint
  | openRequest (k : Nat)
  | openReply (k : Nat)
  | openRequestTimeout (l : LTile) (ep : EpIx)
  | hallPassReturn (k : Nat)
  | messageFlit (k : Nat)
  | partialMessageTimeout (l : LTile) (ep : EpIx)
  | truncationNotice (k : Nat)
  | channelCloseMarker (k : Nat)
  | closeNotice (k : Nat)
  -- Ranov ports
  | portDetectPulse (q : PortIx)
  | partnerDetected (q : PortIx)
  | trainComplete (q : PortIx) (lanes : BitVec 4)
  | trainTimeout (q : PortIx)
  | capabilityRecord (q : PortIx)
  | negotiateTimeout (q : PortIx)
  | retrainComplete (q : PortIx)
  | retrainTimeout (q : PortIx)
  | frameReceive (q : PortIx) (frame : List Byte)
  | laneLossOfSignal (q : PortIx) (lane : LaneIx)
  | writeContext (q : PortIx)
  | msgContext (q : PortIx)
  | throttle (k : Nat)
  | timeRequestSend (q : PortIx)
  | timeRequest (k : Nat)
  | timeReply (k : Nat)
  | lkApply (q : PortIx)
  -- the command board: a host write of 4 or 8 bytes to BAR0, slots, replies, events, interrupts
  | commandSubmit (f : FnIx) (slot : SlotIx) (header : Word) (whole : Bool)
  | cmdTimeout (f : FnIx) (slot : SlotIx)
  | cmdDeferred (f : FnIx) (slot : SlotIx)
  | cmdDone (f : FnIx)
  | replyWrite (f : FnIx)
  | eventRingWrite (f : FnIx)
  | interruptModerationExpire (f : FnIx) (v : Fin 2)
  | cbApply (f : FnIx)
  | evApply (f : FnIx)
  | functionLevelReset (f : FnIx)
  | hotReset
  | completionTimeout (f : FnIx) (slot : SlotIx) (moved : Nat) (poisoned : Bool)
  -- commands of a function by their slot
  | negotiate (f : FnIx) (slot : SlotIx)
  | queryPartition (f : FnIx) (slot : SlotIx)
  | queryBellLateness (f : FnIx) (slot : SlotIx)
  | queryPartitionCounts (f : FnIx) (slot : SlotIx)
  -- partitions and jobs
  | partCreate (f : FnIx) (slot : SlotIx)
  | partDestroy (f : FnIx) (slot : SlotIx) (second : Option Nat)
  | partReset (f : FnIx) (slot : SlotIx) (second : Option Nat)
  | loadImage (f : FnIx) (slot : SlotIx)
  | bindTimetable (f : FnIx) (slot : SlotIx)
  | jobStart (f : FnIx) (slot : SlotIx)
  | jobKill (f : FnIx) (slot : SlotIx)
  | partitionEnd (p : PartIx) (failed : List (Nat × Nat))
  | preempt (f : FnIx) (slot : SlotIx)
  | preemptSave (p : PartIx)
  | resume (f : FnIx) (slot : SlotIx)
  | recess (f : FnIx) (slot : SlotIx)
  | substituteSwap (l : LTile)
  -- commands of a function by their slot
  | dmaHostToDva (f : FnIx) (slot : SlotIx)
  | dmaHostFromDva (f : FnIx) (slot : SlotIx)
  | powerCapSet (f : FnIx) (slot : SlotIx) (second : Option Nat)
  | powerQuery (f : FnIx) (slot : SlotIx)
  -- firmware, identity and life cycle; `second` is a countersigning value that differs
  | fwStage (f : FnIx) (slot : SlotIx)
  | fwActivate (f : FnIx) (slot : SlotIx)
  | attest (f : FnIx) (slot : SlotIx)
  -- commands of a function by their slot
  | logRead (f : FnIx) (slot : SlotIx)
  | logReadModule (f : FnIx) (slot : SlotIx)
  | gradebookRead (f : FnIx) (slot : SlotIx)
  | linkWiden (f : FnIx) (slot : SlotIx)
  | linkRetrain (f : FnIx) (slot : SlotIx)
  | linkRetireLane (f : FnIx) (slot : SlotIx)
  | linkTest (f : FnIx) (slot : SlotIx) (reports : List LaneReport)
  | testSchedule (f : FnIx) (slot : SlotIx)
  -- firmware, identity and life cycle; `second` is a countersigning value that differs
  | lifecycleProvision (f : FnIx) (slot : SlotIx) (second : Option Nat)
  | lifecycleDeploy (f : FnIx) (slot : SlotIx) (second : Option Nat)
  | lifecycleReturn (f : FnIx) (slot : SlotIx) (second : Option Nat)
  | lifecycleRetire (f : FnIx) (slot : SlotIx) (second : Option Nat)
  | lifecycleWipeComplete
  -- partitions and jobs
  | debugRead (f : FnIx) (p : PartIx)
  | ptApply (p : PartIx)
  -- firmware, identity and life cycle; `second` is a countersigning value that differs
  | spdmGetVersion (f : FnIx)
  | spdmGetCertificate (f : FnIx) (slot off len : Nat)
  | spdmChallenge (f : FnIx) (slot : Nat)
  | spdmGetMeasurements (f : FnIx) (index : Nat) (sign : Bool)
  | getPqCertificate (f : FnIx) (off len : BitVec 16)
  | getPqSignature (f : FnIx)
  -- power and heat
  | pldmSetPowerCap (watts : Nat) (second : Option Nat)
  | pldmGetSensorReading (n : Nat)
  | pldmFruRead
  -- firmware, identity and life cycle; `second` is a countersigning value that differs
  | pldmFirmwareUpdate (package : List Byte)
  | pldmRecoveryUpdate (package : List Byte) (second : Option Nat)
  -- power and heat
  | pldmPartitionRequest
  | inputSample (mv : Nat)
  | powerFail
  | powerOn (testEn : Bool)
  | railTimeout (k : Fin 9)
  | fastLoop (est aim : Nat)
  | measurementInterval (mw : Nat)
  | calibrationWindow (e m : Nat)
  | pwCapUnmet
  | droopTrip (x : SiteIx) (mv : Nat) (severe : Bool)
  | droopRecovery (x : SiteIx)
  | pwApply
  | thermalRead (d : DieIx) (tj : Nat)
  | pwThrottle
  | throttleRepeat
  | throttleNoticeExpire (p : PartIx) (origin : Nat)
  | pwCoolant (cin cout : Nat)
  -- faults, the proctor, the gradebook, control cores, tests
  | classDReset (p second third : PartIx)
  | proctorCompare (id : Nat) (sig : Word) (void : Bool)
  | proctorVerdict (id : Nat) (sig : Word) (void : Bool)
  | gradebookFlush
  | coreWatchdog (c : CoreIx)
  | coreMemoryError (c : CoreIx)
  | coreRestartComplete (c : CoreIx)
  -- firmware, identity and life cycle; `second` is a countersigning value that differs
  | fwCoreHandover (second : Option Nat)
  | fwSelfCheckTimeout
  -- faults, the proctor, the gradebook, control cores, tests
  | tileTestDue (l : LTile)
  | testDone (kind unit : Nat) (failed : Bool)
  | testOverdue (l : LTile)
  -- bring-up
  | boot (second : Option Nat)
  | functionReady (n : Fin 79) (bad : List Nat)
  | bringupTimeout (n : Fin 79) (test : Bool)
  | perstDeassert
  | enterCompliance
  -- the test access port: what the pins show, the bits shifted in
  | bypass
  | idcode
  | sample (pins : List Bool)
  | preload (bits : List Bool)
  | extest (pins bits : List Bool)
  | clamp
  | highz
  | extestPulse (pins bits : List Bool)
  | extestTrain (pins bits : List Bool)
  | hbmWir (h : StackIx) (bits : List Bool)
  | hbmWdr (h : StackIx) (bits : List Bool)
  | laneTest (lanes : BitVec 64) (counts : List Bool)
  -- power and heat
  | droopSupplyBack (x : SiteIx)
  -- the command board: a host write of 4 or 8 bytes to BAR0, slots, replies, events, interrupts
  | slotParameterWrite (f : FnIx) (slot : SlotIx) (off : BitVec 8) (bytes : List Byte)
  -- firmware, identity and life cycle; `second` is a countersigning value that differs
  | spdmGetCapabilities (f : FnIx)
  | spdmNegotiateAlgorithms (f : FnIx)
  -- partitions and jobs
  | recessWorkDone (p : PartIx) (b : BellIx)
  deriving DecidableEq, Repr

end Sys2Proof
end

