-- ==== Sys2Proof/Decode.lean ====
section
/-! DEFINITION. The commands that the opcode table's words spell. The table gives no row of this block any bits, so there are none. -/

namespace Sys2Proof

/-- The command of a table word: no row has bits, so no word spells one. -/
def decodeTableWord (_nbits _w : Nat) : Option Instr := none

end Sys2Proof
end

