-- ==== Sys2Proof/Machine/Bits.lean ====
section
/-! DEFINITION. Bit fields, sign extension, byte order and serial-number comparison. -/

namespace Sys2Proof.Machine

/-- The `n` bits of `w` from bit `lo` up, as a number (R5). -/
def fld (w : Word) (lo n : Nat) : Nat := (w.toNat >>> lo) % 2 ^ n

/-- One bit of `w` (R5). -/
def bit (w : Word) (k : Nat) : Bool := w.getLsbD k

/-- A number placed at bit `lo` of a word, cut to `n` bits. -/
def place (v lo n : Nat) : Word := BitVec.ofNat 64 ((v % 2 ^ n) <<< lo)

/-- A flag placed at bit `k` of a word. -/
def placeB (b : Bool) (k : Nat) : Word := if b then BitVec.ofNat 64 (1 <<< k) else 0

/-- `w` with the `n` bits from `lo` replaced by `v`. -/
def setFld (w : Word) (lo n v : Nat) : Word :=
  (w &&& ~~~ (place (2 ^ n - 1) lo n)) ||| place v lo n

/-- Whether `w` has a bit set outside the mask `m` (reserved bits, R12). -/
def outside (w m : Word) : Bool := (w &&& ~~~ m) != 0

/-- Sign extension of an `n`-bit field to 64 bits (R41). -/
def sext {n : Nat} (x : BitVec n) : Word := x.signExtend 64

/-- Zero extension to 64 bits (R41). -/
def zext {n : Nat} (x : BitVec n) : Word := x.setWidth 64

/-- The little-endian bytes of a number, `n` of them (R6). -/
def leBytes : Nat → Nat → List Byte
  | 0, _ => []
  | n + 1, v => BitVec.ofNat 8 v :: leBytes n (v / 256)

/-- The number that little-endian bytes spell (R6). -/
def leVal : List Byte → Nat
  | [] => 0
  | b :: bs => b.toNat + 256 * leVal bs

/-- The 64-bit word at byte offset `off` of a byte list (R6); bytes beyond the list read as zero. -/
def wordAt (bs : List Byte) (off : Nat) : Word := BitVec.ofNat 64 (leVal ((bs.drop off).take 8))

/-- The serial-number distance of R15: (a − b) mod 2³². -/
def serialDist (a b : BitVec 32) : Nat := (a - b).toNat

/-- R15: a is later than b when 1 ≤ d ≤ 2³¹ − 1. -/
def serialLater (a b : BitVec 32) : Bool := 1 ≤ serialDist a b && serialDist a b < 2 ^ 31

/-- R15: a is earlier than b when d ≥ 2³¹. -/
def serialEarlier (a b : BitVec 32) : Bool := 2 ^ 31 ≤ serialDist a b

/-- ⌈a / b⌉. -/
def ceilDiv (a b : Nat) : Nat := (a + b - 1) / b

/-- A count that saturates at `2^n − 1` (R172). -/
def satAdd (n a b : Nat) : Nat := Nat.min (a + b) (2 ^ n - 1)

/-- The number of ones of a mask below bit `n`. -/
def popUpTo (w : Nat) : Nat → Nat
  | 0 => 0
  | n + 1 => (if w.testBit n then 1 else 0) + popUpTo w n

/-- The indices below `n` whose bit of `w` is set, rising. -/
def bitsOf (w n : Nat) : List Nat := (List.range n).filter (fun k => w.testBit k)

/-- The element of a list at a place, or the default. -/
def nth {α : Type} (xs : List α) (k : Nat) (d : α) : α := xs.getD k d

/-- The `k`-th element taken out of a list. -/
def dropNth {α : Type} : List α → Nat → List α
  | [], _ => []
  | _ :: xs, 0 => xs
  | x :: xs, k + 1 => x :: dropNth xs k

end Sys2Proof.Machine
end

