-- ==== Sys2Proof/Machine/Geometry.lean ====
section
/-! DEFINITION. Where sites, logical tiles, dies and attach points lie (R16, R18, R250, R270, R271). -/

namespace Sys2Proof.Machine

/-- Whether a column, or a row, holds substitute sites (R270). -/
def subCol (x : Nat) : Bool := [6, 13, 20, 27, 34, 41, 48, 55].contains x
def subRow (y : Nat) : Bool := [3, 10, 17, 24, 31, 38, 45, 52].contains y

/-- Whether a site is a substitute site. -/
def isSubSite (x y : Nat) : Bool := subCol x && subRow y

/-- The substitute columns from `x0` up, `n` columns wide; and rows. -/
def subCols (x0 n : Nat) : Nat := ((List.range n).filter (fun i => subCol (x0 + i))).length
def subRows (y0 n : Nat) : Nat := ((List.range n).filter (fun i => subRow (y0 + i))).length

/-- The row-major number of a non-substitute site within a rectangle that starts at (x0, y0) and is `w` wide (R270, R271). -/
def rectIndex (x0 y0 w x y : Nat) : Nat :=
  (y - y0) * w - subRows y0 (y - y0) * subCols x0 w + (x - x0) - (if subRow y then subCols x0 (x - x0) else 0)

/-- The non-substitute sites of one row of a rectangle. -/
def rowSites (x0 w y : Nat) : Nat := w - (if subRow y then subCols x0 w else 0)

/-- The column of the `k`-th non-substitute site of a row. -/
def rowFind (y : Nat) : Nat → Nat → Nat → Nat
  | 0, x, _ => x
  | n + 1, x, k => if isSubSite x y then rowFind y n (x + 1) k else if k = 0 then x else rowFind y n (x + 1) (k - 1)

/-- The site (x, y) of the `k`-th non-substitute site of a rectangle. -/
def rectFind (x0 w : Nat) : Nat → Nat → Nat → Nat × Nat
  | 0, y, _ => (x0, y)
  | n + 1, y, k => if k < rowSites x0 w y then (rowFind y w x0 k, y) else rectFind x0 w n (y + 1) (k - rowSites x0 w y)

/-- A site's id. -/
def siteId (x y : Nat) : Nat := y * 56 + x

/-- R270: the site of a logical tile's own, and the logical tile of a non-substitute site. -/
def ownSite (l : Nat) : Nat := let c := rectFind 0 56 56 0 l; siteId c.1 c.2
def logicalOf (x y : Nat) : Nat := rectIndex 0 0 56 x y

/-- The die of a site (R16, R18). -/
def dieOf (site : Nat) : Nat := (if site % 56 < 28 then 0 else 1) + (if site / 56 < 28 then 0 else 2)

/-- The die of a stack, and of a port (Table 1.1). -/
def dieOfStack (h : Nat) : Nat := h / 2
def dieOfPort (p : Nat) : Nat := p / 4

/-- The substitute sites of a die, by site id. -/
def subsOfDie (d : Nat) : List Nat :=
  ((List.range 28).map (fun j => (List.range 28).filterMap (fun i =>
    let x := i + 28 * (d % 2)
    let y := j + 28 * (d / 2)
    if isSubSite x y then some (siteId x y) else none))).flatten

/-- The hops between two sites. -/
def hops (a b : Nat) : Nat :=
  let d (m n : Nat) : Nat := if m ≤ n then n - m else m - n
  d (a % 56) (b % 56) + d (a / 56) (b / 56)

end Sys2Proof.Machine
end

