-- ==== Sys2Proof/Config.lean ====
section
/-! DEFINITION. What one module fixes and the manual leaves open: opaque constants with no body, so that no proof can
see a value of them (the free values of the assumption log). -/

namespace Sys2Proof.Config

/-- R186: the units in the last place by which an approximation's result differs from the rounding of the exact value,
0–4 standing for −2 to 2; a fixed function of the operation and the operand (assumption 8). -/
opaque approxUlp (op : Nat) (a : BitVec 32) : Fin 5
/-- Table 6.7: whether EXP2 of an operand below −149 gives the smallest subnormal (true) or +0 (assumption 8). -/
opaque exp2Tiny (a : BitVec 32) : Bool
/-- R148: a widened element whose exact product with the scale factor is no FP32 value, by format code, pattern and
scale exponent: the manual calls the widening exact and states no result there (assumption 15). -/
opaque widenOut (code pattern : Nat) (sexp : Int) : BitVec 32
/-- R96, R490: what a read finds in a codeword with three or more wrong bits (assumption 9). -/
opaque eccThree (draw : Nat) : Fin 3
/-- R96: the word a miscorrected read delivers (assumption 9). -/
opaque eccWord (draw : Nat) : BitVec 64
/-- R334: a byte of HBM read under a key it was not written under, or never written (assumption 10). -/
opaque hbmFill (keyGen addr : Nat) : BitVec 8
/-- The hardware random generator of the security engine: the `n`-th draw (R333, R530; assumption 11). -/
opaque random (n : Nat) : BitVec 256
/-- The proctor's own random draw for the `n`-th decision, out of `N` (R496; assumption 12). -/
opaque proctorDraw (n : Nat) : Nat
/-- Byte `i` of SHA-384's digest of a message (named by R443, R513; its definition is not in the manual; assumption 13). -/
opaque sha384Byte (bytes : List (BitVec 8)) (i : Nat) : BitVec 8
/-- SHA-384: 48 bytes. -/
def sha384 (bytes : List (BitVec 8)) : List (BitVec 8) := (List.range 48).map (sha384Byte bytes)
/-- Ed25519 verification of a signature over a message under a public key (R513; assumption 13). -/
opaque ed25519Verify (key msg sig : List (BitVec 8)) : Bool
/-- ML-DSA-65 verification with a context string (R513; assumption 13). -/
opaque mldsaVerify (key msg ctx sig : List (BitVec 8)) : Bool
/-- An Ed25519 signature by the alias key of a generation (R526, R527; assumption 13). -/
opaque ed25519Sign (aliasGen : Nat) (msg : List (BitVec 8)) : List (BitVec 8)
/-- An ML-DSA-65 signature by the alias key of a generation with a context string (R526, R527; assumption 13). -/
opaque mldsaSign (aliasGen : Nat) (msg ctx : List (BitVec 8)) : List (BitVec 8)
/-- The certificate chain of slot 0 issued for an alias generation: false Ed25519, true ML-DSA-65 (R526; assumption 13). -/
opaque certChain (aliasGen : Nat) (pq : Bool) : List (BitVec 8)
/-- The DeviceID public keys derived from a unique device secret: false Ed25519, true ML-DSA-65 (R524; assumption 13). -/
opaque deviceIdKey (uds : BitVec 256) (pq : Bool) : List (BitVec 8)
/-- The message that the `n`-th signed SPDM response covers (the SPDM 1.3 transcript is not in the manual; assumption 14). -/
opaque spdmTranscript (n : Nat) : List (BitVec 8)
/-- Tables 13.9, 13.11: LOG2 of a ring whose LOG2 was written outside its range (assumption 34). -/
opaque ringLog2 (written : Nat) : Nat
/-- Per module: silicon stepping (HI_ID.STEPPING, R409). -/
opaque stepping : BitVec 8
/-- Per module: the module serial (HI_SERIAL, R409). -/
opaque serial : BitVec 64
/-- Per module: boot ROM version (SC_BOOT.ROMVER, R532). -/
opaque romVersion : BitVec 8
/-- Per module: boot ROM digest, 48 bytes (R525). -/
opaque romDigest : List (BitVec 8)
/-- Per module: manufacturing date of the FRU data (R438). -/
opaque mfgDate : BitVec 64

end Sys2Proof.Config
end

