-- ==== Sys2Proof/Machine/Num.lean ====
section
/-! DEFINITION. Number formats, exact dyadic arithmetic, rounding, conversion, residues and exact sums
(`05_numerics.md` R140–R171) and the lane arithmetic of the vector engine (R185–R187). -/

namespace Sys2Proof.Machine

/-- An exact finite value m · 2^e. -/
structure Dy where
  m : Int
  e : Int
  deriving DecidableEq, Repr

/-- A value with its class: NaN, an infinity, or a finite value with the sign its zero carries. -/
inductive Num where
  | nan
  | inf (neg : Bool)
  | fin (neg : Bool) (m : Nat) (e : Int)
  deriving DecidableEq, Repr

/-- A floating-point format of Table 5.1. -/
structure Fmt where
  ebits : Nat
  mbits : Nat
  bias : Nat
  /-- an infinity exists and takes E all ones, M zero -/
  hasInf : Bool
  /-- a NaN exists -/
  hasNan : Bool
  deriving DecidableEq, Repr

def Fmt.fp32 : Fmt := ⟨8, 23, 127, true, true⟩
def Fmt.bf16 : Fmt := ⟨8, 7, 127, true, true⟩
def Fmt.fp16 : Fmt := ⟨5, 10, 15, true, true⟩
def Fmt.e4m3 : Fmt := ⟨4, 3, 7, false, true⟩
def Fmt.e5m2 : Fmt := ⟨5, 2, 15, true, true⟩
def Fmt.e2m1 : Fmt := ⟨2, 1, 1, false, false⟩

/-- The format a code of Table 4.1 names (0x0 FP32 to 0x5 E2M1). -/
def Fmt.ofCode : Nat → Option Fmt
  | 0 => some .fp32 | 1 => some .bf16 | 2 => some .fp16 | 3 => some .e4m3 | 4 => some .e5m2 | 5 => some .e2m1
  | _ => none

/-- Width of a format in bits. -/
def Fmt.width (f : Fmt) : Nat := 1 + f.ebits + f.mbits

/-- The value a bit pattern of a format stands for (R140, Table 5.1). -/
def Fmt.decode (f : Fmt) (x : Nat) : Num :=
  let M := x % 2 ^ f.mbits
  let E := (x >>> f.mbits) % 2 ^ f.ebits
  let S := x.testBit (f.ebits + f.mbits)
  if f.hasInf && E == 2 ^ f.ebits - 1 then (if M == 0 then .inf S else .nan)
  else if f.hasNan && !f.hasInf && E == 2 ^ f.ebits - 1 && M == 2 ^ f.mbits - 1 then .nan
  else if E == 0 then .fin S M (1 - f.bias - f.mbits : Int)
  else .fin S (M + 2 ^ f.mbits) (E - f.bias - f.mbits : Int)

/-- The largest finite magnitude of a format, m · 2^e (Table 5.1). -/
def Fmt.maxFin (f : Fmt) : Nat × Int :=
  if f.hasInf then (2 ^ (f.mbits + 1) - 1, (2 ^ f.ebits - 2 - f.bias - f.mbits : Int))
  else if f.hasNan then (2 ^ (f.mbits + 1) - 2, (2 ^ f.ebits - 1 - f.bias - f.mbits : Int))
  else (2 ^ (f.mbits + 1) - 1, (2 ^ f.ebits - 1 - f.bias - f.mbits : Int))

/-- Compare m₁·2^e₁ ≤ m₂·2^e₂ on magnitudes. -/
def magLe (m₁ : Nat) (e₁ : Int) (m₂ : Nat) (e₂ : Int) : Bool :=
  let e := min e₁ e₂
  decide (m₁ * 2 ^ (e₁ - e).toNat ≤ m₂ * 2 ^ (e₂ - e).toNat)

/-- How a rounding breaks a tie, and which way it goes. -/
inductive Rnd where
  | nearestEven
  | towardZero
  /-- nearest, a tie going away from zero (used for ties toward +∞ on a positive value) -/
  | nearestUp
  /-- nearest, a tie going toward zero -/
  | nearestDown
  deriving DecidableEq, Repr

/-- m · 2^sh rounded to a whole number. -/
def roundShift (r : Rnd) (m : Nat) (sh : Int) : Nat :=
  if 0 ≤ sh then m * 2 ^ sh.toNat
  else
    let k := (-sh).toNat
    let q := m / 2 ^ k
    let rem := m % 2 ^ k
    let half := 2 ^ (k - 1)
    match r with
    | .towardZero => q
    | .nearestEven => if half < rem || (rem == half && q % 2 == 1) then q + 1 else q
    | .nearestUp => if half ≤ rem then q + 1 else q
    | .nearestDown => if half < rem then q + 1 else q

/-- A magnitude rounded to the grid of a format whose exponent range has no upper bound (R145): n · 2^q with
n < 2^(mbits+1) after normalising. -/
def Fmt.grid (f : Fmt) (r : Rnd) (m : Nat) (e : Int) : Nat × Int :=
  if m == 0 then (0, 1 - f.bias - f.mbits)
  else
    let q := max (1 - f.bias - f.mbits : Int) (Nat.log2 m + e - f.mbits)
    let n := roundShift r m (e - q)
    if n == 2 ^ (f.mbits + 1) then (2 ^ f.mbits, q + 1) else (n, q)

/-- The bit pattern of a finite magnitude that lies on the format's grid and within its range. -/
def Fmt.pack (f : Fmt) (neg : Bool) (n : Nat) (q : Int) : Nat :=
  let s := if neg then 2 ^ (f.ebits + f.mbits) else 0
  if n < 2 ^ f.mbits then s + n
  else s + (q + f.mbits + f.bias).toNat * 2 ^ f.mbits + (n - 2 ^ f.mbits)

/-- The pattern of an infinity. -/
def Fmt.infBits (f : Fmt) (neg : Bool) : Nat :=
  (if neg then 2 ^ (f.ebits + f.mbits) else 0) + (2 ^ f.ebits - 1) * 2 ^ f.mbits

/-- The pattern of the largest finite value. -/
def Fmt.maxBits (f : Fmt) (neg : Bool) : Nat := f.pack neg f.maxFin.1 f.maxFin.2

/-- The canonical NaN (R142); the 8-bit formats keep the sign of the source. -/
def Fmt.nanBits (f : Fmt) (neg : Bool) : Nat :=
  if f.ebits + f.mbits == 7 then (if neg then 0xFF else 0x7F)
  else (2 ^ f.ebits - 1) * 2 ^ f.mbits + 2 ^ (f.mbits - 1)

/-- Whether a magnitude overflows a format (R145). -/
def Fmt.overflows (f : Fmt) (n : Nat) (q : Int) : Bool := !magLe n q f.maxFin.1 f.maxFin.2

/-- A finite value rounded to FP32, BF16 or FP16 to nearest, ties to even; beyond the range an infinity (true). -/
def Fmt.round (f : Fmt) (neg : Bool) (m : Nat) (e : Int) : Nat × Bool :=
  let g := f.grid .nearestEven m e
  if f.overflows g.1 g.2 then (f.infBits neg, true) else (f.pack neg g.1 g.2, false)

/-- What one conversion found out about its source (R144–R149). -/
structure ConvRep where
  ovf : Bool := false
  ftz : Bool := false
  nonfin : Bool := false
  nonzero : Bool := false
  deriving DecidableEq, Repr

/-- The sign of a NaN pattern matters to the 8-bit formats (R142). -/
def signOfBits (f : Fmt) (x : Nat) : Bool := x.testBit (f.ebits + f.mbits)

/-- R144–R147: a source value divided by 2^sexp and rounded once into a format other than E2M1; `neg` is the source's
sign bit. -/
def Fmt.convert (f : Fmt) (v : Num) (neg : Bool) (sexp : Int) : Nat × ConvRep :=
  match v with
  | .nan => (f.nanBits neg, ⟨false, false, true, false⟩)
  | .inf s => (if f.hasInf then f.infBits s else f.nanBits s, ⟨false, false, true, false⟩)
  | .fin s m e =>
    if m == 0 then (f.pack s 0 0, ⟨false, false, false, false⟩)
    else
      let g := f.grid .nearestEven m (e - sexp)
      if f.overflows g.1 g.2 then
        (if f.hasInf && f.mbits != 2 then f.infBits s else f.maxBits s, ⟨true, false, false, true⟩)
      else (f.pack s g.1 g.2, ⟨false, g.1 == 0, false, true⟩)

/-- ⌈log₂(m / 6)⌉ for m > 0 (R150). -/
def ceilLog2Sixth (m : Nat) : Int :=
  let l := Nat.log2 m
  if 2 * m ≤ 3 * 2 ^ l then l - 2 else l - 1

/-- ⌊log₂ of an FP32 magnitude⌋ + 127, limited to 1–254; 0 for zero (the history byte of Table 5.3). -/
def historyByte (amax : Nat) : Nat :=
  match Fmt.fp32.decode amax with
  | .fin _ m e => if m == 0 then 0 else (max 1 (min 254 (Nat.log2 m + e + 127))).toNat
  | _ => 254

/-- The larger of two FP32 magnitudes; the patterns order as the values do. -/
def f32MagMax (a b : Nat) : Nat := Nat.max (a % 2 ^ 31) (b % 2 ^ 31)

namespace Dy

def zero : Dy := ⟨0, 0⟩
/-- Exact sum. -/
def add (a b : Dy) : Dy :=
  let e := min a.e b.e
  ⟨a.m * 2 ^ (a.e - e).toNat + b.m * 2 ^ (b.e - e).toNat, e⟩
/-- Exact product. -/
def mul (a b : Dy) : Dy := ⟨a.m * b.m, a.e + b.e⟩
/-- Exact product with 2^k. -/
def scale (a : Dy) (k : Int) : Dy := ⟨a.m, a.e + k⟩
def neg (a : Dy) : Dy := ⟨-a.m, a.e⟩
def isNeg (a : Dy) : Bool := decide (a.m < 0)
/-- Order of exact values. -/
def lt (a b : Dy) : Bool := decide ((add a (neg b)).m < 0)

end Dy

/-- The exact value of a finite number. -/
def Num.dy : Num → Dy
  | .fin s m e => ⟨if s then -(m : Int) else m, e⟩
  | _ => Dy.zero

def Num.isNan : Num → Bool | .nan => true | _ => false
def Num.isInf : Num → Bool | .inf _ => true | _ => false
def Num.isFin : Num → Bool | .fin _ _ _ => true | _ => false
def Num.isZero : Num → Bool | .fin _ m _ => m == 0 | _ => false
def Num.neg : Num → Bool | .inf s => s | .fin s _ _ => s | .nan => false

/-- Exact product of two numbers, with the infinity and NaN rules of R113. -/
def Num.mul : Num → Num → Num
  | .nan, _ => .nan
  | _, .nan => .nan
  | .inf s, .inf t => .inf (s != t)
  | .inf s, .fin t m _ => if m == 0 then .nan else .inf (s != t)
  | .fin t m _, .inf s => if m == 0 then .nan else .inf (s != t)
  | .fin s m e, .fin t n f => .fin (s != t) (m * n) (e + f)

/-- Exact sum of a list of terms with the rules of R113 and R261: a NaN or infinities of both signs give NaN; a zero sum
is −0 only when every term is −0. -/
def Num.sum (xs : List Num) : Num :=
  if xs.any Num.isNan || (xs.any (fun x => x == .inf true) && xs.any (fun x => x == .inf false)) then .nan
  else if xs.any (fun x => x == .inf true) then .inf true
  else if xs.any (fun x => x == .inf false) then .inf false
  else
    let d := xs.foldl (fun a x => Dy.add a x.dy) Dy.zero
    if d.m == 0 then .fin (xs.all (fun x => x.isZero && x.neg) && !xs.isEmpty) 0 0
    else .fin d.isNeg d.m.natAbs d.e

/-- A number rounded to nearest, ties to even, into FP32, BF16 or FP16 (flag: a finite value became an infinity). -/
def Fmt.ofNum (f : Fmt) : Num → Nat × Bool
  | .nan => (f.nanBits false, false)
  | .inf s => (f.infBits s, false)
  | .fin s m e => f.round s m e

/-! ### FP32 lane arithmetic (R185–R187) -/

/-- Sticky flags an operation raises (Table 6.8). -/
structure VFlags where
  prange : Bool := false
  sat : Bool := false
  fovf : Bool := false
  finv : Bool := false
  fdz : Bool := false
  deriving DecidableEq, Repr

def VFlags.or (a b : VFlags) : VFlags :=
  ⟨a.prange || b.prange, a.sat || b.sat, a.fovf || b.fovf, a.finv || b.finv, a.fdz || b.fdz⟩

/-- The value of an FP32 lane. -/
def f32 (x : BitVec 32) : Num := Fmt.fp32.decode x.toNat

/-- An FP32 result of an exact number; FOVF when finite operands gave an infinity, FINV when none was NaN and the result is. -/
def f32Result (r : Num) (ops : List Num) : BitVec 32 × VFlags :=
  let b := Fmt.fp32.ofNum r
  (BitVec.ofNat 32 b.1,
    { fovf := b.2 && ops.all Num.isFin, finv := r.isNan && !ops.any Num.isNan })

def f32Add (a b : BitVec 32) : BitVec 32 × VFlags := f32Result (Num.sum [f32 a, f32 b]) [f32 a, f32 b]
def f32Mul (a b : BitVec 32) : BitVec 32 × VFlags := f32Result (Num.mul (f32 a) (f32 b)) [f32 a, f32 b]
def f32Fma (a b c : BitVec 32) : BitVec 32 × VFlags :=
  f32Result (Num.sum [Num.mul (f32 a) (f32 b), f32 c]) [f32 a, f32 b, f32 c]

/-- The sign-magnitude order key of an FP32 pattern, −0 below +0 (R185, R194). -/
def f32Key (x : BitVec 32) : Int := if x.getLsbD 31 then -((x.toNat % 2 ^ 31 : Nat) : Int) - 1 else (x.toNat : Int)

def f32Nan : BitVec 32 := 0x7FC00000#32
def f32IsNan (x : BitVec 32) : Bool := (f32 x).isNan

def f32Min (a b : BitVec 32) : BitVec 32 :=
  if f32IsNan a || f32IsNan b then f32Nan else if f32Key b < f32Key a then b else a
def f32Max (a b : BitVec 32) : BitVec 32 :=
  if f32IsNan a || f32IsNan b then f32Nan else if f32Key a < f32Key b then b else a

/-- A < B with −0 = +0, false when either is NaN (R185). -/
def f32Lt (a b : BitVec 32) : Bool :=
  !(f32IsNan a || f32IsNan b) &&
    (match f32 a, f32 b with
     | .inf s, .inf t => s && !t
     | .inf s, _ => s
     | _, .inf t => !t
     | x, y => Dy.lt x.dy y.dy)
def f32Eq (a b : BitVec 32) : Bool :=
  !(f32IsNan a || f32IsNan b) && !f32Lt a b && !f32Lt b a
def f32Le (a b : BitVec 32) : Bool := f32Lt a b || f32Eq a b

/-- The FP32 pattern nearest to m · 2^e (m > 0) moved by the free offset of R186, kept finite. -/
def approxBits (op : Nat) (a : BitVec 32) (neg : Bool) (m : Nat) (e : Int) : BitVec 32 × VFlags :=
  let b := Fmt.fp32.round false m e
  if b.2 then (BitVec.ofNat 32 (Fmt.fp32.infBits neg), { fovf := true })
  else
    let k : Int := (Config.approxUlp op a).val - 2
    let v := (max 0 (min (Fmt.fp32.maxBits false : Int) ((b.1 : Int) + k))).toNat
    (BitVec.ofNat 32 (v + if neg then 2 ^ 31 else 0), {})

/-- ⌊√n⌋ by bisection on the bits, from bit `k` down. -/
def isqrtFrom (n : Nat) : Nat → Nat → Nat
  | 0, r => r
  | k + 1, r => isqrtFrom n k (if (r + 2 ^ k) * (r + 2 ^ k) ≤ n then r + 2 ^ k else r)

def isqrt (n : Nat) : Nat := isqrtFrom n (Nat.log2 n / 2 + 1) 0

/-- ⌊2^(96 + f)⌋ approximately, f = frac / 2^96: the product of the roots 2^(2^−i) for the bits of f, each root the square
root of the one before it. -/
def exp2Frac (frac : Nat) : Nat → Nat → Nat → Nat
  | 0, _, acc => acc
  | n + 1, root, acc =>
    exp2Frac frac n (isqrt (root * 2 ^ 96)) (if frac.testBit n then acc * root / 2 ^ 96 else acc)

/-- ⌊2^96 · log₂(x / 2^96)⌋ approximately for 2^96 ≤ x < 2^97, by repeated squaring. -/
def log2Frac : Nat → Nat → Nat → Nat
  | 0, _, acc => acc
  | n + 1, x, acc =>
    let y := x * x / 2 ^ 96
    if 2 ^ 97 ≤ y then log2Frac n (y / 2) (2 * acc + 1) else log2Frac n y (2 * acc)

/-- EXP2, LOG2, RCP, RSQ (R186, Table 6.7). -/
def f32Exp2 (a : BitVec 32) : BitVec 32 × VFlags :=
  match f32 a with
  | .nan => (f32Nan, {})
  | .inf s => (if s then 0 else BitVec.ofNat 32 (Fmt.fp32.infBits false), {})
  | .fin s m e =>
    let d := (Num.fin s m e).dy
    if !Dy.lt d ⟨128, 0⟩ then (BitVec.ofNat 32 (Fmt.fp32.infBits false), { fovf := true })
    else if Dy.lt d ⟨-149, 0⟩ then (if Config.exp2Tiny a then 1 else 0, {})
    else
      let fx : Int := if 0 ≤ e + 96 then d.m * 2 ^ (e + 96).toNat else d.m / 2 ^ (-(e + 96)).toNat
      let k := fx / 2 ^ 96
      let frac := (fx - k * 2 ^ 96).toNat
      approxBits 0x0A a false (exp2Frac frac 96 (isqrt (2 ^ 193)) (2 ^ 96)) (k - 96)

def f32Log2 (a : BitVec 32) : BitVec 32 × VFlags :=
  match f32 a with
  | .nan => (f32Nan, {})
  | .inf s => if s then (f32Nan, { finv := true }) else (BitVec.ofNat 32 (Fmt.fp32.infBits false), {})
  | .fin s m e =>
    if m == 0 then (BitVec.ofNat 32 (Fmt.fp32.infBits true), { fdz := true })
    else if s then (f32Nan, { finv := true })
    else if a == 0x3F800000#32 then (0, {})
    else
      let l := Nat.log2 m
      let x := m * 2 ^ (96 - l)
      let v : Int := (l + e) * 2 ^ 96 + (log2Frac 96 x 0 : Nat)
      approxBits 0x0B a (decide (v < 0)) v.natAbs (-96)

def f32Rcp (a : BitVec 32) : BitVec 32 × VFlags :=
  match f32 a with
  | .nan => (f32Nan, {})
  | .inf s => (BitVec.ofNat 32 (if s then 2 ^ 31 else 0), {})
  | .fin s m e =>
    if m == 0 then (BitVec.ofNat 32 (Fmt.fp32.infBits s), { fdz := true })
    else approxBits 0x0C a s (2 ^ 100 / m) (-100 - e)

def f32Rsq (a : BitVec 32) : BitVec 32 × VFlags :=
  match f32 a with
  | .nan => (f32Nan, {})
  | .inf s => if s then (f32Nan, { finv := true }) else (0, {})
  | .fin s m e =>
    if m == 0 then (BitVec.ofNat 32 (Fmt.fp32.infBits s), { fdz := true })
    else if s then (f32Nan, { finv := true })
    else
      let odd := e % 2 == 1
      let m' := if odd then 2 * m else m
      let e' := if odd then e - 1 else e
      approxBits 0x0D a false (isqrt (2 ^ 200 / m')) (-100 - e' / 2)

/-- A rounded to the nearest BF16, E4M3 or E5M2 value and kept as FP32 (RNDB, RNDE4, RNDE5). -/
def f32RoundTo (f : Fmt) (a : BitVec 32) : BitVec 32 × VFlags :=
  match f32 a with
  | .nan => (f32Nan, {})
  | .inf _ => if f.hasInf then (a, {}) else (f32Nan, { finv := true })
  | .fin s m e =>
    let c := f.convert (.fin s m e) s 0
    let back := Fmt.fp32.ofNum (f.decode c.1)
    (BitVec.ofNat 32 back.1, { sat := c.2.ovf && f.ebits + f.mbits == 7, fovf := c.2.ovf && f.mbits == 7 })

/-- A limited to the signed 32-bit range (flag: it was limited). -/
def satS32 (v : Int) : BitVec 32 × Bool :=
  if v < -2 ^ 31 then (BitVec.ofInt 32 (-2 ^ 31), true)
  else if 2 ^ 31 - 1 < v then (BitVec.ofInt 32 (2 ^ 31 - 1), true) else (BitVec.ofInt 32 v, false)

/-- A limited to the unsigned 32-bit range. -/
def satU32 (v : Int) : BitVec 32 × Bool :=
  if v < 0 then (0, true) else if 2 ^ 32 - 1 < v then (BitVec.ofInt 32 (2 ^ 32 - 1), true) else (BitVec.ofInt 32 v, false)

/-- CVTFI: to a 32-bit integer, nearest, ties to even, saturating; a NaN gives 0 and sets SAT. -/
def f32ToInt (a : BitVec 32) : BitVec 32 × VFlags :=
  match f32 a with
  | .nan => (0, { sat := true })
  | .inf s => (BitVec.ofInt 32 (if s then -2 ^ 31 else 2 ^ 31 - 1), { sat := true })
  | .fin s m e =>
    let n : Int := roundShift .nearestEven m e
    let r := satS32 (if s then -n else n)
    (r.1, { sat := r.2 })

/-- CVTIF: FP32 of a 32-bit integer. -/
def f32OfInt (a : BitVec 32) : BitVec 32 :=
  let v := a.toInt
  BitVec.ofNat 32 (Fmt.fp32.round (decide (v < 0)) v.natAbs 0).1

/-! ### Stochastic rounding (R127, R128) -/

/-- The 16-bit draw of R128 for element `el` of accumulator `j` with count `n`. -/
def srDraw (seed step : Word) (logical n el j : Nat) : Nat :=
  let key := seed ^^^ (step * 0x9E3779B97F4A7C15)
  let c : Word := BitVec.ofNat 64 n ||| (BitVec.ofNat 64 el <<< 32) ||| (BitVec.ofNat 64 j <<< 40) |||
    (BitVec.ofNat 64 logical <<< 48)
  let z := key + c * 0xBF58476D1CE4E5B9
  let z := (z ^^^ (z >>> 30)) * 0xBF58476D1CE4E5B9
  let z := (z ^^^ (z >>> 27)) * 0x94D049BB133111EB
  let z := z ^^^ (z >>> 31)
  (z >>> 48).toNat

/-- R127: a finite value rounded stochastically to FP32 under the draw `r` (flag: the result is an infinity). -/
def stochRound (neg : Bool) (m : Nat) (e : Int) (r : Nat) : Nat × Bool :=
  let f := Fmt.fp32
  let g := f.grid .nearestEven m e
  if magLe 1 128 m e then (f.infBits neg, true)
  else if magLe m e g.1 g.2 && magLe g.1 g.2 m e then (f.pack neg g.1 g.2, false)
  else
    let t := f.grid .towardZero m e
    let lo := min e t.2
    let diff := m * 2 ^ (e - lo).toNat - t.1 * 2 ^ (t.2 - lo).toNat
    let u := 2 ^ (t.2 - lo).toNat
    let F := diff * 65536 / u
    if F > r then
      let up := if t.1 + 1 == 2 ^ 24 then (2 ^ 23, t.2 + 1) else (t.1 + 1, t.2)
      if f.overflows up.1 up.2 then (f.infBits neg, true) else (f.pack neg up.1 up.2, false)
    else (f.pack neg t.1 t.2, false)

/-! ### Residues (R166, R167) -/

/-- log₂ of the unit in last place of a BF16 pattern (R166). -/
def bf16Ulp (w : Nat) : Int :=
  let E := (w >>> 7) % 256
  if E == 0 then -133 else E - 134

/-- RADD of R167: the new weight, the new residue and the sticky flags. -/
def residueAdd (w : BitVec 16) (rho : BitVec 8) (delta : BitVec 32) : BitVec 16 × Int × VFlags :=
  let wn := Fmt.bf16.decode w.toNat
  let dn := f32 delta
  if wn.isNan || dn.isNan || wn.isInf || dn.isInf then
    (0x7FC0#16, 0, { finv := !(wn.isNan || dn.isNan) })
  else
    let t := Dy.add (Dy.add wn.dy ⟨rho.toInt, bf16Ulp w.toNat - 8⟩) dn.dy
    let neg := t.isNeg
    let g := Fmt.bf16.grid (if neg then .nearestDown else .nearestUp) t.m.natAbs t.e
    if Fmt.bf16.overflows g.1 g.2 then (BitVec.ofNat 16 (Fmt.bf16.infBits neg), 0, { fovf := true })
    else
      let w' := Fmt.bf16.pack (neg && g.1 != 0) g.1 g.2
      let diff := Dy.add t (Dy.neg ⟨if neg then -(g.1 : Int) else g.1, g.2⟩)
      let q := Dy.scale diff (8 - bf16Ulp w')
      let n : Int := roundShift .nearestEven q.m.natAbs q.e
      (BitVec.ofNat 16 w', min 127 (if q.m < 0 then -n else n), {})

/-! ### Exact sums (R168–R171) -/

/-- An exact-sum word: 320 bits and its class flags (R168). -/
structure XWord where
  v : BitVec 320
  pinf : Bool
  ninf : Bool
  nan : Bool
  deriving DecidableEq, Repr

def XWord.zero : XWord := ⟨0, false, false, false⟩

/-- Adding one value (R169). -/
def XWord.addNum (x : XWord) : Num → XWord
  | .nan => { x with nan := true }
  | .inf s => if s then { x with ninf := true } else { x with pinf := true }
  | .fin s m e =>
    let k : Nat := if 0 ≤ e + 149 then m * 2 ^ (e + 149).toNat else m / 2 ^ (-(e + 149)).toNat
    { x with v := if s then x.v - BitVec.ofNat 320 k else x.v + BitVec.ofNat 320 k }

/-- Adding two words (R170). -/
def XWord.add (x y : XWord) : XWord := ⟨x.v + y.v, x.pinf || y.pinf, x.ninf || y.ninf, x.nan || y.nan⟩

/-- Rounding a word to FP32 (R170); the flag is the sticky overflow. -/
def XWord.round (x : XWord) : BitVec 32 × Bool :=
  if x.nan || (x.pinf && x.ninf) then (f32Nan, false)
  else if x.pinf then (BitVec.ofNat 32 (Fmt.fp32.infBits false), false)
  else if x.ninf then (BitVec.ofNat 32 (Fmt.fp32.infBits true), false)
  else
    let b := Fmt.fp32.round (decide (x.v.toInt < 0)) x.v.toInt.natAbs (-149)
    (BitVec.ofNat 32 b.1, b.2)

/-- The 48 bytes of a word in memory (R171). -/
def XWord.bytes (x : XWord) : List Byte :=
  leBytes 40 x.v.toNat ++
    [BitVec.ofNat 8 ((if x.pinf then 1 else 0) + (if x.ninf then 2 else 0) + if x.nan then 4 else 0)] ++ leBytes 7 0

/-- The word that 48 bytes hold; none when a reserved bit is set (R171). -/
def XWord.ofBytes (bs : List Byte) : Option XWord :=
  let fl := (bs.getD 40 0).toNat
  if fl < 8 && (bs.drop 41).all (fun b => b == 0) then
    some ⟨BitVec.ofNat 320 (leVal (bs.take 40)), fl.testBit 0, fl.testBit 1, fl.testBit 2⟩
  else none

end Sys2Proof.Machine
end

