-- ==== Sys2Proof/Machine/Packet.lean ====
section
/-! DEFINITION. What travels between tiles, units and ports: exchange descriptors, control items, channel flits, writes
(`08_package_mesh.md`, `09_message_channels.md`, `11_ranov_links.md` sections 11.4 and 11.5). -/

namespace Sys2Proof.Machine

/-- Where a packet comes from or goes to: a logical tile, a port, or the bell unit and hub. -/
inductive Place where
  | tile (l : Nat)
  | port (p : Nat)
  | root
  deriving DecidableEq, Repr

/-- Which write of a tile a packet carries, for R205: the tile, whether the walker issued it, and the number of the XC
instruction or of the walker's descriptor. -/
structure Tag where
  tile : Nat
  walker : Bool
  born : Nat
  deriving DecidableEq, Repr

/-- A bell notice (Table 7.4). -/
structure Notice where
  release : Bool
  bell : Nat
  anyfail : Bool
  status : Nat
  late : Bool
  flags : BitVec 8
  epoch : BitVec 32
  latest : Nat
  lateness : Nat
  deriving DecidableEq, Repr

/-- The two ends of a channel as a control item names them: DEP and DTILE where it goes, SEP and SRCTILE whence it comes
(Table 11.7, KINDs 6–9). -/
structure Ends where
  dep : Nat
  sep : Nat
  dtile : Nat
  srctile : Nat
  deriving DecidableEq, Repr

/-- A port's capability record (R353). -/
structure CapRec where
  serial : Word
  port : Nat
  hiMaj : Nat
  hiMin : Nat
  loMaj : Nat
  loMin : Nat
  lanes : Nat
  credits : List Nat
  deriving DecidableEq, Repr

/-- Control items: the control cells of Table 11.7 and their in-package forms; TIME items note when they arrived (R371). -/
inductive Ctl where
  | bell (n : Notice)
  | announce (word : Option Word) (ctr flow dtile count dsth dstoff : Nat)
  | passes (sep dtile units : Nat)
  | openReq (e : Ends)
  | openRep (e : Ends) (result runits : Nat)
  | closeNotice (e : Ends)
  | truncNotice (e : Ends) (seq : BitVec 32)
  | writeFail (dtile ftile kind reason : Nat)
  | throttle (origin rate hops : Nat)
  | timeReq (t1 since : Nat)
  | timeRep (turn t2 since : Nat)
  | cap (c : CapRec)
  deriving DecidableEq, Repr

/-- A remote write of at most 64 bytes (R305): destination handle and offset, data, the counter it names, SETFULL, the
receive flow it names. -/
structure WriteBody where
  handle : Nat
  off : Nat
  data : List Byte
  ctr : Option Nat
  setfull : Bool
  flow : Option Nat
  /-- the partition-relative tile to which a refusal is reported (R306), none for an announce's word or a reduction's sum -/
  writer : Option Nat
  deriving DecidableEq, Repr

/-- A channel data flit (R293): its message's fields, whether it is a PAD, its place in the message and its payload. -/
structure Flit where
  ends : Ends
  seq : BitVec 32
  len : Nat
  tag : BitVec 32
  units : Nat
  pad : Bool
  idx : Nat
  data : List Byte
  deriving DecidableEq, Repr

/-- What a packet carries. -/
inductive Body where
  | write (w : WriteBody)
  | flit (f : Flit)
  | marker (e : Ends)
  | ctl (c : Ctl)
  | count (flow bytes : Nat)
  deriving DecidableEq, Repr

/-- The virtual channel of a body (Table 8.2). -/
def Body.vc : Body → Nat
  | .write _ => 1 | .flit _ => 1 | .marker _ => 1 | .ctl _ => 0 | .count .. => 0

/-- A packet in flight: source, destination, the partition index it carries (R256), the writes it stands for. -/
structure Packet where
  src : Place
  dst : Place
  part : Nat
  tags : List Tag
  body : Body
  deriving DecidableEq, Repr

/-- A context waiting to be sent across a port, or received and not yet processed (Table 11.6). -/
inductive Ctx where
  | write (w : WriteBody) (dtile srctile : Nat)
  | msg (e : Ends) (len : Nat) (seq tag : BitVec 32) (data : List Byte)
  | msgc (e : Ends) (segoff : Nat) (seq : BitVec 32) (data : List Byte)
  | pad (e : Ends) (seq : BitVec 32) (units : Nat)
  | close (e : Ends)
  deriving DecidableEq, Repr

/-- An exchange descriptor (Table 9.8). -/
structure XDesc where
  kind : Nat
  setfull : Bool
  cnt : Bool
  ctr : Nat
  srch : Nat
  dsth : Nat
  len : Nat
  srcoff : Nat
  dstoff : Nat
  dtile : Nat
  tree : Nat
  group : Nat
  remote : Bool
  port : Nat
  flow : Nat
  flowen : Bool
  stream : Nat
  word : Bool
  count : Nat
  deriving DecidableEq, Repr

/-- The bits Table 9.8 lists, by word. -/
def xdMask : List Word := [0x001FFFFF00FFFF3F, 0x000FFFFF000FFFFF, 0x1301FFF1F3FF0FFF, 0xFFFFFFFF]

/-- A descriptor's fields. -/
def XDesc.ofWords (w0 w1 w2 w3 : Word) : XDesc where
  kind := fld w0 0 4
  setfull := bit w0 4
  cnt := bit w0 5
  ctr := fld w0 8 4
  srch := fld w0 12 6
  dsth := fld w0 18 6
  len := fld w0 32 21
  srcoff := fld w1 0 20
  dstoff := fld w1 32 20
  dtile := fld w2 0 12
  tree := fld w2 16 10
  group := fld w2 28 4
  remote := bit w2 32
  port := fld w2 36 4
  flow := fld w2 40 8
  flowen := bit w2 48
  stream := fld w2 56 2
  word := bit w2 60
  count := fld w3 0 32

/-- A DMA descriptor as a stream holds it, its local and index handles resolved (R318, Table 10.4). -/
structure DmaDesc where
  op : Nat
  setfull : Bool
  cnt : Bool
  ctr : Nat
  lh : Word
  ih : Word
  rows : Nat
  len : Nat
  dva : Nat
  dstride : Nat
  loff : Nat
  lstride : Nat
  aux : Nat
  off6 : Nat
  deriving DecidableEq, Repr

/-- The bits Table 10.4 lists, by word. -/
def dmaMask : List Word :=
  [0x00FFFFFF00FFFF3F, 0xFFFFFFFF, 0xFFFFFFFFFFFF, 0xFFFFFFFFFFFF, 0x000FFFFF000FFFFF, 0xFFFFFFFFFFFF, 0xFFFFFFFFFFFF, 0]

/-- A descriptor that has been reached and checked (R307): its source handle as then resolved (R80), the DMA descriptor it
hands over, and how many packets of a REDUCE have been injected. -/
structure XCur where
  d : XDesc
  src : Word
  dma : Option DmaDesc
  sent : Nat
  deriving DecidableEq, Repr

/-- A stream of a tile (R318, Table 10.13): its descriptors, oldest first, the bytes of the oldest already moved, whether
it has moved everything and with which status, a translation fault and when it was posted. -/
structure Stream where
  queue : List DmaDesc
  moved : Nat
  status : Option Nat
  fault : Option Nat
  /-- the oldest descriptor met a poisoned unit (R338) -/
  spoiled : Bool
  last : BitVec 8
  err : Bool
  range : Bool
  /-- bytes moved, reported in 256-byte units -/
  bytes : Nat
  descs : Word
  deriving DecidableEq, Repr

def Stream.reset : Stream := ⟨[], 0, none, none, false, 0, false, false, 0, 0⟩

/-- A job-unique packet of a reduction tree in a node's queue (R261): its elements as bytes, and for the root's own packets
the write that the result becomes; the writes it stands for. -/
structure RedPkt where
  data : List Byte
  out : Option WriteBody
  tags : List Tag
  deriving DecidableEq, Repr

end Sys2Proof.Machine
end

