-- ==== Sys2Proof/Machine/Store.lean ====
section
/-! DEFINITION. Sparse stores as plain data: a rising list of key and value pairs (`Tab`), and byte memory as a list of
`Host.Cell` in one canonical form. -/

namespace Sys2Proof.Machine

/-- A sparse table: keys strictly rising. What an unlisted key holds is the reader's default. -/
abbrev Tab (α : Type) := List (Nat × α)

/-- What the table holds at a key, if anything. -/
def Tab.find? {α : Type} : Tab α → Nat → Option α
  | [], _ => none
  | (k, v) :: m, a => if a = k then some v else if a < k then none else Tab.find? m a

/-- What the table holds at a key, or the default. -/
def Tab.get {α : Type} (d : α) (m : Tab α) (a : Nat) : α := (Tab.find? m a).getD d

/-- The table with a key listed. -/
def Tab.put {α : Type} : Tab α → Nat → α → Tab α
  | [], a, v => [(a, v)]
  | (k, w) :: m, a, v =>
    if a = k then (a, v) :: m else if a < k then (a, v) :: (k, w) :: m else (k, w) :: Tab.put m a v

/-- The table with a key unlisted. -/
def Tab.erase {α : Type} : Tab α → Nat → Tab α
  | [], _ => []
  | (k, w) :: m, a => if a = k then m else if a < k then (k, w) :: m else (k, w) :: Tab.erase m a

/-- The table with `v` at a key, unlisted when `v` is the default: the canonical write. -/
def Tab.set {α : Type} [DecidableEq α] (d : α) (m : Tab α) (a : Nat) (v : α) : Tab α :=
  if v = d then Tab.erase m a else Tab.put m a v

/-- Every key of the table lies above `k`. -/
def Tab.above {α : Type} (k : Nat) : Tab α → Bool
  | [] => true
  | (a, _) :: m => decide (k < a) && Tab.above k m

/-- Keys strictly rising. -/
def Tab.rising {α : Type} : Tab α → Bool
  | [] => true
  | (a, _) :: m => Tab.above a m && Tab.rising m

/-- No entry holds the default. -/
def Tab.proper {α : Type} [DecidableEq α] (d : α) (m : Tab α) : Bool := m.all (fun e => decide (e.2 ≠ d))

/-- Byte memory: a rising list of (address, byte). -/
abbrev Mem := List Host.Cell

/-- What an unlisted byte of a scratchpad, an operand cache, the locker or host memory reads as (R102, R440; assumption 3). -/
def Mem.fill : Byte := 0

/-- The canonical form: addresses strictly rising, and no entry equal to what an unlisted address reads as. -/
def Mem.wf (m : Mem) : Bool := Tab.rising m && Tab.proper Mem.fill m

/-- One byte. -/
def Mem.read (m : Mem) (a : Nat) : Byte := Tab.get Mem.fill m a

/-- One byte written, in canonical form. -/
def Mem.write (m : Mem) (a : Nat) (b : Byte) : Mem := Tab.set Mem.fill m a b

/-- `n` bytes from an address up. -/
def Mem.readN (m : Mem) (a n : Nat) : List Byte := (List.range n).map (fun i => Mem.read m (a + i))

/-- Bytes written from an address up. -/
def Mem.writeN (m : Mem) (a : Nat) : List Byte → Mem
  | [] => m
  | b :: bs => Mem.writeN (Mem.write m a b) (a + 1) bs

/-- The store with every key of a range unlisted. -/
def Tab.clear {α : Type} (m : Tab α) (lo n : Nat) : Tab α := m.filter (fun e => e.1 < lo || lo + n ≤ e.1)

end Sys2Proof.Machine
end

