-- ==== Sys2Proof/Machine/Tile.lean ====
section
/-! DEFINITION. The state of one tile: core, issue queues, scratchpad, matrix engine, scale records, vector engine,
exchange unit, bells (`02_tile_core.md` to `07_bells_and_timetables.md`, `09_message_channels.md`). -/

namespace Sys2Proof.Machine

/-- The three engine queues (R51). -/
inductive Eng where
  | mx | vx | xc
  deriving DecidableEq, Repr

/-- tc.cause.SOURCE of an engine (R61). -/
def Eng.source : Eng → Nat
  | .mx => 1 | .vx => 2 | .xc => 3

/-- An engine instruction with the operand values read at issue (R39, R51). -/
structure QEntry where
  op : BitVec 8
  pc : BitVec 20
  ga : Reg
  va : Word
  vb : Word
  vc : Word
  we : Bool
  wtok : BitVec 3
  se : Bool
  stok : BitVec 3
  deriving DecidableEq, Repr

/-- A started instruction: it completes with `ret`, the value of a value-returning instruction, once `ready`. -/
structure Started where
  e : QEntry
  ready : Bool
  ret : Option Word
  deriving DecidableEq, Repr

/-- One engine queue: entries not started, instructions started and not complete, and how many were ever issued and
completed (R51, R52, R56). -/
structure EngQ where
  waiting : List QEntry
  started : List Started
  issued : Nat
  completed : Nat
  deriving DecidableEq, Repr

def EngQ.empty : EngQ := ⟨[], [], 0, 0⟩

/-- What a waiting core waits for (R58, Table 2.5); WAITC and the bell keep the values read at issue. -/
inductive WaitOn where
  | bell (gd : Reg) (id : BitVec 6) (epoch : BitVec 32)
  | waitc (gd : Reg) (ctr : BitVec 4) (target : Word)
  | twait (k : BitVec 3)
  | fullempty (i : Instr) (load : Bool) (gt : Reg) (handle : BitVec 6) (off : Word)
  | fence (mx vx xc : Option Nat)
  | halt
  | queue (i : Instr)
  | result (i : Instr)
  deriving DecidableEq, Repr

/-- The wait kinds of Table 2.5; HALT waits with kind FENCE (R69). -/
def WaitOn.kind : WaitOn → Nat
  | .bell .. => 1 | .waitc .. => 2 | .twait _ => 3 | .fullempty .. => 4 | .fence .. => 5 | .halt => 5
  | .queue _ => 6 | .result _ => 7

/-- A wait in progress, with the limit it began with (R59, R71). -/
structure Waiting where
  on : WaitOn
  limit : Word
  deriving DecidableEq, Repr

/-- tc.status.RUN beside waiting: idle tiles run nothing; 2 and 3 are the two halts (R71). -/
inductive RunState where
  | idle | running | halted | faulted
  deriving DecidableEq, Repr

/-- The core: registers, timing scoreboard and the tc.* registers of Table 2.8. -/
structure Core where
  run : RunState
  g : Vector Word 32
  pc : BitVec 20
  tokens : Vector (BitVec 4) 8
  /-- registers an engine has yet to write (R53), one bit a register -/
  pend : BitVec 32
  wait : Option Waiting
  /-- the tc in which the next instruction may issue; tc.cycle (R48, R49, R72) -/
  cycle : Nat
  /-- the earliest tc in which a reader of each register may issue (R48) -/
  ready : Vector Nat 32
  /-- rows of the code buffer in the loop buffer, newest first (R49) -/
  loopRows : List Nat
  /-- tc.id and tc.part as loaded at job start -/
  idReg : Word
  partReg : Word
  hm : Bool
  froze : Bool
  skip : Bool
  cause : Word
  epc : BitVec 20
  info : Word
  evec : Word
  scratch : Word
  waitlimit : Word
  instret : Word
  waitcycles : Word
  freezes : Word
  skipped : Word
  deriving DecidableEq, Repr

/-- The core as a job start leaves it, not running (R37, Table 2.8). -/
def Core.reset : Core where
  run := .idle
  g := Vector.replicate 32 0
  pc := 0
  tokens := Vector.replicate 8 0
  pend := 0
  wait := none
  cycle := 0
  ready := Vector.replicate 32 0
  loopRows := []
  idReg := 0
  partReg := 0
  hm := false
  froze := false
  skip := false
  cause := 0
  epc := 0
  info := 0
  evec := 0
  scratch := 0
  waitlimit := 0x100000000
  instret := 0
  waitcycles := 0
  freezes := 0
  skipped := 0

/-- The scratchpad: data bytes and error masks by physical place (bank·65536 + row·64 + byte, R74, R75), full bits,
handles, arrival counters and the sp.* registers (Tables 3.1, 3.4). -/
structure Pad where
  mem : Mem
  /-- physical words that are full (R85) -/
  full : Tab Bool
  /-- wrong bits of a stored 73-bit codeword, by physical word (R96) -/
  ecc : Tab Nat
  /-- physical words whose write-back waits (R97) -/
  wb : List Nat
  /-- the words corrected by reads, not yet in the gradebook (R99, R504) -/
  corrWords : List Nat
  /-- reads of words with three or more wrong bits so far: the place of the next free draw -/
  draws : Nat
  h : Vector Word 64
  ctr : Vector Word 16
  badent : Bool
  refused : Bool
  last : BitVec 6
  overwrite : Bool
  closed : Bool
  closedH : BitVec 6
  under : BitVec 16
  corrected : Word
  conflicts : Word
  scrubRow : Nat
  /-- a wipe runs: reads of the tile's state are DENIED (R103) -/
  wiping : Bool
  /-- banks whose read-back failed in the running wipe (R103), and banks barred from jobs -/
  failedBanks : List Nat
  deriving DecidableEq, Repr

def Pad.reset : Pad where
  mem := []
  full := []
  ecc := []
  wb := []
  corrWords := []
  draws := 0
  h := Vector.replicate 64 0
  ctr := Vector.replicate 16 0
  badent := false
  refused := false
  last := 0
  overwrite := false
  closed := false
  closedH := 0
  under := 0
  corrected := 0
  conflicts := 0
  scrubRow := 0
  wiping := false
  failedBanks := []

/-- One plane's block: format code, scale exponent, element patterns by row, E8M0 bytes by row (E2M1; R106–R110). -/
structure Block where
  fmt : Nat
  sexp : Int
  cells : List (List Nat)
  e8m0 : List (List Nat)
  deriving DecidableEq, Repr

/-- A row on its way through the chained path: its accumulator and 32 FP32 values (R129). -/
structure ChainRow where
  acc : Nat
  vals : List (BitVec 32)
  deriving DecidableEq, Repr

/-- The matrix engine (R106–R138). -/
structure Mx where
  acc : Vector (Vector (BitVec 32) 32) 64
  acnt : Vector (BitVec 32) 64
  /-- accumulator elements with wrong bits: 0 none, 1 correctable, 2 not (R134), by 32·row + element -/
  accErr : Tab Nat
  p0 : Option Block
  p1 : Option Block
  /-- rows in the chained path, oldest first, at most 8 (R129) -/
  chain : List ChainRow
  /-- rows of started instructions that wait to enter it (R130) -/
  chainWait : List ChainRow
  /-- a parity error in a plane, the corner turn, the chained path or the vector state (R134, R203) -/
  parity : Bool
  nan : Bool
  inf : Bool
  srk : BitVec 32
  seed : Word
  passes : Word
  busy : Word
  stall : Word
  loads : Word
  srpasses : Word
  acorr : Word
  sig : Word
  /-- the signature captured at the last release (R135) -/
  sigCap : Word
  deriving DecidableEq, Repr

def Mx.reset : Mx where
  acc := Vector.replicate 64 (Vector.replicate 32 0)
  acnt := Vector.replicate 64 0
  accErr := []
  p0 := none
  p1 := none
  chain := []
  chainWait := []
  parity := false
  nan := false
  inf := false
  srk := 0x1000
  seed := 0
  passes := 0
  busy := 0
  stall := 0
  loads := 0
  srpasses := 0
  acorr := 0
  sig := 0xFFFFFFFFFFFFFFFF
  sigCap := 0

/-- A scale record (Table 5.3). -/
structure SRec where
  sexp : BitVec 8
  tfmt : BitVec 4
  home : BitVec 4
  hlen : BitVec 4
  margin : BitVec 4
  cbell : BitVec 6
  auto : Bool
  replay : Bool
  qthr : BitVec 16
  amax : BitVec 32
  used : Bool
  nonfin : Bool
  hist : BitVec 128
  nz : Nat
  ftz : Nat
  ovf : Nat
  qz : Nat
  qu : Nat
  ovfwin : Word
  deriving DecidableEq, Repr

/-- A record that the image does not set (R154, Table 5.3). -/
def SRec.reset : SRec :=
  ⟨0, 0, 0, 0, 0, 0x3F, false, false, 0x20, 0, false, false, 0, 0, 0, 0, 0, 0, 0⟩

/-- A record after a wipe: every word zero (R173). -/
def SRec.wiped : SRec :=
  ⟨0, 0, 0, 0, 0, 0, false, false, 0, 0, false, false, 0, 0, 0, 0, 0, 0, 0⟩

/-- The scale records and the numerics registers (Table 5.2). -/
structure Scale where
  recs : Vector SRec 64
  /-- the records as they stood when their windows opened (R159) -/
  opened : Vector SRec 64
  sel : BitVec 6
  ovfpend : Bool
  fatal : Bool
  fcause : BitVec 2
  frec : BitVec 6
  rollen : Bool
  rollbit : BitVec 3
  ovfmask : Word
  deriving DecidableEq, Repr

def Scale.reset : Scale where
  recs := Vector.replicate 64 .wiped
  opened := Vector.replicate 64 .wiped
  sel := 0
  ovfpend := false
  fatal := false
  fcause := 0
  frec := 0
  rollen := true
  rollbit := 7
  ovfmask := 0

/-- The partial results of a reduction (R193, R194). -/
structure Red where
  /-- FSUM: one partial a lane, none while empty -/
  sums : List (Option (BitVec 32))
  /-- FMAX, FMIN, ARGMAX: the best so far and its index -/
  best : Option (BitVec 32 × Nat)
  /-- ARGMAX, FMAX, FMIN: the index of the first NaN -/
  nanAt : Option Nat
  isum : Word
  deriving DecidableEq, Repr

def Red.empty : Red := ⟨List.replicate 16 none, none, none, 0⟩

/-- A run in progress: the words it captured at its start, the next vector, the temporaries and the reduction (R181, R184). -/
structure VRun where
  /-- 0 VX.RUN, 1 VX.CMPR, 2 VX.EXPD -/
  kind : Nat
  ctl : Word
  streams : List Word
  /-- the handle entries resolved at the start (R80) -/
  handles : List Word
  sexps : List Int
  prog : List (BitVec 32)
  vl : Nat
  v : Nat
  /-- e0–e7, each by element position -/
  temps : List (List (BitVec 32))
  red : Red
  /-- packed elements written or read so far (R191) -/
  packed : Nat
  deriving DecidableEq, Repr

/-- The vector engine (R174–R201). -/
structure Vx where
  vl : Nat
  vlzero : Bool
  prange : Bool
  sat : Bool
  fovf : Bool
  finv : Bool
  fdz : Bool
  faultSlot : BitVec 2
  faultWord : BitVec 5
  faultAtRun : Bool
  faultStream : BitVec 3
  prog : Vector (List (BitVec 32)) 4
  c : Vector (BitVec 32) 8
  s : Vector Word 5
  xs : Vector XWord 16
  cache : Mem
  elems : Word
  busy : Word
  stall : Word
  instr : Word
  run : Option VRun
  deriving DecidableEq, Repr

def Vx.reset : Vx where
  vl := 16
  vlzero := false
  prange := false
  sat := false
  fovf := false
  finv := false
  fdz := false
  faultSlot := 0
  faultWord := 0
  faultAtRun := false
  faultStream := 0
  prog := Vector.replicate 4 []
  c := Vector.replicate 8 0
  s := Vector.replicate 5 0
  xs := Vector.replicate 16 .zero
  cache := []
  elems := 0
  busy := 0
  stall := 0
  instr := 0
  run := none

/-- The states of a channel endpoint (Table 9.1), by code. -/
inductive EpState where
  | idle | listen | opening | isOpen | draining | closed
  deriving DecidableEq, Repr

def EpState.code : EpState → Nat
  | .idle => 0 | .listen => 1 | .opening => 2 | .isOpen => 3 | .draining => 4 | .closed => 5

/-- A message in reassembly (R297): its first flit's fields, the flits so far and when the first came. -/
structure Asm where
  seq : BitVec 32
  len : Nat
  tag : BitVec 32
  units : Nat
  pad : Bool
  got : Nat
  since : Nat
  deriving DecidableEq, Repr

/-- A complete record in a ring, from its header row's unit up (R289, Table 9.5): TYPE 1 MSG, 2 PAD, 3 TRUNC. -/
structure RingRec where
  at_ : Nat
  kind : Nat
  len : Nat
  units : Nat
  /-- the flits that brought it -/
  flits : Nat
  deriving DecidableEq, Repr

/-- Who asks to open a channel: a partition-relative tile's endpoint, here or across a port (R288). -/
structure OpenAsk where
  port : Option Nat
  ends : Ends
  since : Nat
  deriving DecidableEq, Repr

/-- One channel endpoint (Tables 9.1, 9.11) with the state its rules imply. -/
structure Endpoint where
  state : EpState
  send : Bool
  rloc : Bool
  remote : Bool
  port : BitVec 4
  peerep : BitVec 4
  peertile : BitVec 12
  pend : BitVec 8
  /-- the truncated message that PEND reports (R291) -/
  pendSeq : BitVec 32
  runits : Nat
  pos : Nat
  credits : Nat
  seq : BitVec 32
  ptmo : Nat
  stall : Word
  msgs : Word
  handle : BitVec 6
  dva : Nat
  /-- receiver: the unit at which the next record goes -/
  wpos : Nat
  recs : List RingRec
  asm : Option Asm
  held : Option OpenAsk
  deriving DecidableEq, Repr

def Endpoint.reset : Endpoint :=
  ⟨.idle, false, false, false, 0, 0, 0, 0, 0, 0, 0, 0, 0, 0, 0, 0, 0, 0, 0, [], none, none⟩

/-- The XC instruction in progress beyond its start (R285): a PUT at a descriptor, an OPEN or SEND or SELECT that waits. -/
inductive XcRun where
  | put (h : Word) (off count idx : Nat)
  | openSend (ep : Nat)
  | send (ep off len : Nat) (h : Word) (tag : BitVec 32)
  | select (mask : Nat) (rot : Bool)
  deriving DecidableEq, Repr

/-- The exchange unit (Tables 8.12, 9.11). -/
structure Xc where
  ep : Vector Endpoint 16
  selrot : BitVec 4
  denied : Bool
  wkind : BitVec 4
  wreason : BitVec 4
  wdtile : BitVec 12
  wdenied : Word
  latedrop : Word
  truncs : Word
  closedrop : Word
  cbsub : Vector (BitVec 14) 16
  cbrx : Word
  cbdrop : Word
  inj : Word
  ej : Word
  redwait : Word
  foreign : Word
  run : Option XcRun
  /-- the checked descriptor of the PUT in progress, and of the walker's firing -/
  putCur : Option XCur
  walkCur : Option XCur
  /-- descriptors the timetable walker has issued so far (R205) -/
  walked : Nat
  streams : Vector Stream 4
  deriving DecidableEq, Repr

def Xc.reset : Xc where
  ep := Vector.replicate 16 .reset
  selrot := 0
  denied := false
  wkind := 0
  wreason := 0
  wdtile := 0
  wdenied := 0
  latedrop := 0
  truncs := 0
  closedrop := 0
  cbsub := Vector.replicate 16 0
  cbrx := 0
  cbdrop := 0
  inj := 0
  ej := 0
  redwait := 0
  foreign := 0
  run := none
  putCur := none
  walkCur := none
  walked := 0
  streams := Vector.replicate 4 .reset

/-- bl.epn and bl.reln of one bell (R212, R215, Table 7.11); MEMBER and whether the bell is a recess bell come from the
bound descriptor. -/
structure TileBell where
  next : BitVec 32
  late : Bool
  exists_ : Bool
  member : Bool
  recess : Bool
  out : Nat
  rel : Word
  deriving DecidableEq, Repr

def TileBell.reset : TileBell := ⟨0, false, false, false, false, 0, 0xE00⟩

/-- A release the walker has latched: its bell (R242). -/
abbrev Latched := Nat

/-- The timetable walker and the bl.* registers (Table 7.11). -/
structure Bl where
  run : Bool
  stopcause : Nat
  pos : BitVec 20
  fired : Word
  step : Word
  modIndex : BitVec 12
  modCount : BitVec 13
  tol : BitVec 10
  releases : Word
  bells : Vector TileBell 64
  /-- the current record's remaining further firings (R241 step 5); none before its first firing -/
  again : Option Nat
  /-- the firing in progress: the next descriptor and how many there are -/
  firing : Option (Nat × Nat)
  /-- latched releases, oldest first, at most 15 -/
  latched : List Latched
  /-- a write of 0 to RUN waits for the end of the firing in progress (R242) -/
  stopping : Bool
  /-- the bell wait that a WAIT_LIMIT handler's return resumes (R63): the BELL's pc, register, bell and epoch -/
  resume : Option (BitVec 20 × Reg × BitVec 6 × BitVec 32)
  deriving DecidableEq, Repr

def Bl.reset : Bl where
  run := false
  stopcause := 0
  pos := 0
  fired := 0
  step := 0
  modIndex := 0
  modCount := 0
  tol := 0
  releases := 0
  bells := Vector.replicate 64 .reset
  again := none
  firing := none
  latched := []
  stopping := false
  resume := none

/-- What a tile's step asks the rest of the module to do. -/
inductive Act where
  /-- a class D error of the tile's partition, found in a bank (R100) or, with none, in the tile's engines (R134) -/
  | classD (bank : Option Nat) (addr : Nat)
  /-- a fault-log record of an exception (R65) -/
  | logExc (cause info : Word) (epc : BitVec 20) (cycle : Word)
  /-- the tile halted by an exception: TILE_HALTED and the job's end (R66) -/
  | halted (cause : Nat)
  /-- the tile halted by HALT: the job ends OK when it is the last (R69, R446) -/
  | haltOk
  /-- NUM_STEP_FAIL, once an attempt (R164) -/
  | stepFail (rcd fcause : Nat)
  /-- NUM_QUIET or NUM_UNDERFLOW (R165) -/
  | quiet (under : Bool) (rcd count : Nat)
  /-- a bell arrival leaves the core for the unit, once its writes have drained (R205, R211); `forced` is the lowest
  record of mx.ovfmask when the entry carried the overflow flag (R163) -/
  | arrive (bell : Nat) (epoch : BitVec 32) (flags : BitVec 8) (fail : Bool) (xcMark walkMark : Nat) (forced : Option Nat)
  /-- BELL_OVERRUN (R213) -/
  | overrun (bell : Nat) (next : BitVec 32)
  /-- a walker fault to log (R307): fault code and phase offset -/
  | walkerFault (code offset : Nat)
  /-- an item for a tile of the partition, by its partition-relative number -/
  | pkt (tile : Nat) (tags : List Tag) (b : Body)
  /-- a context, or a control cell, for a port -/
  | cross (port : Nat) (c : Ctx)
  | cell (port : Nat) (c : Ctl)
  /-- a chalkboard write to a group (R264) -/
  | chalk (group off : Nat) (data : List Byte) (setfull count : Bool) (tag : Tag)
  /-- a reduce-write packet for the tile's own queue of a tree (R261) -/
  | reduce (tree : Nat) (p : RedPkt)
  /-- bytes of a record of a ring in HBM (R290) -/
  | ringWrite (dva : Nat) (data : List Byte)
  deriving DecidableEq, Repr

/-- One tile. -/
structure Tile where
  core : Core
  mxq : EngQ
  vxq : EngQ
  xcq : EngQ
  pad : Pad
  mx : Mx
  sr : Scale
  vx : Vx
  xc : Xc
  bl : Bl
  deriving DecidableEq, Repr

/-- The tile after a wipe (R102, R136, R173, R204). -/
def Tile.wiped : Tile where
  core := .reset
  mxq := .empty
  vxq := .empty
  xcq := .empty
  pad := .reset
  mx := .reset
  sr := .reset
  vx := .reset
  xc := .reset
  bl := .reset

/-- What a tile's step gives: the tile afterwards and what it asks of the module, in order. -/
structure TRes where
  t : Tile
  acts : List Act
  deriving DecidableEq, Repr

/-- A step with nothing asked of the module. -/
def TRes.quiet (t : Tile) : TRes := ⟨t, []⟩

/-- One step after another. -/
def TRes.andThen (r : TRes) (f : Tile → TRes) : TRes :=
  let r2 := f r.t
  ⟨r2.t, r.acts ++ r2.acts⟩

/-- What a tile's step reads from outside the tile. -/
structure Env where
  now : Nat
  logical : Nat
  /-- the tile's partition-relative number, and how many tiles the partition has -/
  rel : Nat
  count : Nat
  /-- the ports the partition owns, one bit a port -/
  ports : Nat
  /-- whether a DVA range is mapped writable (R287) -/
  mapped : Nat → Nat → Bool
  /-- free places in the tile's own queue of a tree (R260), and whether the tile is that tree's root -/
  redRoom : Nat → Nat
  redRoot : Nat → Bool

end Sys2Proof.Machine
end

