-- ==== Sys2Proof/Machine/Units.lean ====
section
/-! DEFINITION. The state of the units outside the tiles: seating chart, chalkboard, bell unit, flows, reduction trees,
partitions, HBM and locker, Ranov ports, host functions and the command board (`07`, `08`, `10`, `11`, `13`, `14`). -/

namespace Sys2Proof.Machine

/-- A field that takes effect on APPLY: the value in force and its shadow (R9, R10). -/
structure Rwa (α : Type) where
  force : α
  shadow : α
  deriving DecidableEq, Repr

def Rwa.of {α : Type} (a : α) : Rwa α := ⟨a, a⟩
def Rwa.apply {α : Type} (r : Rwa α) : Rwa α := ⟨r.shadow, r.shadow⟩

/-! ### Seating chart (R270–R273) -/

/-- A seating-chart entry (Table 8.8). -/
structure Seat where
  site : Nat
  part : Nat
  valid : Bool
  hold : Bool
  deriving DecidableEq, Repr

/-! ### Chalkboard (R263–R269) -/

/-- What the chalkboard carries to tiles: a write to a group, one of its counts, or a named counter (R264–R267); the hub's writes name
one tile. -/
inductive Chalk where
  | data (group off : Nat) (bytes : List Byte) (setfull count : Bool)
  | groupCount (group off : Nat)
  | counter (ctr : Nat)
  deriving DecidableEq, Repr

/-- A pending write (R266). -/
structure ChalkReq where
  part : Nat
  item : Chalk
  tag : Tag
  deriving DecidableEq, Repr

/-- A granted item and the logical tiles it has yet to reach. -/
structure ChalkFlight where
  part : Nat
  item : Chalk
  tag : Option Tag
  left : List Nat
  deriving DecidableEq, Repr

structure Board where
  /-- oldest first -/
  reqs : List ChalkReq
  /-- the partition granted last (R266) -/
  turn : Nat
  flight : List ChalkFlight
  /-- ns of data hold (R269), and TM_CBHOLD's last refresh -/
  hold : Nat
  deriving DecidableEq, Repr

/-! ### Reduction trees (R258–R262) -/

/-- A node's entry with its queues: its own and one per child, each of at most four packets. -/
structure TreeNode where
  bf16 : Bool
  parent : Option Nat
  kids : List Nat
  own : List RedPkt
  qs : List (List RedPkt)
  deriving DecidableEq, Repr

/-! ### Bells (R207–R237) -/

/-- A bell descriptor (Table 7.1); the mask as a number, bit t for partition-relative tile t. -/
structure BellDesc where
  recess : Bool
  track : Bool
  timeout : Nat
  remote : Bool
  root : Bool
  parent : Nat
  children : Nat
  mask : Nat
  deriving DecidableEq, Repr

/-- A participant of a bell at this module (R208). -/
inductive Who where
  | tile (r : Nat)
  | port (p : Nat)
  deriving DecidableEq, Repr

/-- An arrival the bell unit holds: who, when, flags, FAIL, and the latest arrival of a child's subtree with its lateness. -/
structure Arr where
  who : Who
  time : Nat
  flags : BitVec 8
  fail : Bool
  latest : Nat
  lateness : Nat
  /-- the local tile and record that forced the overflow flag (R163) -/
  forced : Option (Nat × Nat)
  deriving DecidableEq, Repr

/-- A release formed (R217): what its record says, the overflow's origin, and BELL_TIMEOUT's ORIGIN. -/
structure Rel where
  bell : Nat
  epoch : BitVec 32
  flags : BitVec 8
  anyfail : Bool
  status : Nat
  late : Bool
  latest : Nat
  lateness : Nat
  forced : Option (Nat × Nat)
  /-- it came of a timer, this module's or its parent's (R227) -/
  timer : Bool
  /-- bell 63: this module's own contribution carried FAIL, and a veto was set (R398) -/
  ownFail : Bool
  veto : Bool
  deriving DecidableEq, Repr

/-- Why a recess release is held (R237, R452). -/
inductive HoldFor where
  | work | preempt
  deriving DecidableEq, Repr

/-- One bell of a partition at the bell unit. -/
structure Bell where
  desc : Option BellDesc
  /-- the epoch open: the next to release -/
  epoch : BitVec 32
  arr : List Arr
  /-- arrivals one epoch ahead (R212) -/
  ahead : List Arr
  /-- when epoch's timer started (R224) -/
  timer : Option Nat
  noticeSent : Bool
  /-- a formed release whose delivery is held, why, and since when (R237) -/
  held : Option (Rel × HoldFor × Nat)
  /-- lateness histograms: 16 bins per participant, tiles by number and ports from 65,536 (R228) -/
  hist : Tab (List Nat)
  /-- the open epoch's lateness is not recorded: a pre-emption interrupted it (R247) -/
  mute : Bool
  deriving DecidableEq, Repr

def Bell.idle : Bell := ⟨none, 0, [], [], none, false, none, [], false⟩

/-- An arrival that has not left its tile (R205). -/
structure OnWay where
  tile : Nat
  bell : Nat
  epoch : BitVec 32
  flags : BitVec 8
  fail : Bool
  xcMark : Nat
  walkMark : Nat
  forced : Option Nat
  deriving DecidableEq, Repr

/-- A release on its way to this module's tiles, the logical tiles it has yet to reach, and whether it has reached none so far. -/
structure RelFlight where
  rel : Rel
  left : List Nat
  fresh : Bool
  deriving DecidableEq, Repr

/-! ### Flows (R232–R236) -/

/-- An announce held at a home router. -/
structure Announce where
  word : Option Word
  ctr : Nat
  dtile : Nat
  count : Nat
  dsth : Nat
  dstoff : Nat
  since : Nat
  deriving DecidableEq, Repr

/-- A receive flow (Table 7.7). -/
structure Flow where
  home : Nat
  hold : Nat
  bytes : Nat
  waiting : List Announce
  deriving DecidableEq, Repr

/-! ### Fault log (R65, R493) -/

/-- A record of a partition's fault log or of the module log (Table 16.2); FIELDS as 32-bit halves. -/
structure LogRec where
  num : Nat
  time : Nat
  kind : Nat
  ltile : Nat
  part : Nat
  halves : List Nat
  deriving DecidableEq, Repr

/-- A log: its records, oldest first, and the next record number. -/
structure Log where
  recs : List LogRec
  next : Nat
  deriving DecidableEq, Repr

/-! ### Partitions (chapter 14) -/

inductive PartState where
  | none | empty | loaded | running | preempting | preempted | ending | held
  deriving DecidableEq, Repr

def PartState.code : PartState → Nat
  | .none => 0 | .empty => 1 | .loaded => 2 | .running => 3 | .preempting => 4 | .preempted => 5 | .ending => 6 | .held => 7

/-- Slot states of MM_SLOTn (Table 10.11). -/
inductive SlotState where
  | active | retiring | released | retired
  deriving DecidableEq, Repr

structure Slot where
  stack : Nat
  pc : Nat
  state : SlotState
  deriving DecidableEq, Repr

/-- The regulator (R328, Table 10.12): RATE, BURST, and the bytes the bucket holds. -/
structure Regulator where
  rate : Rwa Nat
  burst : Rwa Nat
  tokens : Nat
  wait : Nat
  deriving DecidableEq, Repr

/-- A cached translation (R316): a page's first DVA, its size, its frame's PPA, W and RET. -/
structure TlbEntry where
  page : Nat
  size : Nat
  frame : Nat
  w : Bool
  ret : Bool
  deriving DecidableEq, Repr

/-- MM_ block of a partition (Table 10.11) and its cached translations. -/
structure MmBlock where
  valid : Rwa Bool
  root : Rwa Nat
  apMode : Bool
  apBase : Nat
  ftmo : Nat
  stray : Bool
  aperr : Bool
  timedout : Bool
  invalBusy : Bool
  rdbytes : Nat
  wrbytes : Nat
  lookups : Nat
  faults : Nat
  tlb : List TlbEntry
  deriving DecidableEq, Repr

def MmBlock.reset : MmBlock := ⟨.of false, .of 0, false, 0, 0, false, false, false, false, 0, 0, 0, 0, []⟩

/-- How a job ends (R446). -/
inductive EndCause where
  | ok | halt | classD | killed | reset | destroyed
  deriving DecidableEq, Repr

/-- Saved state of a pre-empted partition (R452): every tile, by partition-relative number; the rest stays in the partition. -/
structure Saved where
  tiles : Tab Tile
  lost : Bool
  deriving DecidableEq, Repr

/-- The proctor's configuration and counts of a partition (chapter 16). -/
structure PtCfg where
  n : Rwa Nat
  pendingN : Option Nat
  sampled : Nat
  matched : Nat
  voided : Nat
  mismatched : Nat
  skipped : Nat
  deriving DecidableEq, Repr

structure Part where
  state : PartState
  bx : Nat
  by_ : Nat
  bw : Nat
  bh : Nat
  func : Nat
  ports : Nat
  slots : List Slot
  lkBase : Nat
  lkSize : Nat
  count : Nat
  /-- key generations: working and retain key, and the retain key under which the locker slot was zeroed (R334, R440) -/
  keyWork : Nat
  keyRet : Nat
  lkKey : Nat
  /-- every access to the partition's HBM is refused (R335) -/
  refused : Bool
  mm : MmBlock
  reg : Regulator
  bells : Tab Bell
  onWay : List OnWay
  rels : List RelFlight
  flows : Tab Flow
  trees : Tab TreeNode
  /-- a timetable is bound: START of each tile that has a section -/
  timetable : Option (Tab Nat)
  imaged : Bool
  keep : Bool
  pace : Bool
  lastEnd : Nat
  heldBell : Nat
  heldEpoch : BitVec 32
  jobs : Nat
  swaps : Nat
  preempts : Nat
  tests : Nat
  dbgAddr : Word
  dbgDenied : Bool
  step : Nat
  modIndex : Nat
  modCount : Nat
  tol : Nat
  veto : Bool
  /-- consecutive repeats of the step (R398) -/
  repeats : Nat
  /-- NUM_STEP_FAIL posted in this attempt (R164) -/
  failPosted : Bool
  /-- release times of bell 63, newest first, at most 17, and the threshold in force (R229) -/
  rel63 : List Nat
  threshold : Option Nat
  discarded : Nat
  unknownFlow : Nat
  recessHolds : Nat
  log : Log
  ending : Option EndCause
  /-- recess work asked for: RECESS's ACTIONS, and the command that asked, by function and slot -/
  actions : Nat
  asked : Option (Nat × Nat)
  /-- dies of the swaps made in the hold in force (R457) -/
  swapped : List Nat
  saved : Option Saved
  proctor : PtCfg
  deriving DecidableEq, Repr

/-! ### HBM, locker (chapter 10) -/

/-- A stack's temperature and refresh (R340). -/
structure Stack where
  temp : Nat
  mult : Nat
  cool : Nat
  hot : Bool
  half : Bool
  deriving DecidableEq, Repr

structure Hbm where
  /-- bytes as written, by module physical address (R333) -/
  cells : Tab Byte
  /-- the key generation under which each 64-byte unit was written -/
  keys : Tab Nat
  /-- poisoned units, and units that hold an uncorrectable or a corrected error not yet met -/
  poison : List Nat
  bad : List Nat
  weak : List Nat
  /-- pseudo-channels out of service, by 32 × stack + channel -/
  retired : List Nat
  heat : Vector Stack 8
  deriving DecidableEq, Repr

/-- The locker's partition slots, by locker address, and poisoned 64-byte units (R341, R343). -/
structure Locker where
  cells : Tab Byte
  keys : Tab Nat
  poison : List Nat
  bad : List Nat
  deriving DecidableEq, Repr

/-! ### Ports (chapter 11) -/

inductive PortState where
  | disabled | detect | train | negotiate | active | retrain | test | down
  deriving DecidableEq, Repr

def PortState.code : PortState → Nat
  | .disabled => 0 | .detect => 1 | .train => 2 | .negotiate => 3 | .active => 4 | .retrain => 5 | .test => 6 | .down => 7

/-- A context open on the receive side: its header slot, bytes so far, how many it has in all, slots and class. -/
structure RxOpen where
  head : List Byte
  data : List Byte
  len : Nat
  slots : Nat
  cls : Nat
  deriving DecidableEq, Repr

/-- A LINK_TEST in progress (R372): the command, its lanes, when it began and for how long. -/
structure LinkTest where
  func : Nat
  slot : Nat
  lanes : Nat
  pattern : Nat
  began : Nat
  ms : Nat
  deriving DecidableEq, Repr

structure Port where
  state : PortState
  since : Nat
  width : Nat
  /-- lanes admitted by training, lanes retired, lanes the gradebook retires at the next recess -/
  admitted : Nat
  retired : Nat
  toRetire : Nat
  vmaj : Nat
  vmin : Nat
  owner : Option Nat
  tvalid : Bool
  peer : Word
  peerPort : Nat
  peerValid : Bool
  en : Rwa Bool
  minw : Rwa Nat
  toff : Word
  txflits : Nat
  rxflits : Nat
  feccorr : Nat
  fecunc : Nat
  crcerr : Nat
  retries : Nat
  discard : Nat
  cstall : Nat
  downs : Nat
  proterr : Nat
  lanecorr : Vector Nat 4
  /-- bytes corrected on each lane in the current 1 ms, and when that began -/
  corrWin : Vector Nat 4
  winStart : Nat
  /-- receive: highest SEQ good and in order; NAK is being sent; credits the partner holds; credits to return -/
  rxSeq : BitVec 8
  nak : Bool
  given : Vector Nat 4
  returns : Vector Nat 4
  rxOpen : Option RxOpen
  /-- whole contexts with their slots and class, oldest first -/
  rxCtx : List (Ctx × Nat × Nat)
  /-- transmit: next SEQ, frames kept until acknowledged (SEQ, words of the link word's KINDS, body), where a resend stands -/
  txSeq : BitVec 8
  retry : List (BitVec 8 × Nat × List Byte)
  resendAt : Nat
  resends : Nat
  /-- frames found bad since the last good one in order -/
  fails : Nat
  credits : Vector Nat 4
  cells : List Ctl
  ctx1 : List Ctx
  ctx3 : List Ctx
  /-- slots of the open context yet to go, and its class -/
  txOpen : Option (List (Nat × List Byte) × Nat)
  turn : Nat
  /-- which of the last 128 slots were class 0 -/
  share : BitVec 128
  /-- when the next frame starts, in 1/300 ns, and sequenced frames since the last null frame -/
  txDue : Nat
  sinceNull : Nat
  /-- the last frame sent -/
  wire : List Byte
  /-- the partner's record, and whether it has acknowledged ours (R353) -/
  partner : Option CapRec
  capSent : Bool
  /-- T1 of the TIME request outstanding, and when the last was sent -/
  timeT1 : Option Nat
  timeLast : Nat
  /-- protocol violations of the last second -/
  violations : List Nat
  /-- RETRAIN: the width it goes to, and whether to resend afterwards -/
  toWidth : Nat
  pulses : Nat
  test : Option LinkTest
  before : PortState
  deriving DecidableEq, Repr

/-! ### Host functions and the command board (chapter 13) -/

/-- A command as submitted (R412, R413), and how far it has come. -/
structure Cmd where
  func : Nat
  slot : Nat
  opcode : Nat
  noint : Bool
  order : Bool
  flagsBad : Bool
  plen : Nat
  seq : BitVec 32
  tag : Word
  params : List Byte
  at_ : Nat
  taken : Bool
  deferred : Bool
  /-- the SEQ equals that of a command outstanding at submission (R420) -/
  dup : Bool
  /-- its function was reset: the reply is discarded (R404) -/
  silent : Bool
  /-- bytes a DMA_HOST has moved -/
  moved : Nat
  deriving DecidableEq, Repr

/-- A reply due (Table 13.7), PHASE aside. -/
structure Reply where
  slot : Nat
  status : Nat
  opcode : Nat
  deferred : Bool
  seq : BitVec 32
  tag : Word
  result : List Word
  detail : Nat
  noint : Bool
  deriving DecidableEq, Repr

/-- An event posted (Table 13.13), PHASE aside. -/
structure Event where
  code : Nat
  part : Option Nat
  seq : Nat
  time : Nat
  halves : List Nat
  deriving DecidableEq, Repr

/-- A ring in host memory: base, LOG2, EN, indices, lap. -/
structure Ring where
  base : Rwa Nat
  log2 : Rwa Nat
  en : Rwa Bool
  head : Nat
  tail : Nat
  phase : Bool
  deriving DecidableEq, Repr

def Ring.reset : Ring := ⟨.of 0, .of 10, .of false, 0, 0, true⟩

/-- An MSI-X vector under moderation (R432): raises so far, writes gathered and the time of the first. -/
structure Vector_ where
  raised : Nat
  masked : Bool
  waits : Bool
  gathered : Nat
  first : Option Nat
  deriving DecidableEq, Repr

def Vector_.reset : Vector_ := ⟨0, false, false, 0, none⟩

structure Fn where
  uver : Nat
  neg : Bool
  /-- slot bytes outside the header, by 256 × slot + byte, and headers of full slots -/
  slots : Mem
  full : Tab Word
  rr : Ring
  replies : List Reply
  /-- deferred commands that have ended and whose CMD_DONE is due (R418) -/
  dones : List Reply
  pErr : BitVec 3
  errSlot : Nat
  imodCount : Nat
  imodDelay : Nat
  lastSeq : BitVec 32
  submitted : Nat
  refused : Nat
  timeouts : Nat
  ev : Ring
  classes : Rwa Nat
  held : List Event
  lost : Nat
  /-- events discarded since the last EV_LOST, and the first one's SEQ -/
  gap : Option (Nat × Nat)
  nextSeq : Nat
  msix : Vector Vector_ 4
  /-- the last BAR0 or BAR2 read answered: its bytes, or none for a Completer Abort -/
  answer : Option (List Byte)
  deriving DecidableEq, Repr

def Fn.reset : Fn :=
  ⟨0, false, [], [], .reset, [], [], 0, 0, 0, 0, 0, 0, 0, 0, .reset, .of 0x1FF, [], 0, none, 0, Vector.replicate 4 .reset, none⟩

end Sys2Proof.Machine
end

