-- ==== Sys2Proof/Machine/BringupState.lean ====
section
/-! DEFINITION. The state of rails, readiness, pins and the test access port (`15_power_and_thermal.md` R465,
`18_bringup_test_and_physical.md`), and of the Prigar controller's last answer (`13_host_interface_and_commands.md` 13.10). -/

namespace Sys2Proof.Machine

/-- The instructions of the test access port (Table 18.4). -/
inductive TapIr where
  | bypass | idcode | sample | preload | extest | clamp | highz | extestPulse | extestTrain | hbmWir | hbmWdr | laneTest
  deriving DecidableEq, Repr

/-- Prigar's answer to a PLDM request: a completion code (0 success) and its bytes. -/
structure PldmAnswer where
  code : Nat
  data : List Byte
  deriving DecidableEq, Repr

structure Bringup where
  /-- rails of Table 15.2 in regulation, in order, and the one that failed -/
  rails : Nat
  railFail : Option Nat
  /-- HI_READY, HI_READYBLK, HI_FAILED, HI_FAILBLK -/
  ready : BitVec 30
  blocks : BitVec 49
  failed : BitVec 30
  failBlocks : BitVec 49
  /-- TEST_EN as sampled when the rail sequence completes -/
  testMode : Bool
  /-- the boot ROM has started the loader; no eligible manifest passed -/
  loader : Bool
  recovery : Bool
  /-- PERST# deasserted, the PCIe link up, in compliance -/
  perst : Bool
  link : Bool
  compliance : Bool
  /-- test access port: instruction, the data register captured last, the boundary cells preloaded, what drives the pins: 0 the module,
  1 the cells, 2 nothing -/
  ir : TapIr
  dr : List Bool
  cells : List Bool
  drive : Nat
  /-- wrapper instruction and data registers of each stack -/
  wir : Vector (List Bool) 8
  wdr : Vector (List Bool) 8
  /-- lanes whose pattern generator runs under LANE_TEST, by 4 × port + lane -/
  lanes : BitVec 64
  /-- Prigar's last answer -/
  pldm : PldmAnswer
  /-- platform event messages that Prigar has sent, oldest first (R436) -/
  alerts : List Event
  deriving DecidableEq, Repr

def Bringup.reset : Bringup where
  rails := 0
  railFail := none
  ready := 0
  blocks := 0
  failed := 0
  failBlocks := 0
  testMode := false
  loader := false
  recovery := false
  perst := false
  link := false
  compliance := false
  ir := .idcode
  dr := []
  cells := []
  drive := 0
  wir := Vector.replicate 8 []
  wdr := Vector.replicate 8 []
  lanes := 0
  pldm := ⟨0, []⟩
  alerts := []

end Sys2Proof.Machine
end

