-- ==== Sys2Proof/Machine/FaultState.lean ====
section
/-! DEFINITION. The state of the gradebook, the module log, the proctor's samples, the control cores and the tile tests
(`16_faults_and_availability.md`, `14_partitions_and_jobs.md` R457–R460). -/

namespace Sys2Proof.Machine

/-- A gradebook record (Table 16.8), with the addresses of every counted event and, for a bank, the hours in which each word
was corrected (R504). -/
structure Grade where
  state : Nat
  first : Nat
  last : Nat
  corrected : Nat
  contained : Nat
  proctor : Nat
  /-- life seconds of the counted events of the last 720 h -/
  events : List Nat
  notes : Nat
  lastAddr : Nat
  addrs : List Nat
  hours : Tab (List Nat)
  h1 : List Nat
  h2 : List Nat
  retiredAt : Nat
  retirements : Nat
  /-- what the current hour (a core's day) has seen of the counts behind the histograms: corrections, freezes, retries, trips or
  restarts; and a lane's corrected bytes -/
  tally : Nat
  tally2 : Nat
  /-- a power-fail record's cause, reading and time -/
  extra : List Nat
  deriving DecidableEq, Repr

def Grade.fresh : Grade :=
  ⟨0, 0, 0, 0, 0, 0, [], 0, 0, [], [], List.replicate 16 0, List.replicate 16 0, 0, 0, 0, 0, []⟩

/-- A class D error detected and not yet acted on: its partition, its source by gradebook class, unit and address, its time. -/
structure DErr where
  part : Nat
  cls : Nat
  unit : Nat
  addr : Nat
  time : Nat
  deriving DecidableEq, Repr

/-- How far a proctor sample has come (R497–R499). -/
inductive SampleState where
  /-- the original's tile-step runs -/
  | live
  /-- it has ended: the original's signature and instruction count -/
  | ended (sig : Word) (instret : Word)
  /-- the signatures differed: the shadow's, and the judge runs -/
  | judging (orig shadow : Word)
  deriving DecidableEq, Repr

/-- A proctor sample. -/
structure Sample where
  id : Nat
  part : Nat
  tile : Nat
  orig : Nat
  shadow : Nat
  judge : Nat
  step : Nat
  state : SampleState
  deriving DecidableEq, Repr

/-- A control core: restarting since when and why (1 memory, 2 watchdog), retired. -/
structure CtlCore where
  away : Option (Nat × Nat)
  retired : Bool
  deriving DecidableEq, Repr

/-- A test of a unit (R458–R460): KIND, UNIT, when it fell due, whether it runs and at which site, whether TEST_OVERDUE is out, and
whether it passed and its logical tile waits to move back. -/
structure UnitTest where
  kind : Nat
  unit : Nat
  due : Nat
  running : Bool
  site : Nat
  overdue : Bool
  passed : Bool
  deriving DecidableEq, Repr

structure Faults where
  /-- gradebook records by 65,536 × CLASS + UNIT, and those in service flash -/
  grade : Tab Grade
  flash : Tab Grade
  modLog : Log
  derrs : List DErr
  samples : List Sample
  nextSample : Nat
  cores : Vector CtlCore 12
  tests : List UnitTest
  /-- when each logical tile was last tested, in ns of module time (R458) -/
  tested : Tab Nat
  /-- powered seconds since manufacture at this power-on (R502) -/
  lifeBase : Nat
  powerFails : Nat
  /-- the life hour of the last fold into the histograms -/
  hourAt : Nat
  deriving DecidableEq, Repr

def Faults.reset : Faults where
  grade := []
  flash := []
  modLog := ⟨[], 0⟩
  derrs := []
  samples := []
  nextSample := 0
  cores := Vector.replicate 12 ⟨none, false⟩
  tests := []
  tested := []
  lifeBase := 0
  powerFails := 0
  hourAt := 0

end Sys2Proof.Machine
end

