-- ==== Sys2Proof/Machine/PowerState.lean ====
section
/-! DEFINITION. The state of power and thermal control (`15_power_and_thermal.md`, `18_bringup_test_and_physical.md` R544). -/

namespace Sys2Proof.Machine

/-- A droop detector and the droop fraction of its island, in 32nds (R478). -/
structure Island where
  k : Nat
  /-- it has tripped and not recovered -/
  tripped : Bool
  /-- below 8 %: every pulse is withheld -/
  severe : Bool
  deriving DecidableEq, Repr

def Island.calm : Island := ⟨0, false, false⟩

/-- A throttle notice in force for a partition (R484). -/
structure PaceNotice where
  part : Nat
  origin : Nat
  rate : Nat
  time : Nat
  deriving DecidableEq, Repr

/-- Thermal control of one compute die (R480): fraction in 32nds, when it last moved, the hold's start, the last reading. -/
structure DieHeat where
  k : Nat
  moved : Nat
  hold : Option Nat
  tj : Nat
  /-- trips in the current 1 ms window, the deepest droop in mV, the window's start, the last PW_DROOP -/
  trips : Nat
  deepest : Nat
  winStart : Nat
  posted : Option Nat
  deriving DecidableEq, Repr

def DieHeat.reset : DieHeat := ⟨0, 0, none, 0, 0, 0, 0, none⟩

structure Power where
  /-- last readings: input mV, input mW over 10 µs, energy in hundredths of a µJ and its time, coolant °C -/
  mv : Nat
  mw : Nat
  energy : Nat
  etime : Nat
  coolIn : Nat
  coolOut : Nat
  /-- a dip or surge: its first reading's time and its extreme voltage (R463) -/
  dip : Option (Nat × Nat)
  /-- a class F event that has begun: 1 out of 40–60 V, 2 out of 44–58 V for more than 100 µs (R464) -/
  failing : Option Nat
  /-- estimator: fit, runs of windows beyond and within 15 %, last calibration, coefficient scale as a fraction (R472) -/
  fit : Bool
  badRun : Nat
  goodRun : Nat
  calAt : Nat
  scaleNum : Nat
  scaleDen : Nat
  estMw : Nat
  estErr : Nat
  /-- the caps requested and the cap in force, W -/
  host : Nat
  mgmt : Nat
  inForce : Nat
  /-- cap fraction, in 32nds -/
  capK : Nat
  dies : Vector DieHeat 4
  islands : Tab Island
  /-- since when the cap or a thermal fraction has been nonzero (R482) -/
  slowSince : Option Nat
  throttled : Bool
  cause : Nat
  rate : Nat
  /-- a new rate and since when it has held -/
  newRate : Option (Nat × Nat)
  cellAt : Nat
  /-- since when the power has stood above the cap at 30/32, and whether PW_CAP_UNMET is out (R469) -/
  unmetSince : Option Nat
  unmetOut : Bool
  thresh : Rwa Nat
  notices : List PaceNotice
  droops : Nat
  throtNs : Nat
  holdNs : Nat
  unfits : Nat
  dips : Nat
  /-- when the module became throttled, and when the first die went into thermal hold -/
  throtAt : Nat
  holdAt : Nat
  /-- PW_COOLANT stands (R544) -/
  hotCoolant : Bool
  deriving DecidableEq, Repr

def Power.reset : Power where
  mv := 0
  mw := 0
  energy := 0
  etime := 0
  coolIn := 0
  coolOut := 0
  dip := none
  failing := none
  fit := true
  badRun := 0
  goodRun := 0
  calAt := 0
  scaleNum := 1
  scaleDen := 1
  estMw := 0
  estErr := 0
  host := 1100
  mgmt := 1100
  inForce := 1100
  capK := 0
  dies := Vector.replicate 4 .reset
  islands := []
  slowSince := none
  throttled := false
  cause := 0
  rate := 31
  newRate := none
  cellAt := 0
  unmetSince := none
  unmetOut := false
  thresh := .of 1000
  notices := []
  droops := 0
  throtNs := 0
  holdNs := 0
  unfits := 0
  dips := 0
  throtAt := 0
  holdAt := 0
  hotCoolant := false

end Sys2Proof.Machine
end

