-- ==== Sys2Proof/Machine/SecurityState.lean ====
section
/-! DEFINITION. The state of the security engine and the firmware store (`17_security_and_lifecycle.md`). -/

namespace Sys2Proof.Machine

/-- A manifest's state word (R516). -/
inductive StoreMark where
  | unmarked | staged | active | retired
  deriving DecidableEq, Repr

/-- A manifest in the store: its bytes (Table 17.2) and its state word. -/
structure Stored where
  raw : List Byte
  mark : StoreMark
  deriving DecidableEq, Repr

/-- One-time-programmable memory (Table 17.1). -/
structure Otp where
  /-- root key slots: the hash of the Ed25519 key, then of the ML-DSA-65 key -/
  slots : Vector (List Byte) 4
  revoked : BitVec 4
  svn : Nat
  lc : Nat
  uds : BitVec 256
  udsKill : Bool
  deriving DecidableEq, Repr

/-- The life-cycle state by its code of Table 17.8: 0 BLANK, 1 PROVISIONED, 2 DEPLOYED, 3 RETURNED, 4 RETIRED (R528). -/
def Otp.state (o : Otp) : Nat := if o.udsKill then 4 else if o.lc < 2 then o.lc else 2 + o.lc % 2

/-- Changes from DEPLOYED to RETURNED made so far. -/
def Otp.returns (o : Otp) : Nat := (o.lc - 1) / 2

/-- Debug is open (R529). -/
def Otp.debug (o : Otp) : Bool := o.state == 0 || o.state == 3

/-- Who asked for an update (R437). -/
inductive Asker where
  | host (f slot : Nat)
  | prigar
  deriving DecidableEq, Repr

/-- A live activation (R509, R510): who asked, the staged SEQ, cores already back in the new image, and whether it rolls back (with the
core that failed). -/
structure Activation where
  by_ : Asker
  seq : Nat
  done : List Nat
  rollback : Option Nat
  deriving DecidableEq, Repr

/-- A life-cycle change under way (R531). -/
structure LcChange where
  func : Nat
  slot : Nat
  old : Nat
  new : Nat
  deriving DecidableEq, Repr

/-- Errors of an SPDM response (assumption 14). -/
inductive SpdmError where
  | busy | unspecified | unexpectedRequest | invalidRequest
  deriving DecidableEq, Repr

/-- An SPDM response: what it says, its encoding aside (assumption 14). -/
inductive SpdmReply where
  | none
  /-- the version served: major, minor -/
  | version (major minor : Nat)
  /-- CERT_CAP, CHAL_CAP, MEAS_CAP with signature -/
  | capabilities (cert chal measSig : Bool)
  /-- TPM_ALG_EDDSA_ED25519 chosen, TPM_ALG_SHA_384 chosen for base and measurement hash -/
  | algorithms (ed25519 sha384 : Bool)
  /-- bytes of a chain, and how many remain -/
  | certificate (part : List Byte) (left : Nat)
  | challengeAuth (signature : List Byte)
  /-- blocks by index, and the signature when it was asked for -/
  | measurements (blocks : List (Nat × List Byte)) (signature : Option (List Byte))
  | pqSignature (signature : List Byte)
  | error (e : SpdmError)
  deriving DecidableEq, Repr

/-- One function's SPDM responder (R526): whether GET_VERSION, GET_CAPABILITIES and NEGOTIATE_ALGORITHMS have been served, the number of the
message that the last signed response covered, and the last response. -/
structure Spdm where
  stage : Nat
  signed : Option Nat
  reply : SpdmReply
  deriving DecidableEq, Repr

structure Security where
  otp : Otp
  store : List Stored
  /-- chunks in the store by their digest -/
  chunks : List (List Byte × List Byte)
  /-- the manifest in force -/
  inForce : Option (List Byte)
  bootSeq : Nat
  fallbacks : Nat
  nonce : BitVec 256
  vfails : Nat
  aliasGen : Nat
  activation : Option Activation
  change : Option LcChange
  /-- DeviceID certificates: Ed25519 and ML-DSA-65, as stored -/
  certs : List Byte
  /-- digests of each partition's job image and bound timetable -/
  imageDigest : Vector (List Byte) 8
  tableDigest : Vector (List Byte) 8
  spdm : Vector Spdm 9
  /-- SC_VERIFY_FAIL events of the boot that wait for the command board: cause and SEQ -/
  bootFails : List (Nat × Nat)
  /-- key generations given out so far (R333) -/
  keys : Nat
  deriving DecidableEq, Repr

def Security.reset : Security where
  otp := ⟨Vector.replicate 4 (List.replicate 96 0), 0, 0, 2, 0, false⟩
  store := []
  chunks := []
  inForce := none
  bootSeq := 0
  fallbacks := 0
  nonce := 0
  vfails := 0
  aliasGen := 0
  activation := none
  change := none
  certs := []
  imageDigest := Vector.replicate 8 []
  tableDigest := Vector.replicate 8 []
  spdm := Vector.replicate 9 ⟨0, none, .none⟩
  bootFails := []
  keys := 0

end Sys2Proof.Machine
end

