-- ==== Sys2Proof/Machine/State.lean ====
section
/-! DEFINITION. The whole state of the module as plain data, what stops it, and the state at module power-on. -/

namespace Sys2Proof.Machine

/-- The module. -/
structure State where
  /-- module time, ns since module power-on (R73) -/
  now : Nat
  /-- draws of random and free values so far: the model's own counter (assumption 11) -/
  draws : Nat
  /-- tiles by physical site; an unlisted site is as a wipe leaves it -/
  tiles : Tab Tile
  /-- the seating chart by logical tile; an unlisted tile is on its own site, in no partition (R273) -/
  seats : Tab Seat
  board : Board
  /-- packets in flight in the package, oldest first -/
  net : List Packet
  parts : Vector Part 8
  hbm : Hbm
  locker : Locker
  ports : Vector Port 16
  fns : Vector Fn 9
  /-- outstanding commands, in arrival order (R413) -/
  cmds : List Cmd
  /-- host memory, as the module's reads find it and its writes leave it -/
  host : Mem
  faults : Faults
  power : Power
  sec : Security
  up : Bringup
  /-- commands that wait, first in, first out -/
  pending : List Instr
  deriving DecidableEq, Repr

/-- What faults a run: nothing in this block does; each detected error is part of the state (R490). The constructor names the one thing
outside the manual's numbering, a unit that no module has; no meaning raises it, and a run never meets it (safe). -/
inductive Fault where
  | noSuchUnit (unit : String)
  deriving DecidableEq, Repr

/-- A command the model refuses. -/
inductive Refusal where
  /-- the command has no meaning yet; raised by the dispatcher alone (safe) -/
  | notModelled (mnemonic : String)
  deriving DecidableEq, Repr

def Part.reset : Part where
  state := .none
  bx := 0
  by_ := 0
  bw := 0
  bh := 0
  func := 0
  ports := 0
  slots := []
  lkBase := 0
  lkSize := 0
  count := 0
  keyWork := 0
  keyRet := 0
  lkKey := 0
  refused := false
  mm := .reset
  reg := ⟨.of 0, .of 0, 0, 0⟩
  bells := []
  onWay := []
  rels := []
  flows := []
  trees := []
  timetable := none
  imaged := false
  keep := false
  pace := false
  lastEnd := 0
  heldBell := 0
  heldEpoch := 0
  jobs := 0
  swaps := 0
  preempts := 0
  tests := 0
  dbgAddr := 0
  dbgDenied := false
  step := 0
  modIndex := 0
  modCount := 0
  tol := 0
  veto := false
  repeats := 0
  failPosted := false
  rel63 := []
  threshold := none
  discarded := 0
  unknownFlow := 0
  recessHolds := 0
  log := ⟨[], 0⟩
  ending := none
  actions := 0
  asked := none
  swapped := []
  saved := none
  proctor := ⟨.of 0x100, none, 0, 0, 0, 0, 0⟩

def Port.reset : Port where
  state := .disabled
  since := 0
  width := 0
  admitted := 0
  retired := 0
  toRetire := 0
  vmaj := 0
  vmin := 0
  owner := none
  tvalid := false
  peer := 0
  peerPort := 0
  peerValid := false
  en := .of true
  minw := .of 1
  toff := 0
  txflits := 0
  rxflits := 0
  feccorr := 0
  fecunc := 0
  crcerr := 0
  retries := 0
  discard := 0
  cstall := 0
  downs := 0
  proterr := 0
  lanecorr := Vector.replicate 4 0
  corrWin := Vector.replicate 4 0
  winStart := 0
  rxSeq := 0xFF
  nak := false
  given := Vector.replicate 4 0
  returns := Vector.replicate 4 0
  rxOpen := none
  rxCtx := []
  txSeq := 0
  retry := []
  resendAt := 0
  resends := 0
  fails := 0
  credits := Vector.replicate 4 0
  cells := []
  ctx1 := []
  ctx3 := []
  txOpen := none
  turn := 0
  share := 0
  txDue := 0
  sinceNull := 0
  wire := []
  partner := none
  capSent := false
  timeT1 := none
  timeLast := 0
  violations := []
  toWidth := 0
  pulses := 0
  test := none
  before := .disabled

/-- The module at power-on. -/
def State.reset : State where
  now := 0
  draws := 0
  tiles := []
  seats := []
  board := ⟨[], 0, [], 0⟩
  net := []
  parts := Vector.replicate 8 .reset
  hbm := ⟨[], [], [], [], [], [], Vector.replicate 8 ⟨0, 1, 0, false, false⟩⟩
  locker := ⟨[], [], [], []⟩
  ports := Vector.replicate 16 .reset
  fns := Vector.replicate 9 .reset
  cmds := []
  host := []
  faults := .reset
  power := .reset
  sec := .reset
  up := .reset
  pending := []

end Sys2Proof.Machine
end

