-- ==== Sys2Proof/Machine/Operands.lean ====
section
/-! DEFINITION. Operand forms: registers, instruction words (R39), handle entries and the places they reach (R75, R79),
checked scratchpad reads and writes (R96, R97), full bits and the access checks of R42. -/

namespace Sys2Proof.Machine

/-! ### Registers -/

/-- R37: a register's value; g0 reads zero. -/
def Core.rd (c : Core) (r : Reg) : Word := if r = 0 then 0 else c.g[r.toNat]

/-- R37, R48: a register written, readable `lat` tc after the tc `at`; a write to g0 is discarded. -/
def Core.wr (c : Core) (r : Reg) (v : Word) (readyAt : Nat) : Core :=
  if r = 0 then c else { c with g := c.g.set r.toNat v, ready := c.ready.set r.toNat readyAt }

/-- R53: whether an engine has yet to write the register. -/
def Core.isPend (c : Core) (r : Reg) : Bool := r != 0 && c.pend.getLsbD r.toNat

/-- A register marked pending, or cleared. -/
def Core.setPend (c : Core) (r : Reg) (b : Bool) : Core :=
  if r = 0 then c
  else { c with pend := if b then c.pend ||| (1#32 <<< r.toNat) else c.pend &&& ~~~(1#32 <<< r.toNat) }

/-- R37: the registers in which a job starts. -/
def Core.read2 (c : Core) (a b : Reg) : Word × Word := (c.rd a, c.rd b)

/-! ### Instruction words (R39, Table 2.1) -/

/-- Format A. -/
def wordA (func : BitVec 9) (gd gs1 gs2 : Reg) : BitVec 32 := 0x01#8 ++ gd ++ gs1 ++ gs2 ++ func
/-- Formats I, B and S: op, two registers, 14 bits. -/
def wordI (op : BitVec 8) (a b : Reg) (imm : BitVec 14) : BitVec 32 := op ++ a ++ b ++ imm
/-- Formats U and J. -/
def wordU (op : BitVec 8) (gd : Reg) (imm : BitVec 19) : BitVec 32 := op ++ gd ++ imm
/-- Format M. -/
def wordM (op : BitVec 8) (gt gs : Reg) (h : BitVec 6) (imm : BitVec 8) : BitVec 32 := op ++ gt ++ gs ++ h ++ imm
/-- Format E. -/
def wordE (op : BitVec 8) (ga gb gc : Reg) (we : Bool) (wtok : BitVec 3) (se : Bool) (stok : BitVec 3) (r0 : Bool) :
    BitVec 32 :=
  op ++ ga ++ gb ++ gc ++ BitVec.ofBool we ++ wtok ++ BitVec.ofBool se ++ stok ++ BitVec.ofBool r0

/-! ### Handles (Table 3.1) -/

def hValid (w : Word) : Bool := bit w 0
def hR (w : Word) : Bool := bit w 1
def hW (w : Word) : Bool := bit w 2
def hX (w : Word) : Bool := bit w 3
def hRmt (w : Word) : Bool := bit w 4
def hOwn (w : Word) : Bool := bit w 5
def hSkew (w : Word) : Nat := fld w 8 4
/-- Local address of the buffer's first byte. -/
def hBase (w : Word) : Nat := fld w 12 14 * 64
def hLen (w : Word) : Nat := fld w 26 21

/-- The bits Table 3.1 lists. -/
def hMask : Word := 0x00007FFFFFFFFF3F

/-- R75: the place of a local address under a bank rotation: bank·65536 + row·64 + byte. -/
def placeOf (skew a : Nat) : Nat :=
  let a := a % 1048576
  ((a / 64 + skew) % 16) * 65536 + (a / 1024) * 64 + a % 64

/-- The place of a buffer's byte. -/
def hPlace (w : Word) (off : Nat) : Nat := placeOf (hSkew w) (hBase w + off)

/-- Conditions 1 and 2 of R81. -/
def hShapeOk (w : Word) : Bool :=
  decide (hBase w + hLen w ≤ 1048576) && (hSkew w == 0 || (fld w 12 4 == 0 && hLen w % 1024 == 0))

/-- Whether two buffers share an aligned 1 KiB block of local addresses. -/
def hShareBlock (v w : Word) : Bool :=
  decide (0 < hLen v) && decide (0 < hLen w) &&
    decide (hBase v / 1024 ≤ (hBase w + hLen w - 1) / 1024) && decide (hBase w / 1024 ≤ (hBase v + hLen v - 1) / 1024)

/-- Condition 3 of R81 for entry `n` against the other entries. -/
def hSkewOk (h : Vector Word 64) (n : Nat) (w : Word) : Bool :=
  (List.range 64).all fun k =>
    k == n || !(hValid (nth h.toList k 0)) || hSkew (nth h.toList k 0) == hSkew w || !(hShareBlock w (nth h.toList k 0))

/-! ### Checked reads and writes of the scratchpad -/

/-- The physical word of a place. -/
def wordOf (p : Nat) : Nat := p / 8

/-- The number of wrong bits of a codeword mask. -/
def eccWeight (m : Nat) : Nat := popUpTo m 73

/-- What a read of the physical words `ws` finds (R96, R97): the pad afterwards, whether an uncorrectable error stopped
the read and where, and the bytes as the reader sees them. -/
structure Seen where
  pad : Pad
  bad : Option Nat
  mem : Mem
  deriving DecidableEq, Repr

/-- One stored error met by a read. -/
def Seen.meet (s : Seen) (w mask : Nat) : Seen :=
  let n := eccWeight mask
  if n == 0 then s
  else if n == 1 then
    { s with pad := { s.pad with wb := if s.pad.wb.contains w then s.pad.wb else s.pad.wb ++ [w] } }
  else if n == 2 then { s with bad := some (s.bad.getD w) }
  else
    let k := s.pad.draws
    let pad := { s.pad with draws := k + 1 }
    match (Config.eccThree k).val with
    | 0 => { s with pad := pad, bad := some (s.bad.getD w) }
    | 1 => { s with pad := { pad with wb := if pad.wb.contains w then pad.wb else pad.wb ++ [w] }
                    mem := Mem.writeN s.mem (8 * w) (leBytes 8 (Config.eccWord k).toNat) }
    | _ => { s with pad := pad
                    mem := Mem.writeN s.mem (8 * w) (leBytes 8 (leVal (Mem.readN s.mem (8 * w) 8) ^^^ (mask % 2 ^ 64))) }

/-- The rows of the words with one wrong bit among `es`, once each (R99). -/
def correctedRows (es : List (Nat × Nat)) : List Nat := ((es.filter (fun e => eccWeight e.2 == 1)).map (fun e => e.1 / 8)).eraseDups

/-- A read of physical words chosen by `sel` (R96–R100). -/
def Pad.look (p : Pad) (sel : Nat → Bool) : Seen :=
  let es := p.ecc.filter (fun e => sel e.1)
  if es.isEmpty then ⟨p, none, p.mem⟩
  else
    let s := es.foldl (fun s e => Seen.meet s e.1 e.2) ⟨p, none, p.mem⟩
    let rows := correctedRows es
    { s with pad := { s.pad with corrected := s.pad.corrected + BitVec.ofNat 64 rows.length
                                 corrWords := s.pad.corrWords ++ (es.filter (fun e => eccWeight e.2 == 1)).map (·.1) } }

/-- A whole word replaced, or the bytes of a corrected word merged: its error and its waiting write-back go (R96, R97). -/
def Pad.cleanse (p : Pad) (w : Nat) : Pad :=
  if p.ecc.isEmpty then p else { p with ecc := Tab.erase p.ecc w, wb := p.wb.filter (· != w) }

/-- The physical words that places `ps` touch, once each. -/
def wordsOf (ps : List Nat) : List Nat := (ps.map wordOf).eraseDups

/-- Bytes written at places; words wholly covered are replaced without a read (R96). Returns the pad and the word whose
merge met an uncorrectable error, if any; nothing is written then. -/
def Pad.store (p : Pad) (cells : List (Nat × Byte)) : Pad × Option Nat :=
  let ws := if p.ecc.isEmpty then [] else wordsOf (cells.map (·.1))
  let part := ws.filter (fun w => (cells.filter (fun c => wordOf c.1 == w)).length < 8)
  let s := p.look (fun w => part.contains w)
  match s.bad with
  | some w => (s.pad, some w)
  | none =>
    let q := ws.foldl Pad.cleanse s.pad
    ({ q with mem := cells.foldl (fun m c => Mem.write m c.1 c.2) s.mem }, none)

/-- The places of `n` bytes of a buffer from an offset. -/
def hPlaces (w : Word) (off n : Nat) : List Nat := (List.range n).map (fun i => hPlace w (off + i))

/-- Bytes paired with the places they go to. -/
def hCells (w : Word) (off : Nat) (bs : List Byte) : List (Nat × Byte) := (hPlaces w off bs.length).zip bs

/-- Bytes of a buffer read: the pad afterwards and the bytes, or the word with an uncorrectable error. -/
def Pad.fetch (p : Pad) (w : Word) (off n : Nat) : Pad × Except Nat (List Byte) :=
  let ps := hPlaces w off n
  if p.ecc.isEmpty then (p, .ok (ps.map (Mem.read p.mem)))
  else
    let s := p.look (fun k => (wordsOf ps).contains k)
    match s.bad with
    | some b => (s.pad, .error b)
    | none => (s.pad, .ok (ps.map (Mem.read s.mem)))

/-- A word's full bit (R85). -/
def Pad.isFull (p : Pad) (w : Nat) : Bool := Tab.get false p.full w

/-- A word's full bit set. -/
def Pad.setFull (p : Pad) (w : Nat) (b : Bool) : Pad := { p with full := Tab.set false p.full w b }

/-- R87: the whole words of written places become full; a word already full sets OVERWRITE. -/
def Pad.fillWords (p : Pad) (ps : List Nat) : Pad :=
  let whole := (wordsOf ps).filter (fun w => (ps.filter (fun q => wordOf q == w)).length == 8)
  whole.foldl (fun p w => { p.setFull w true with overwrite := p.overwrite || p.isFull w }) p

/-- An arrival counter advanced (R91). -/
def Pad.arrive (p : Pad) (c : Nat) (n : Nat) : Pad :=
  if h : c < 16 then { p with ctr := p.ctr.set c (p.ctr[c] + BitVec.ofNat 64 n) } else p

/-- What an uncorrectable error in physical word `w` asks of the module: bank, and row × 8 + word (R100, Table 16.8). -/
def padFault (w : Nat) : Act := .classD (some (w / 8192)) (w % 8192)

/-! ### The checks of R42 -/

/-- The access a core instruction makes. -/
structure Access where
  handle : BitVec 6
  off : Nat
  size : Nat
  write : Bool
  deriving DecidableEq, Repr

/-- R42: the exception an access raises, if any, in the order RIGHTS, BOUNDS, MISALIGN. -/
def Access.check (w : Word) (a : Access) : Option Nat :=
  if !(hValid w) || !(if a.write then hW w else hR w) then some 0x05
  else if hLen w < a.off + a.size then some 0x04
  else if a.off % a.size != 0 then some 0x03
  else none

/-- tc.info of MISALIGN, BOUNDS and RIGHTS (Table 2.6). -/
def Access.info (a : Access) : Word :=
  place a.off 0 20 ||| place a.handle.toNat 24 6 ||| placeB a.write 32

/-- R42: the byte offset gs + imm8 × size; gs is an unsigned 64-bit value and the sum does not wrap. -/
def accessOf (c : Core) (gs : Reg) (h : BitVec 6) (imm : BitVec 8) (size : Nat) (write : Bool) : Access :=
  ⟨h, (c.rd gs).toNat + imm.toNat * size, size, write⟩

end Sys2Proof.Machine
end

