-- ==== Sys2Proof/Machine/CoreOps.lean ====
section
/-! DEFINITION. Issue, timing, exceptions and the operations of the core instructions that touch one tile only
(`02_tile_core.md` R36–R69, `03_scratchpad.md` R85–R93). -/

namespace Sys2Proof.Machine

/-! ### Exceptions (R61–R67) -/

/-- An exception about to be raised: code, tc.info, tc.epc, source, asynchronous or not (Table 2.6). -/
structure Exn where
  code : Nat
  info : Word
  epc : BitVec 20
  source : Nat
  async : Bool
  deriving DecidableEq, Repr

/-- Table 2.6, last column: whether a handler may resume after the exception. -/
def Exn.resumable (e : Exn) : Bool :=
  decide (1 ≤ e.code) && decide (e.code ≤ 9) && (e.code != 0x08 || e.source == 0)

/-- tc.cause of an exception (Table 2.8). -/
def Exn.causeWord (e : Exn) : Word := place e.code 0 8 ||| placeB e.async 8 ||| place e.source 9 3

/-- R64: in handler mode any exception is DOUBLE, with the second exception's code in tc.info. -/
def Exn.inMode (e : Exn) (hm : Bool) : Exn :=
  if hm then { e with code := 0x0B, info := place e.code 0 8 } else e

/-- Handler entry offset: tc.evec.OFFSET × 4 (R63). -/
def handlerPc (evec : Word) : BitVec 20 := BitVec.ofNat 20 (fld evec 2 18 * 4)

/-- The entries of a queue that have not started are discarded (R66 step 2). -/
def EngQ.discard (q : EngQ) : EngQ := { q with waiting := [] }

/-- Taking an exception (R61–R66): the handler is entered, or the tile halts. Either way tc.cause, tc.info and tc.epc are
written, a wait in progress is abandoned and the core's tc passes. -/
def Tile.raise (t : Tile) (e0 : Exn) : TRes :=
  let e := e0.inMode t.core.hm
  let c := { t.core with cause := e.causeWord, info := e.info, epc := e.epc, wait := none, cycle := t.core.cycle + 1 }
  let log := Act.logExc e.causeWord e.info e.epc (BitVec.ofNat 64 t.core.cycle)
  if e.resumable && bit t.core.evec 0 then
    ⟨{ t with core := { c with hm := true, pc := handlerPc t.core.evec } }, if e.code = 0x09 then [] else [log]⟩
  else
    ⟨{ t with core := { c with run := .faulted }
              mxq := t.mxq.discard, vxq := t.vxq.discard, xcq := t.xcq.discard }, [log, .halted e.code]⟩

/-- A synchronous exception of the core at the current instruction. -/
def Tile.raiseHere (t : Tile) (code : Nat) (info : Word) : TRes := t.raise ⟨code, info, t.core.pc, 0, false⟩

/-- R119, R198, R307: an engine fault raises ENGINE with the instruction's pc and the fault code; it is asynchronous. -/
def Tile.engineFault (t : Tile) (e : Eng) (pc : BitVec 20) (code : Nat) : TRes :=
  t.raise ⟨0x0A, place pc.toNat 0 20 ||| place code 32 16, t.core.pc, e.source, true⟩

/-! ### Issue and completion -/

/-- R38: whether the instruction at an offset may be fetched. -/
def Tile.fetchable (t : Tile) (pc : BitVec 20) : Bool :=
  let h0 := t.pad.h[0]
  hValid h0 && hX h0 && decide (pc.toNat + 4 ≤ hLen h0)

/-- R49: the loop buffer after a fetch: the four code rows most recently fetched. -/
def loopFetch (rows : List Nat) (pc : BitVec 20) : List Nat :=
  ((pc.toNat / 64) :: rows.filter (· != pc.toNat / 64)).take 4

/-- An instruction that completes in the tc in which it issues: the next may issue 1 tc later. -/
def Core.finish (c : Core) : Core :=
  { c with pc := c.pc + 4, instret := c.instret + 1, cycle := c.cycle + 1 }

def Tile.finish (t : Tile) : TRes := .quiet { t with core := t.core.finish }

/-- A jump taken (R38, R49): the target's low two bits are dropped; a target that cannot be fetched raises FETCH. -/
def Tile.jump (t : Tile) (target : BitVec 20) : TRes :=
  let tgt := target &&& 0xFFFFC
  let near := t.core.loopRows.contains (tgt.toNat / 64)
  let c := { t.core with pc := tgt, instret := t.core.instret + 1, cycle := t.core.cycle + if near then 2 else 5 }
  let t' := { t with core := c }
  if t.fetchable tgt then .quiet t' else t'.raise ⟨0x02, place tgt.toNat 0 20, tgt, 0, false⟩

/-- A wait begins, with the limit then in tc.waitlimit (R58, R59, R71). -/
def Tile.hold (t : Tile) (w : WaitOn) : TRes :=
  .quiet { t with core := { t.core with wait := some ⟨w, t.core.waitlimit⟩ } }

/-- A core instruction decoded: its word, whether a reserved field is nonzero (R40), the registers it reads and writes,
and its effect once it issues. -/
structure CoreOp where
  word : BitVec 32
  bad : Tile → Bool
  reads : List Reg
  writes : List Reg
  go : Env → Tile → TRes

/-- R48: the tc in which an instruction that reads these registers issues. -/
def Core.issueAt (c : Core) (rs : List Reg) : Nat :=
  rs.foldl (fun m r => Nat.max m (c.ready[r.toNat])) c.cycle

/-- One core instruction: fetch (R38, R68), decode (R40), the hold on pending registers (R53), the interlock (R48), then
its effect. A tile that is not running, or that waits, issues nothing. -/
def CoreOp.step (op : CoreOp) (i : Instr) (env : Env) (t : Tile) : TRes :=
  if t.core.run ≠ .running || t.core.wait.isSome then .quiet t
  else if !t.fetchable t.core.pc then t.raiseHere 0x02 (place t.core.pc.toNat 0 20)
  else
    match t.pad.fetch t.pad.h[0] t.core.pc.toNat 4 with
    | (pad, .error w) => ⟨{ t with pad := pad }, [padFault w]⟩
    | (pad, .ok _) =>
      let t1 := { t with pad := pad, core := { t.core with loopRows := loopFetch t.core.loopRows t.core.pc } }
      if op.bad t1 then t1.raiseHere 0x01 (place op.word.toNat 0 32)
      else if (op.reads ++ op.writes).any t1.core.isPend then t1.hold (.result i)
      else op.go env { t1 with core := { t1.core with cycle := t1.core.issueAt op.reads } }

/-- A wait that ends after `n` tc (R72): it adds `n` to tc.waitcycles, and the next instruction may issue in the tc after
its end. -/
def Core.endWait (c : Core) (n : Nat) : Core :=
  { c with wait := none, waitcycles := c.waitcycles + BitVec.ofNat 64 n, cycle := c.cycle + n }

/-- Whether a wait of `n` tc can have ended normally under a limit: its condition became true in a tc no later than the
one in which its count reached the limit, and the wait ends in the tc after (R58–R60). -/
def limitAllows (limit : Word) (n : Nat) : Bool := decide (0 < n) && (limit == 0 || decide (n ≤ limit.toNat + 1))

/-! ### Integer operations (R43, R44) -/

/-- A register operation. -/
def opAlu (word : BitVec 32) (bad : Bool) (gd : Reg) (srcs : List Reg) (lat : Nat) (f : Core → Word) : CoreOp where
  word := word
  bad := fun _ => bad
  reads := srcs
  writes := [gd]
  go := fun _ t => Tile.finish { t with core := t.core.wr gd (f t.core) (t.core.cycle + lat) }

/-- Format A with two sources. -/
def opReg (func : BitVec 9) (lat : Nat) (f : Word → Word → Word) (gd gs1 gs2 : Reg) : CoreOp :=
  opAlu (wordA func gd gs1 gs2) false gd [gs1, gs2] lat (fun c => f (c.rd gs1) (c.rd gs2))

/-- Format A with one source; gs2 is reserved. -/
def opReg1 (func : BitVec 9) (f : Word → Word) (gd gs1 gs2 : Reg) : CoreOp :=
  opAlu (wordA func gd gs1 gs2) (gs2 != 0) gd [gs1] 1 (fun c => f (c.rd gs1))

/-- Format I. -/
def opImm (op : BitVec 8) (f : Word → BitVec 14 → Word) (gd gs1 : Reg) (imm : BitVec 14) : CoreOp :=
  opAlu (wordI op gd gs1 imm) false gd [gs1] 1 (fun c => f (c.rd gs1) imm)

/-- Format I shifts: imm14[13:6] is reserved. -/
def opShImm (op : BitVec 8) (f : Word → Nat → Word) (gd gs1 : Reg) (imm : BitVec 14) : CoreOp :=
  opAlu (wordI op gd gs1 imm) (decide (64 ≤ imm.toNat)) gd [gs1] 1 (fun c => f (c.rd gs1) imm.toNat)

def ofBool (b : Bool) : Word := if b then 1 else 0

/-- R44: signed quotient. -/
def divS (a b : Word) : Word := if b = 0 then BitVec.allOnes 64 else a.sdiv b
/-- R44: unsigned quotient. -/
def divU (a b : Word) : Word := if b = 0 then BitVec.allOnes 64 else a.udiv b
/-- R44: signed remainder, with the sign of the dividend. -/
def remS (a b : Word) : Word := if b = 0 then a else a.srem b
/-- R44: unsigned remainder. -/
def remU (a b : Word) : Word := if b = 0 then a else a.umod b
/-- High half of the signed product. -/
def mulHi (a b : Word) : Word := BitVec.ofInt 64 ((a.toInt * b.toInt) / 2 ^ 64)
/-- High half of the unsigned product. -/
def mulHiU (a b : Word) : Word := BitVec.ofNat 64 ((a.toNat * b.toNat) / 2 ^ 64)
/-- Leading zeros, 0–64. -/
def clzW (a : Word) : Word := if a = 0 then 64 else BitVec.ofNat 64 (63 - Nat.log2 a.toNat)
/-- Ones. -/
def popW (a : Word) : Word := BitVec.ofNat 64 (popUpTo a.toNat 64)

def opAdd := opReg 0x000 1 (· + ·)
def opSub := opReg 0x001 1 (· - ·)
def opAnd := opReg 0x002 1 (· &&& ·)
def opOr := opReg 0x003 1 (· ||| ·)
def opXor := opReg 0x004 1 (· ^^^ ·)
def opShl := opReg 0x005 1 (fun a b => a <<< (b.toNat % 64))
def opShr := opReg 0x006 1 (fun a b => a >>> (b.toNat % 64))
def opSra := opReg 0x007 1 (fun a b => a.sshiftRight (b.toNat % 64))
def opSlt := opReg 0x008 1 (fun a b => ofBool (a.slt b))
def opSltu := opReg 0x009 1 (fun a b => ofBool (a.ult b))
def opMin := opReg 0x00A 1 (fun a b => if b.slt a then b else a)
def opMax := opReg 0x00B 1 (fun a b => if a.slt b then b else a)
def opMinu := opReg 0x00C 1 (fun a b => if b.ult a then b else a)
def opMaxu := opReg 0x00D 1 (fun a b => if a.ult b then b else a)
def opMul := opReg 0x010 3 (· * ·)
def opMulh := opReg 0x011 3 mulHi
def opMulhu := opReg 0x012 3 mulHiU
def opDiv := opReg 0x018 34 divS
def opDivu := opReg 0x019 34 divU
def opRem := opReg 0x01A 34 remS
def opRemu := opReg 0x01B 34 remU
def opClz := opReg1 0x020 clzW
def opPopc := opReg1 0x021 popW
def opAddi := opImm 0x02 (fun a i => a + sext i)
def opAndi := opImm 0x03 (fun a i => a &&& zext i)
def opOri := opImm 0x04 (fun a i => a ||| zext i)
def opXori := opImm 0x05 (fun a i => a ^^^ zext i)
def opShli := opShImm 0x06 (fun a n => a <<< n)
def opShri := opShImm 0x07 (fun a n => a >>> n)
def opSrai := opShImm 0x08 (fun a n => a.sshiftRight n)
def opSlti := opImm 0x09 (fun a i => ofBool (a.slt (sext i)))
def opSltiu := opImm 0x0A (fun a i => ofBool (a.ult (sext i)))
def opLiu (gd : Reg) (imm : BitVec 19) : CoreOp :=
  opAlu (wordU 0x0B gd imm) false gd [] 1 (fun _ => sext imm <<< 14)

/-! ### Loads and stores (R42, R45) -/

/-- A load of `size` bytes; `f` extends the value read. -/
def opLoad (op : BitVec 8) (size : Nat) (f : Nat → Word) (gt gs : Reg) (h : BitVec 6) (imm : BitVec 8) : CoreOp where
  word := wordM op gt gs h imm
  bad := fun _ => false
  reads := [gs]
  writes := [gt]
  go := fun _ t =>
    let a := accessOf t.core gs h imm size false
    let w := t.pad.h[h.toNat]
    match a.check w with
    | some code => t.raiseHere code a.info
    | none =>
      match t.pad.fetch w a.off size with
      | (pad, .error b) => ⟨{ t with pad := pad }, [padFault b]⟩
      | (pad, .ok bs) => Tile.finish { t with pad := pad, core := t.core.wr gt (f (leVal bs)) (t.core.cycle + 4) }

/-- A store of the low `size` bytes of gt; `fill` sets the word full (ST.F). -/
def opStore (op : BitVec 8) (size : Nat) (fill : Bool) (gt gs : Reg) (h : BitVec 6) (imm : BitVec 8) : CoreOp where
  word := wordM op gt gs h imm
  bad := fun _ => false
  reads := [gt, gs]
  writes := []
  go := fun _ t =>
    let a := accessOf t.core gs h imm size true
    let w := t.pad.h[h.toNat]
    match a.check w with
    | some code => t.raiseHere code a.info
    | none =>
      match t.pad.store (hCells w a.off (leBytes size (t.core.rd gt).toNat)) with
      | (pad, some b) => ⟨{ t with pad := pad }, [padFault b]⟩
      | (pad, none) => Tile.finish { t with pad := if fill then pad.setFull (wordOf (hPlace w a.off)) true else pad }

def opLdB := opLoad 0x20 1 (fun v => sext (BitVec.ofNat 8 v))
def opLdBu := opLoad 0x21 1 (fun v => BitVec.ofNat 64 v)
def opLdH := opLoad 0x22 2 (fun v => sext (BitVec.ofNat 16 v))
def opLdHu := opLoad 0x23 2 (fun v => BitVec.ofNat 64 v)
def opLdW := opLoad 0x24 4 (fun v => sext (BitVec.ofNat 32 v))
def opLdWu := opLoad 0x25 4 (fun v => BitVec.ofNat 64 v)
def opLdD := opLoad 0x26 8 (fun v => BitVec.ofNat 64 v)
def opStB := opStore 0x28 1 false
def opStH := opStore 0x29 2 false
def opStW := opStore 0x2A 4 false
def opStD := opStore 0x2B 8 false

/-- LA: the local address BASE + a, for a valid handle (R42 with size 1; no right is needed, since nothing is accessed). -/
def opLa (gt gs : Reg) (h : BitVec 6) (imm : BitVec 8) : CoreOp where
  word := wordM 0x2C gt gs h imm
  bad := fun _ => false
  reads := [gs]
  writes := [gt]
  go := fun _ t =>
    let a := accessOf t.core gs h imm 1 false
    let w := t.pad.h[h.toNat]
    if !hValid w then t.raiseHere 0x05 a.info
    else if hLen w < a.off + 1 then t.raiseHere 0x04 a.info
    else Tile.finish { t with core := t.core.wr gt (BitVec.ofNat 64 (hBase w + a.off)) (t.core.cycle + 1) }

/-! ### Full/empty accesses (R85, R86, R89) -/

/-- The access of LD.FE or ST.EF on a ready word: the value, and the bit afterwards. -/
def Tile.feAccess (t : Tile) (load : Bool) (gt : Reg) (h : BitVec 6) (off : Nat) : TRes :=
  let w := t.pad.h[h.toNat]
  let k := wordOf (hPlace w off)
  if load then
    match t.pad.fetch w off 8 with
    | (pad, .error b) => ⟨{ t with pad := pad }, [padFault b]⟩
    | (pad, .ok bs) =>
      Tile.finish { t with pad := pad.setFull k false
                           core := t.core.wr gt (BitVec.ofNat 64 (leVal bs)) (t.core.cycle + 4) }
  else
    match t.pad.store (hCells w off (leBytes 8 (t.core.rd gt).toNat)) with
    | (pad, some b) => ⟨{ t with pad := pad }, [padFault b]⟩
    | (pad, none) => Tile.finish { t with pad := pad.setFull k true }

/-- LD.FE and ST.EF: the access when the word is in the required state, else a wait. -/
def opFe (op : BitVec 8) (load : Bool) (mk : Instr) (gt gs : Reg) (h : BitVec 6) (imm : BitVec 8) : CoreOp where
  word := wordM op gt gs h imm
  bad := fun _ => false
  reads := if load then [gs] else [gt, gs]
  writes := if load then [gt] else []
  go := fun _ t =>
    let a := accessOf t.core gs h imm 8 (!load)
    let w := t.pad.h[h.toNat]
    match a.check w with
    | some code => t.raiseHere code a.info
    | none =>
      if t.pad.isFull (wordOf (hPlace w a.off)) == load then t.feAccess load gt h a.off
      else t.hold (.fullempty mk load gt h (BitVec.ofNat 64 a.off))

def opLdFe (mk : Instr) := opFe 0x30 true mk
def opStEf (mk : Instr) := opFe 0x31 false mk
def opLdF := opLoad 0x32 8 (fun v => BitVec.ofNat 64 v)
def opStF := opStore 0x33 8 true

/-- A waiting full/empty access: its word is ready, or its handle lost VALID because the channel closed (R86, R89). -/
def Tile.feReady (t : Tile) (load : Bool) (h : BitVec 6) (off : Word) : Bool :=
  let w := t.pad.h[h.toNat]
  !hValid w || t.pad.isFull (wordOf (hPlace w off.toNat)) == load

/-- FULLEMPTY_COMPLETE (R86, R89): the access in the tc in which the word is ready, or the end with CLOSED. -/
def Tile.feComplete (t : Tile) (n : Nat) : TRes :=
  match t.core.wait with
  | some ⟨.fullempty _ load gt h off, lim⟩ =>
    if t.feReady load h off && limitAllows lim n then
      let t1 := { t with core := t.core.endWait n }
      if hValid (t.pad.h[h.toNat]) then t1.feAccess load gt h off.toNat
      else Tile.finish { t1 with pad := { t1.pad with closed := true, closedH := h } }
    else .quiet t
  | _ => .quiet t

/-! ### Branches and jumps (R41, R49) -/

/-- A conditional branch. -/
def opBranch (op : BitVec 8) (f : Word → Word → Bool) (gs1 gs2 : Reg) (off : BitVec 14) : CoreOp where
  word := wordI op gs1 gs2 off
  bad := fun _ => false
  reads := [gs1, gs2]
  writes := []
  go := fun _ t =>
    if f (t.core.rd gs1) (t.core.rd gs2) then t.jump (t.core.pc + (off.signExtend 20 <<< 2)) else t.finish

def opBeq := opBranch 0x38 (fun a b => a == b)
def opBne := opBranch 0x39 (fun a b => a != b)
def opBlt := opBranch 0x3A (fun a b => a.slt b)
def opBge := opBranch 0x3B (fun a b => !a.slt b)
def opBltu := opBranch 0x3C (fun a b => a.ult b)
def opBgeu := opBranch 0x3D (fun a b => !a.ult b)

/-- gd ← PC + 4. -/
def Tile.link (t : Tile) (gd : Reg) : Tile :=
  { t with core := t.core.wr gd ((t.core.pc + 4).setWidth 64) (t.core.cycle + 1) }

def opJal (gd : Reg) (off : BitVec 19) : CoreOp where
  word := wordU 0x3E gd off
  bad := fun _ => false
  reads := []
  writes := [gd]
  go := fun _ t => (t.link gd).jump (t.core.pc + (off.signExtend 20 <<< 2))

def opJalr (gd gs1 : Reg) (imm : BitVec 14) : CoreOp where
  word := wordI 0x3F gd gs1 imm
  bad := fun _ => false
  reads := [gs1]
  writes := [gd]
  go := fun _ t => (t.link gd).jump ((t.core.rd gs1 + (sext imm <<< 2)).setWidth 20)

/-! ### Tokens, counters, fences, halts (R54–R56, R69, R92) -/

/-- R55: a token incremented by the core (source 0), an engine or the walker; at 15 it stays and raises TOKEN_OVF. -/
def Tile.signal (t : Tile) (k : BitVec 3) (source : Nat) : TRes :=
  let v := t.core.tokens[k.toNat]
  if v = 15 then
    t.raise ⟨0x08, place k.toNat 0 3 ||| place source 4 3, t.core.pc, source, source != 0⟩
  else .quiet { t with core := { t.core with tokens := t.core.tokens.set k.toNat (v + 1) } }

/-- A token taken. -/
def Core.take (c : Core) (k : BitVec 3) : Core := { c with tokens := c.tokens.set k.toNat (c.tokens[k.toNat] - 1) }

/-- Whether a queue's head competes for a token: the engine is free and the head waits on it (R54, R55). -/
def EngQ.competes (q : EngQ) (k : BitVec 3) : Bool :=
  match q.waiting with
  | e :: _ => q.started.isEmpty && e.we && e.wtok == k
  | [] => false

/-- How many engine heads ahead of a waiter in the order MX, VX, XC, core compete for a token (R55). -/
def Tile.contenders (t : Tile) (k : BitVec 3) (rank : Nat) : Nat :=
  (if 0 < rank && t.mxq.competes k then 1 else 0) + (if 1 < rank && t.vxq.competes k then 1 else 0) +
    (if 2 < rank && t.xcq.competes k then 1 else 0)

/-- Whether a waiter of a rank (0 MX, 1 VX, 2 XC, 3 core) may take the token now (R55). -/
def Tile.mayTake (t : Tile) (k : BitVec 3) (rank : Nat) : Bool :=
  decide (t.contenders k rank < (t.core.tokens[k.toNat]).toNat)

/-- A synchronisation instruction: `gdRes`, `gsRes` say the field is reserved, `used` the bits of imm14 it uses. -/
def sysBad (gd gs : Reg) (imm : BitVec 14) (gdRes gsRes : Bool) (used : Nat) : Bool :=
  (gdRes && gd != 0) || (gsRes && gs != 0) || decide (2 ^ used ≤ imm.toNat)

def opTsig (gd gs : Reg) (imm : BitVec 14) : CoreOp where
  word := wordI 0x42 gd gs imm
  bad := fun _ => sysBad gd gs imm true true 3
  reads := []
  writes := []
  go := fun _ t =>
    let k : BitVec 3 := imm.setWidth 3
    if t.core.tokens[k.toNat] = 15 then t.signal k 0
    else (t.signal k 0).andThen Tile.finish

def opTwait (gd gs : Reg) (imm : BitVec 14) : CoreOp where
  word := wordI 0x43 gd gs imm
  bad := fun _ => sysBad gd gs imm true true 3
  reads := []
  writes := []
  go := fun _ t =>
    let k : BitVec 3 := imm.setWidth 3
    if t.mayTake k 3 then Tile.finish { t with core := t.core.take k } else t.hold (.twait k)

def opWaitc (gd gs : Reg) (imm : BitVec 14) : CoreOp where
  word := wordI 0x41 gd gs imm
  bad := fun _ => sysBad gd gs imm false false 4
  reads := [gs]
  writes := [gd]
  go := fun _ t =>
    let k : BitVec 4 := imm.setWidth 4
    let v := t.pad.ctr[k.toNat]
    if (t.core.rd gs).toNat ≤ v.toNat then Tile.finish { t with core := t.core.wr gd v (t.core.cycle + 1) }
    else t.hold (.waitc gd k (t.core.rd gs))

/-- Nothing waits or runs in a queue. -/
def EngQ.drained (q : EngQ) : Bool := q.waiting.isEmpty && q.started.isEmpty

/-- R56: what a FENCE on a queue waits for: every instruction issued so far. -/
def EngQ.mark (q : EngQ) (named : Bool) : Option Nat := if named then some q.issued else none

/-- Whether a fence mark has been passed. -/
def EngQ.passed (q : EngQ) : Option Nat → Bool
  | none => true
  | some n => decide (n ≤ q.completed)

def Tile.fencePassed (t : Tile) (mx vx xc : Option Nat) : Bool :=
  t.mxq.passed mx && t.vxq.passed vx && t.xcq.passed xc

def opFence (gd gs : Reg) (imm : BitVec 14) : CoreOp where
  word := wordI 0x44 gd gs imm
  bad := fun _ => sysBad gd gs imm true true 3
  reads := []
  writes := []
  go := fun _ t =>
    let mx := t.mxq.mark (imm.getLsbD 0)
    let vx := t.vxq.mark (imm.getLsbD 1)
    let xc := t.xcq.mark (imm.getLsbD 2)
    if t.fencePassed mx vx xc then t.finish else t.hold (.fence mx vx xc)

/-- The program ends (R69). -/
def Tile.stop (t : Tile) : TRes := ⟨{ t with core := { t.core.finish with run := .halted } }, [.haltOk]⟩

def Tile.allDrained (t : Tile) : Bool := t.mxq.drained && t.vxq.drained && t.xcq.drained

def opHalt (gd gs : Reg) (imm : BitVec 14) : CoreOp where
  word := wordI 0x45 gd gs imm
  bad := fun _ => sysBad gd gs imm true true 0
  reads := []
  writes := []
  go := fun _ t => if t.allDrained then t.stop else t.hold .halt

/-- EXC: SOFTWARE, with tc.epc at the instruction after it (Table 2.6); the EXC itself completes. -/
def opExc (gd gs : Reg) (imm : BitVec 14) : CoreOp where
  word := wordI 0x46 gd gs imm
  bad := fun _ => sysBad gd gs imm true true 14
  reads := []
  writes := []
  go := fun _ t =>
    let c := { t.core with instret := t.core.instret + 1 }
    Tile.raise { t with core := c } ⟨0x09, place imm.toNat 0 14, t.core.pc + 4, 0, false⟩

/-- ERET (R64). -/
def opEret (gd gs : Reg) (imm : BitVec 14) : CoreOp where
  word := wordI 0x47 gd gs imm
  bad := fun _ => sysBad gd gs imm true true 0
  reads := []
  writes := []
  go := fun _ t =>
    if t.core.hm then Tile.jump { t with core := { t.core with hm := false } } t.core.epc
    else t.raiseHere 0x01 (place (wordI 0x47 gd gs imm).toNat 0 32)

/-! ### Ends of waits (R58–R60) -/

def Tile.waitcComplete (t : Tile) (n : Nat) : TRes :=
  match t.core.wait with
  | some ⟨.waitc gd k target, lim⟩ =>
    let v := t.pad.ctr[k.toNat]
    if target.toNat ≤ v.toNat && limitAllows lim n then
      let c := t.core.endWait n
      Tile.finish { t with core := c.wr gd v (c.cycle + 1) }
    else .quiet t
  | _ => .quiet t

def Tile.twaitComplete (t : Tile) (n : Nat) : TRes :=
  match t.core.wait with
  | some ⟨.twait k, lim⟩ =>
    if t.mayTake k 3 && limitAllows lim n then
      Tile.finish { t with core := (t.core.endWait n).take k }
    else .quiet t
  | _ => .quiet t

def Tile.fenceComplete (t : Tile) (n : Nat) : TRes :=
  match t.core.wait with
  | some ⟨.fence mx vx xc, lim⟩ =>
    if t.fencePassed mx vx xc && limitAllows lim n then
      Tile.finish { t with core := t.core.endWait n }
    else .quiet t
  | _ => .quiet t

def Tile.haltComplete (t : Tile) (n : Nat) : TRes :=
  match t.core.wait with
  | some ⟨.halt, lim⟩ =>
    if t.allDrained && limitAllows lim n then Tile.stop { t with core := t.core.endWait n }
    else .quiet t
  | _ => .quiet t

end Sys2Proof.Machine
end

