-- ==== Sys2Proof/Machine/ScaleRec.lean ====
section
/-! DEFINITION. Conversions and their reports, scale records as words, and the close of a window
(`05_numerics.md` R144–R165). -/

namespace Sys2Proof.Machine

/-- What a conversion reports to its record (R149, R156). -/
structure Rep where
  amax : Nat
  nz : Nat
  ftz : Nat
  ovf : Nat
  nonfin : Bool
  deriving DecidableEq, Repr

def Rep.none : Rep := ⟨0, 0, 0, 0, false⟩

/-- Two reports combined (R156). -/
def Rep.add (a b : Rep) : Rep := ⟨f32MagMax a.amax b.amax, a.nz + b.nz, a.ftz + b.ftz, a.ovf + b.ovf, a.nonfin || b.nonfin⟩

/-- |v| of a finite source as an FP32 pattern. -/
def magBits (v : Num) : Nat :=
  match v with
  | .fin _ m e => (Fmt.fp32.ofNum (.fin false m e)).1
  | _ => 0

/-- The sign a source carries. -/
def srcSign (v : Num) (neg : Bool) : Bool := match v with | .nan => neg | w => w.neg

/-- One element converted into a format other than E2M1, with its report. -/
def convElem (f : Fmt) (sexp : Int) (v : Num) (neg : Bool) : Nat × Rep :=
  let c := f.convert v (srcSign v neg) sexp
  (c.1, ⟨magBits v, if c.2.nonzero then 1 else 0, if c.2.ftz then 1 else 0, if c.2.ovf then 1 else 0, c.2.nonfin⟩)

/-- A list of elements converted (the sign matters to NaN sources only). -/
def convList (f : Fmt) (sexp : Int) (vs : List (Num × Bool)) : List Nat × Rep :=
  let cs := vs.map (fun v => convElem f sexp v.1 v.2)
  (cs.map (·.1), cs.foldl (fun r c => r.add c.2) .none)

/-- A block of 32 elements converted to E2M1: scale byte, elements, report (R150, R151). -/
def convBlock (sexp : Int) (vs : List (Num × Bool)) : Nat × List Nat × Rep :=
  let fins := vs.filter (fun v => v.1.isFin)
  let nz := (fins.filter (fun v => !v.1.isZero)).length
  let amax := fins.foldl (fun a v => f32MagMax a (magBits v.1)) 0
  if vs.any (fun v => !v.1.isFin) then (0xFF, vs.map (fun _ => 0), ⟨amax, nz, 0, 0, true⟩)
  else
    let big := fins.foldl (fun (a : Nat × Int) v =>
      match v.1 with
      | .fin _ m e => if magLe a.1 a.2 m e then (m, e) else a
      | _ => a) (0, 0)
    let x : Int := if big.1 == 0 then 0 else max (-127) (min 0 (ceilLog2Sixth big.1 + big.2 - sexp))
    let c := convList .e2m1 (sexp + x) vs
    ((127 + x).toNat, c.1, c.2)

/-- R160: whether a target format has a successor on the ladder. -/
def hasSuccessor (code : Nat) : Bool := code == 2 || code == 3 || code == 4 || code == 5

/-- A report reaching a record (R156, R161, R164): the records, and FCAUSE when the report sets FATAL. -/
def Scale.report (s : Scale) (n : BitVec 6) (r : Rep) (target : Nat) : Scale × Option Nat :=
  let q := s.recs[n.toNat]
  let q' := { q with
    used := true
    amax := BitVec.ofNat 32 (f32MagMax q.amax.toNat r.amax)
    nz := satAdd 48 q.nz r.nz
    ftz := satAdd 48 q.ftz r.ftz
    ovf := satAdd 32 q.ovf r.ovf
    nonfin := q.nonfin || r.nonfin }
  let hit := q.replay && decide (0 < r.ovf)
  let cause : Option Nat :=
    if q.replay && r.nonfin then some 2 else if hit && !hasSuccessor target then some 1 else none
  ({ s with
     recs := s.recs.set n.toNat q'
     ovfpend := s.ovfpend || hit
     ovfmask := if hit then s.ovfmask ||| (1#64 <<< n.toNat) else s.ovfmask
     fatal := s.fatal || cause.isSome
     fcause := if s.fatal then s.fcause else BitVec.ofNat 2 (cause.getD s.fcause.toNat)
     frec := if s.fatal || cause.isNone then s.frec else n }, cause)

/-- A conversion's report at the tile, unless the conversion names no record (NOSCALE) or converted nothing (R149). -/
def Tile.report (t : Tile) (noscale : Bool) (n : BitVec 6) (r : Rep) (target : Nat) : TRes :=
  if noscale then .quiet t
  else
    let x := t.sr.report n r target
    ⟨{ t with sr := x.1 }, match x.2 with | some c => [.stepFail n.toNat c] | none => []⟩

/-- The scale exponent an operand names (R144): 0 under NOSCALE. -/
def Scale.exp (s : Scale) (noscale : Bool) (n : BitVec 6) : Int := if noscale then 0 else (s.recs[n.toNat]).sexp.toInt

/-! ### Records as words (Table 5.3) -/

def SRec.w0 (r : SRec) : Word :=
  place r.sexp.toNat 0 8 ||| place r.tfmt.toNat 8 4 ||| place r.home.toNat 12 4 ||| place r.hlen.toNat 16 4 |||
    place r.margin.toNat 20 4 ||| place r.cbell.toNat 24 6 ||| placeB r.auto 32 ||| placeB r.replay 33 ||| place r.qthr.toNat 48 16

/-- The eight words of a record. -/
def SRec.word (r : SRec) : Nat → Word
  | 0 => r.w0
  | 1 => place r.amax.toNat 0 32 ||| placeB r.used 32 ||| placeB r.nonfin 33
  | 2 => r.hist.setWidth 64
  | 3 => (r.hist >>> 64).setWidth 64
  | 4 => place r.nz 0 48
  | 5 => place r.ftz 0 48
  | 6 => place r.ovf 0 32 ||| place r.qz 32 16 ||| place r.qu 48 16
  | _ => r.ovfwin

/-- R155: whether a W0 may be written. -/
def w0Ok (w : Word) : Bool :=
  fld w 0 8 != 0x80 && fld w 0 8 != 0x81 && decide (fld w 8 4 ≤ 5) && decide (fld w 12 4 ≤ 5) && !outside w 0xFFFF00033FFFFFFF

/-- A record with W0 replaced. -/
def SRec.setW0 (r : SRec) (w : Word) : SRec :=
  { r with
    sexp := BitVec.ofNat 8 (fld w 0 8), tfmt := BitVec.ofNat 4 (fld w 8 4), home := BitVec.ofNat 4 (fld w 12 4)
    hlen := BitVec.ofNat 4 (fld w 16 4), margin := BitVec.ofNat 4 (fld w 20 4), cbell := BitVec.ofNat 6 (fld w 24 6)
    auto := bit w 32, replay := bit w 33, qthr := BitVec.ofNat 16 (fld w 48 16) }

/-- A record with word `k` > 0 replaced; OVFWIN is RO (R153, R155). -/
def SRec.setWord (r : SRec) (k : Nat) (w : Word) : SRec :=
  match k with
  | 1 => { r with amax := BitVec.ofNat 32 (fld w 0 32), used := bit w 32, nonfin := bit w 33 }
  | 2 => { r with hist := (r.hist >>> 64 <<< 64) ||| w.setWidth 128 }
  | 3 => { r with hist := ((r.hist.setWidth 64).setWidth 128) ||| (w.setWidth 128 <<< 64) }
  | 4 => { r with nz := fld w 0 48 }
  | 5 => { r with ftz := fld w 0 48 }
  | 6 => { r with ovf := fld w 0 32, qz := fld w 32 16, qu := fld w 48 16 }
  | _ => r

/-- A CSR.W to word `k` of the selected record (R153, R155). -/
def Tile.writeRec (t : Tile) (k : Nat) (w : Word) : Tile :=
  let n := t.sr.sel.toNat
  if k = 0 && !w0Ok w then { t with pad := { t.pad with badent := true, last := 0x3F } }
  else
    let r := t.sr.recs[t.sr.sel.toNat]
    { t with sr := { t.sr with recs := t.sr.recs.set n (if k = 0 then r.setW0 w else r.setWord k w) t.sr.sel.isLt } }

/-- A record from eight words of an image; none when W0 fails R155. -/
def SRec.ofWords (ws : List Word) : Option SRec :=
  if w0Ok (nth ws 0 0) then
    let r := (List.range 6).foldl (fun r k => r.setWord (k + 1) (nth ws (k + 1) 0)) (SRec.reset.setW0 (nth ws 0 0))
    some { r with ovfwin := nth ws 7 0 }
  else none

/-! ### The window (R157–R159, R165) -/

/-- The history byte at place `k`. -/
def SRec.histAt (r : SRec) (k : Nat) : Nat := ((r.hist >>> (8 * k)).setWidth 8).toNat

/-- R158: the scale exponent the history chooses under a format. -/
def SRec.choose (r : SRec) (tfmt : BitVec 4) : BitVec 8 :=
  let len := if r.hlen = 0 then 16 else r.hlen.toNat
  let m := (List.range len).foldl (fun a k => Nat.max a (r.histAt k)) 0
  if m = 0 then r.sexp
  else if tfmt = 0 || tfmt = 1 then 0
  else
    let F : Int := match tfmt.toNat with | 3 => 8 | 4 => 15 | 5 => 2 | _ => 15
    BitVec.ofInt 8 (max (-126) (min 127 ((m : Int) - 127 + 1 - F + r.margin.toNat)))

/-- R157: the close of one window with a use in it, and the events of R165. -/
def SRec.close (n : Nat) (r : SRec) : SRec × List Act :=
  if !r.used then (r, [])
  else
    let qz := if r.amax = 0 then satAdd 16 r.qz 1 else 0
    let qu := if r.nz < 2 * r.ftz then satAdd 16 r.qu 1 else 0
    let acts :=
      (if r.qthr ≠ 0 ∧ qz = r.qthr.toNat ∧ r.qz ≠ qz then [Act.quiet false n qz] else []) ++
      (if r.qthr ≠ 0 ∧ qu = r.qthr.toNat ∧ r.qu ≠ qu then [Act.quiet true n qu] else [])
    let h := { r with hist := (r.hist <<< 8) ||| BitVec.ofNat 128 (historyByte r.amax.toNat), qz := qz, qu := qu
                      ovfwin := if 0 < r.ovf then r.ovfwin + 1 else r.ovfwin }
    let a := if r.auto then { h with tfmt := h.home, sexp := h.choose h.home } else h
    ({ a with amax := 0, used := false, nonfin := false, nz := 0, ftz := 0, ovf := 0 }, acts)

/-- R157: the windows of a bell close at a release; each record's state at the opening of its next window is kept (R159). -/
def Scale.closeAt (s : Scale) (bell : Nat) : Scale × List Act :=
  (List.range 64).foldl (fun (x : Scale × List Act) n =>
    if h : n < 64 then
      let r := x.1.recs[n]
      if r.cbell.toNat = bell then
        let c := r.close n
        ({ x.1 with recs := x.1.recs.set n c.1, opened := x.1.opened.set n c.1 }, x.2 ++ c.2)
      else x
    else x) (s, [])

/-- R159: at a REPEAT or LOST release of bell 63 the records it closes return to their opening, but for OVFWIN. -/
def Scale.restore (s : Scale) : Scale :=
  (List.range 64).foldl (fun (x : Scale) n =>
    if h : n < 64 then
      let r := x.recs[n]
      if r.cbell.toNat = 63 then { x with recs := x.recs.set n { x.opened[n] with ovfwin := r.ovfwin } } else x
    else x) s

end Sys2Proof.Machine
end

