-- ==== Sys2Proof/Machine/Matrix.lean ====
section
/-! DEFINITION. The matrix engine (`04_matrix_engine.md`): operand and control words, start checks, loads, passes, stores,
the chained path's entry and the output signature. -/

namespace Sys2Proof.Machine

/-! ### Operand and control words (Tables 4.5, 4.6) -/

def owOff (w : Word) : Nat := fld w 0 20
def owHandle (w : Word) : BitVec 6 := BitVec.ofNat 6 (fld w 20 6)
def owStride (w : Word) : Nat := fld w 32 20
def owFmt (w : Word) : Nat := fld w 52 4
def owSrec (w : Word) : BitVec 6 := BitVec.ofNat 6 (fld w 56 6)
def owNoscale (w : Word) : Bool := bit w 62
/-- Bits [31:26] and [63] are reserved (R116). -/
def owBad (w : Word) : Bool := fld w 26 6 != 0 || bit w 63

def cwAcc (w : Word) : Nat := fld w 0 6
def cwRows (w : Word) : Nat := fld w 6 7
/-- ZERO of a compute control word, CLEAR of an accumulator control word. -/
def cwZero (w : Word) : Bool := bit w 13
def cwPlane (w : Word) : Bool := bit w 14
def cwPass (w : Word) : Bool := bit w 15

/-- Element size in bytes of a format code, FP32 to E5M2. -/
def fmtBytes : Nat → Nat
  | 0 => 4 | 1 => 2 | 2 => 2 | _ => 1

/-- The patterns of a row of elements. -/
def elems (code : Nat) : List Byte → Nat → List Nat
  | _, 0 => []
  | bs, n + 1 => leVal (bs.take (fmtBytes code)) :: elems code (bs.drop (fmtBytes code)) n

/-- Element `c` of row `i` of an FP4 group (Table 4.2). -/
def fp4At (bs : List Byte) (i c : Nat) : Nat :=
  let b := (bs.getD (32 * i + c / 2) 0).toNat
  if c % 2 = 0 then b % 16 else b / 16

/-- The E8M0 byte of element `c` of row `i` of an FP4 group. -/
def fp4Scale (bs : List Byte) (i c : Nat) : Nat := (bs.getD (1024 + 2 * i + c / 32) 0).toNat

/-- A number times 2^k. -/
def Num.scale (v : Num) (k : Int) : Num := match v with | .fin s m e => .fin s m (e + k) | w => w

/-- An E2M1 element under its block scale (R141, R151). -/
def fp4Value (x e8 : Nat) : Num := if e8 = 255 then .nan else (Fmt.e2m1.decode x).scale (e8 - 127 : Int)

/-- The value of a pattern of a format code 0–4. -/
def valueOf (code x : Nat) : Num := ((Fmt.ofCode code).getD .fp32).decode x

/-- The width classes of R112. -/
def widthClass : Nat → Nat
  | 1 => 1 | 2 => 2 | 3 => 3 | 4 => 3 | 5 => 5 | _ => 0

/-- Row size of a format (Table 4.7); none for a reserved code. -/
def rowBytes : Nat → Option Nat
  | 0 => some 128 | 1 => some 64 | 2 => some 64 | 3 => some 32 | 4 => some 32 | 5 => some 1088 | _ => none

/-- What OFFSET and STRIDE are multiples of (Table 4.7). -/
def rowAlign : Nat → Nat
  | 3 => 32 | 4 => 32 | _ => 64

/-! ### Start checks (Table 4.8) -/

/-- The seven checks of Table 4.8 in order; `noRow` marks the operations with no row size (R119). -/
def mxCheck (badctl rights noRow bounds misalign badfmt accrange noplane : Bool) : Option Nat :=
  if badctl then some 0x0107
  else if rights then some 0x0101
  else if noRow then some 0x0104
  else if bounds then some 0x0102
  else if misalign then some 0x0103
  else if badfmt then some 0x0104
  else if accrange then some 0x0105
  else if noplane then some 0x0106
  else none

/-- Bytes from OFFSET to the last byte of the last of `n` rows. -/
def rowsExtent (off stride size n : Nat) : Nat := if n = 0 then off else off + (n - 1) * stride + size

/-- The plane a word names. -/
def Mx.plane (m : Mx) (p1 : Bool) : Option Block := if p1 then m.p1 else m.p0

/-- The handle an operand word names. -/
def Tile.hOf (t : Tile) (w : Word) : Word := t.pad.h[(owHandle w).toNat]

/-- Rights a read or a write of a buffer needs. -/
def hLacks (h : Word) (write : Bool) : Bool := !hValid h || !(if write then hW h else hR h)

/-- The engine-slot conflicts of an instruction (R77). -/
def Tile.conflict (t : Tile) (n : Nat) : Tile := { t with pad := { t.pad with conflicts := t.pad.conflicts + BitVec.ofNat 64 n } }

/-! ### MX.LOAD (R107–R110) -/

/-- The rows of a load's block, converted where the formats differ, with the report. -/
def loadRows (src bfmt : Nat) (sexp : Int) (rows : List (List Byte)) : List (List Nat) × Rep :=
  if src == bfmt then (rows.map (fun bs => elems src bs 32), .none)
  else
    let sf := (Fmt.ofCode src).getD .bf16
    let tf := (Fmt.ofCode bfmt).getD .e4m3
    let cs := rows.map (fun bs => convList tf sexp ((elems src bs 32).map (fun x => (sf.decode x, signOfBits sf x))))
    (cs.map (·.1), cs.foldl (fun r c => r.add c.2) .none)

/-- The first failing check of a load. -/
def mxLoadCheck (t : Tile) (e : QEntry) : Option Nat :=
  let w := e.va
  let src := owFmt w
  let bfmt := fld e.vb 4 4
  let size := (rowBytes src).getD 0
  let n := if src = 5 then 1 else 32
  let pair := (src == bfmt && decide (1 ≤ src) && decide (src ≤ 5)) || ((src == 1 || src == 2) && (bfmt == 3 || bfmt == 4))
  mxCheck (owBad w || outside e.vb 0xF1) (hLacks (t.hOf w) false) (rowBytes src).isNone
    (decide (hLen (t.hOf w) < rowsExtent (owOff w) (owStride w) size n))
    (owOff w % rowAlign src != 0 || owStride w % rowAlign src != 0) (!pair) false false

/-- A block put into a plane. -/
def Mx.setPlane (m : Mx) (p1 : Bool) (b : Block) : Mx := if p1 then { m with p1 := some b } else { m with p0 := some b }

/-- Rows of a buffer read in order; an uncorrectable error stops the reads. -/
def Pad.fetchRows (p : Pad) (h : Word) (size : Nat) : List Nat → Pad × Except Nat (List (List Byte))
  | [] => (p, .ok [])
  | off :: offs =>
    match p.fetch h off size with
    | (p', .error w) => (p', .error w)
    | (p', .ok bs) =>
      match Pad.fetchRows p' h size offs with
      | (q, .error w) => (q, .error w)
      | (q, .ok rs) => (q, .ok (bs :: rs))

/-- The work of a load that passed its checks. -/
def mxLoadGo (t : Tile) (e : QEntry) : TRes :=
  let w := e.va
  let src := owFmt w
  let bfmt := fld e.vb 4 4
  let h := t.hOf w
  let n := if src = 5 then 1 else 32
  match t.pad.fetchRows h ((rowBytes src).getD 0) ((List.range n).map (fun i => owOff w + i * owStride w)) with
  | (pad, .error b) => ⟨{ t with pad := pad }, [padFault b]⟩
  | (pad, .ok rows) =>
    let sexp := t.sr.exp (owNoscale w) (owSrec w)
    let g := rows.headD []
    let c := loadRows src bfmt sexp rows
    let b : Block :=
      if src = 5 then
        ⟨5, sexp, (List.range 32).map (fun i => (List.range 64).map (fp4At g i)),
          (List.range 32).map (fun i => [fp4Scale g i 0, fp4Scale g i 32])⟩
      else ⟨bfmt, sexp, c.1, []⟩
    let t' := { t with pad := pad, mx := { (t.mx.setPlane (bit e.vb 0) b) with loads := t.mx.loads + 1 } }
    if src = bfmt then .quiet t' else t'.report (owNoscale w) (owSrec w) c.2 bfmt

/-! ### Passes (R111–R113, R125–R128) -/

/-- The values along row `r` of a block. -/
def Block.rowVals (b : Block) (r : Nat) : List Num :=
  let xs := nth b.cells r []
  if b.fmt = 5 then
    (List.range 64).map (fun c => fp4Value (xs.getD c 0) ((nth b.e8m0 r []).getD (c / 32) 127))
  else xs.map (valueOf b.fmt)

/-- The values down column `c` of a 32 × 32 block. -/
def Block.colVals (b : Block) (c : Nat) : List Num := b.cells.map (fun xs => valueOf b.fmt (xs.getD c 0))

/-- The products of an element. -/
def products : List Num → List Num → List Num
  | x :: xs, y :: ys => Num.mul x y :: products xs ys
  | _, _ => []

/-- One element of a pass (R113, R126, R127): the FP32 result, and whether it is infinite or NaN. -/
def passElem (stoch : Option Nat) (prev : Option (BitVec 32)) (scale : Int) (ps : List Num) : BitVec 32 :=
  let terms := (match prev with | some a => [f32 a] | none => []) ++ ps.map (fun p => p.scale scale)
  match Num.sum terms, stoch with
  | .fin s m e, some r => if m = 0 then BitVec.ofNat 32 (Fmt.fp32.pack s 0 0) else BitVec.ofNat 32 (stochRound s m e r).1
  | v, _ => BitVec.ofNat 32 (Fmt.fp32.ofNum v).1

/-- A vector of 32 values from a list. -/
def vec32 (xs : List (BitVec 32)) : Vector (BitVec 32) 32 := Vector.ofFn (fun i => nth xs i.val 0)

/-- An accumulator row's values. -/
def Mx.row (m : Mx) (j : Nat) : List (BitVec 32) := if h : j < 64 then (m.acc[j]).toList else []

/-- An accumulator row and its count written. -/
def Mx.setRow (m : Mx) (j : Nat) (xs : List (BitVec 32)) (n : Nat) : Mx :=
  if h : j < 64 then
    { m with acc := m.acc.set j (vec32 xs), acnt := m.acnt.set j (BitVec.ofNat 32 n)
             accErr := if m.accErr.isEmpty then [] else Tab.clear m.accErr (32 * j) 32 }
  else m

def Mx.count (m : Mx) (j : Nat) : Nat := if h : j < 64 then (m.acnt[j]).toNat else 0

/-- A read of an accumulator row (R134): false when an error cannot be corrected. -/
def Mx.readRow (m : Mx) (j : Nat) : Mx × Bool :=
  let es := m.accErr.filter (fun e => e.1 / 32 == j)
  if es.any (fun e => e.2 == 2) then (m, false)
  else if es.any (fun e => e.2 == 1) then ({ m with acorr := m.acorr + 1 }, true)
  else (m, true)

/-- One pass: row `j` updated from `ps`, the products of each of the 32 elements; `n` products each (R125–R128). -/
def Mx.pass (m : Mx) (step : Word) (logical j : Nat) (zero : Bool) (scale : Int) (n : Nat) (ps : List (List Num)) : Mx :=
  let before := if zero then 0 else m.count j
  let stoch := m.srk != 0 && decide (m.srk.toNat ≤ before)
  let prev := m.row j
  let out := (List.range 32).map (fun e =>
    passElem (if stoch then some (srDraw m.seed step logical before e j) else none)
      (if zero then none else some (nth prev e 0)) scale (nth ps e []))
  let m' := m.setRow j out (satAdd 32 before n)
  { m' with
    passes := m'.passes + 1
    srpasses := if stoch then m'.srpasses + 1 else m'.srpasses
    nan := m'.nan || out.any f32IsNan
    inf := m'.inf || out.any (fun x => (f32 x).isInf) }

/-- The first failing check of a compute instruction; `extent` and `misalign` differ by mode. -/
def mxComputeCheck (t : Tile) (e : QEntry) (dgradLike extent misalign : Bool) : Option Nat :=
  let w := e.va
  let blk := t.mx.plane (cwPlane e.vb)
  let badfmt :=
    widthClass (owFmt w) == 0 ||
      (match blk with | some b => widthClass b.fmt != widthClass (owFmt w) || (dgradLike && b.fmt == 5) | none => false) ||
      (dgradLike && owFmt w == 5)
  mxCheck (owBad w || outside e.vb 0xFFFF) (hLacks (t.hOf w) false) (rowBytes (owFmt w)).isNone extent misalign badfmt
    (decide (64 < cwAcc e.vb + cwRows e.vb)) blk.isNone

/-- FWD and DGRAD: the extent of the streamed operand. -/
def streamExtent (w : Word) (rows : Nat) : Nat :=
  let n := if owFmt w = 5 then ceilDiv rows 32 else rows
  rowsExtent (owOff w) (owStride w) ((rowBytes (owFmt w)).getD 0) n

/-- A compute instruction's rows, one after another, each from its streamed vector; chained rows are put aside (R129). -/
def passRows (t : Tile) (step : Word) (logical : Nat) (e : QEntry) (prods : Nat → List (List Num)) (n : Nat) (scale : Int) :
    Nat → Nat → TRes
  | 0, _ => .quiet t
  | k + 1, i =>
    let j := cwAcc e.vb + i
    let rd := if cwZero e.vb then (t.mx, true) else t.mx.readRow j
    if !rd.2 then ⟨{ t with mx := rd.1 }, [.classD none j]⟩
    else
      let m := rd.1.pass step logical j (cwZero e.vb) scale n (prods i)
      let m := if cwPass e.vb then { m with chainWait := m.chainWait ++ [⟨j, m.row j⟩] } else m
      passRows { t with mx := m } step logical e prods n scale k (i + 1)

/-- Pass period p (R123). -/
def passPeriod (fmt : Nat) : Nat := if fmt = 1 || fmt = 2 then 4 else 1

/-- The streamed rows of FWD and DGRAD as values: 64 a row for E2M1, else 32. -/
def streamVals (fmt : Nat) (groups : List (List Byte)) (i : Nat) : List Num :=
  if fmt = 5 then
    let g := nth groups (i / 32) []
    (List.range 64).map (fun c => fp4Value (fp4At g (i % 32) c) (fp4Scale g (i % 32) c))
  else (elems fmt (nth groups i []) 32).map (valueOf fmt)

/-- The passes of FWD (`col` false) or DGRAD (`col` true) after the checks. -/
def mxStreamGo (t : Tile) (step : Word) (logical : Nat) (e : QEntry) (col : Bool) : TRes :=
  let w := e.va
  let fmt := owFmt w
  let rows := cwRows e.vb
  let n := if fmt = 5 then ceilDiv rows 32 else rows
  match t.mx.plane (cwPlane e.vb) with
  | none => .quiet t
  | some b =>
    match t.pad.fetchRows (t.hOf w) ((rowBytes fmt).getD 0) ((List.range n).map (fun i => owOff w + i * owStride w)) with
    | (pad, .error x) => ⟨{ t with pad := pad }, [padFault x]⟩
    | (pad, .ok groups) =>
      let lanes := (List.range 32).map (fun k => if col then b.colVals k else b.rowVals k)
      let t1 := { t with pad := pad, mx := { t.mx with busy := t.mx.busy + BitVec.ofNat 64 (rows * passPeriod fmt) } }
      passRows t1 step logical e (fun i => lanes.map (fun ln => products ln (streamVals fmt groups i)))
        (if fmt = 5 then 64 else 32) (t.sr.exp (owNoscale w) (owSrec w) + b.sexp) rows 0

/-- R114: the first failing check of MX.WGRAD's slice. -/
def wgradMisalign (w : Word) (rows : Nat) : Bool :=
  let sz := fmtBytes (owFmt w)
  decide (64 < rows * sz) || decide (64 < owOff w % 64 + rows * sz) || owStride w % 64 != 0

/-- The passes of WGRAD: column `j` of the 32-row slice against the plane's columns. -/
def mxWgradGo (t : Tile) (step : Word) (logical : Nat) (e : QEntry) : TRes :=
  let w := e.va
  let fmt := owFmt w
  let rows := cwRows e.vb
  match t.mx.plane (cwPlane e.vb) with
  | none => .quiet t
  | some b =>
    match t.pad.fetchRows (t.hOf w) (rows * fmtBytes fmt) ((List.range 32).map (fun i => owOff w + i * owStride w)) with
    | (pad, .error x) => ⟨{ t with pad := pad }, [padFault x]⟩
    | (pad, .ok tokens) =>
      let vals := tokens.map (fun bs => (elems fmt bs rows).map (valueOf fmt))
      let lanes := (List.range 32).map b.colVals
      let t1 := { t with pad := pad, mx := { t.mx with busy := t.mx.busy + BitVec.ofNat 64 (rows * passPeriod fmt) } }
      passRows t1 step logical e (fun j => lanes.map (fun ln => products ln (vals.map (fun v => nth v j .nan))))
        32 (t.sr.exp (owNoscale w) (owSrec w) + b.sexp) rows 0

/-! ### The output stream (R129, R135) -/

/-- One byte into the CRC-64 of R135. -/
def crc64Byte (s : Word) (b : Byte) : Word :=
  (List.range 8).foldl (fun s _ => if s.getLsbD 0 then (s >>> 1) ^^^ 0xC96C5795D7870F42 else s >>> 1) (s ^^^ b.setWidth 64)

/-- A row's 128 bytes. -/
def rowFp32 (xs : List (BitVec 32)) : List Byte := xs.flatMap (fun x => leBytes 4 x.toNat)

/-- A row leaves the engine: its bytes enter the signature (R135). -/
def Mx.leave (m : Mx) (xs : List (BitVec 32)) : Mx := { m with sig := (rowFp32 xs).foldl crc64Byte m.sig }

/-- Waiting rows enter the chained path while it holds fewer than 8 (R129, R130); `fuel` bounds the rows that wait. -/
def Mx.fillChain : Nat → Mx → Mx
  | 0, m => m
  | k + 1, m =>
    match m.chainWait with
    | r :: rs =>
      if m.chain.length < 8 then
        Mx.fillChain k { (m.leave r.vals) with chain := m.chain ++ [r], chainWait := rs }
      else m
    | [] => m

/-! ### MX.STORE, MX.PASS, MX.ALOAD (R115–R119) -/

/-- The first failing check of a store, pass or accumulator load. -/
def mxStoreCheck (t : Tile) (e : QEntry) : Option Nat :=
  let w := e.va
  let size := (rowBytes (owFmt w)).getD 0
  mxCheck (owBad w || outside e.vb 0x3FFF) (hLacks (t.hOf w) true) ((rowBytes (owFmt w)).isNone || owFmt w == 5)
    (decide (hLen (t.hOf w) < rowsExtent (owOff w) (owStride w) size (cwRows e.vb)))
    (owOff w % rowAlign (owFmt w) != 0 || owStride w % rowAlign (owFmt w) != 0) false
    (decide (64 < cwAcc e.vb + cwRows e.vb)) false

def mxAloadCheck (t : Tile) (e : QEntry) : Option Nat :=
  let w := e.va
  mxCheck (owBad w || outside e.vb 0x3FFF || cwZero e.vb || fld e.vc 32 32 != 0) (hLacks (t.hOf w) false) (owFmt w != 0)
    (decide (hLen (t.hOf w) < rowsExtent (owOff w) (owStride w) 128 (cwRows e.vb)))
    (owOff w % 64 != 0 || owStride w % 64 != 0) false (decide (64 < cwAcc e.vb + cwRows e.vb)) false

def mxPassCheck (e : QEntry) : Option Nat :=
  mxCheck (outside e.vb 0x3FFF) false false false false false (decide (64 < cwAcc e.vb + cwRows e.vb)) false

/-- STORE writes row after row, reporting its conversions (R116, R118, R149). -/
def storeRows (t : Tile) (e : QEntry) : Nat → Nat → TRes
  | 0, _ => .quiet t
  | k + 1, i =>
    let w := e.va
    let j := cwAcc e.vb + i
    let rd := t.mx.readRow j
    if !rd.2 then ⟨{ t with mx := rd.1 }, [.classD none j]⟩
    else
      let xs := rd.1.row j
      let f := (Fmt.ofCode (owFmt w)).getD .fp32
      let plain := owFmt w == 0 && owNoscale w
      let c := convList f (t.sr.exp (owNoscale w) (owSrec w)) (xs.map (fun x => (f32 x, x.getLsbD 31)))
      let ys := if plain then xs.map (·.toNat) else c.1
      let bs := ys.flatMap (leBytes (fmtBytes (owFmt w)))
      match t.pad.store (hCells (t.hOf w) (owOff w + i * owStride w) bs) with
      | (pad, some b) => ⟨{ t with pad := pad, mx := rd.1 }, [padFault b]⟩
      | (pad, none) =>
        let m := rd.1.leave xs
        let m := if cwZero e.vb then m.setRow j [] 0 else m
        let t1 := { t with pad := pad, mx := m }
        (t1.report (owNoscale w) (owSrec w) c.2 (owFmt w)).andThen (fun t2 => storeRows t2 e k (i + 1))

/-- PASS sends row after row toward the chained path (R129). -/
def passOut (t : Tile) (e : QEntry) : Nat → Nat → TRes
  | 0, _ => .quiet t
  | k + 1, i =>
    let j := cwAcc e.vb + i
    let rd := t.mx.readRow j
    if !rd.2 then ⟨{ t with mx := rd.1 }, [.classD none j]⟩
    else
      let m := { rd.1 with chainWait := rd.1.chainWait ++ [⟨j, rd.1.row j⟩] }
      let m := if cwZero e.vb then m.setRow j [] 0 else m
      passOut { t with mx := m } e k (i + 1)

/-- ALOAD: each FP32 element times the record's factor, rounded once (R116). -/
def aloadElem (sexp : Int) (x : Nat) : BitVec 32 := BitVec.ofNat 32 (Fmt.fp32.ofNum ((Fmt.fp32.decode x).scale sexp)).1

def aloadRows (t : Tile) (e : QEntry) : Nat → Nat → TRes
  | 0, _ => .quiet t
  | k + 1, i =>
    let w := e.va
    match t.pad.fetch (t.hOf w) (owOff w + i * owStride w) 128 with
    | (pad, .error b) => ⟨{ t with pad := pad }, [padFault b]⟩
    | (pad, .ok bs) =>
      let src := elems 0 bs 32
      let ys := src.map (aloadElem (t.sr.exp (owNoscale w) (owSrec w)))
      let lost := (src.zip ys).any (fun p => (f32 p.2).isInf && (Fmt.fp32.decode p.1).isFin)
      let m := t.mx.setRow (cwAcc e.vb + i) ys (fld e.vc 0 32)
      aloadRows { t with pad := pad, mx := { m with inf := m.inf || lost } } e k (i + 1)

/-! ### Starting an engine instruction (R51, R54, R122) -/

def Tile.queue (t : Tile) : Eng → EngQ
  | .mx => t.mxq | .vx => t.vxq | .xc => t.xcq

def Tile.setQueue (t : Tile) (e : Eng) (q : EngQ) : Tile :=
  match e with
  | .mx => { t with mxq := q } | .vx => { t with vxq := q } | .xc => { t with xcq := q }

def Eng.rank : Eng → Nat
  | .mx => 0 | .vx => 1 | .xc => 2

/-- The head of a queue, when it is this operation and its wait token may be taken; the token is taken and the entry
freed (R51, R54). -/
def Tile.takeHead (t : Tile) (g : Eng) (op : BitVec 8) : Option (QEntry × Tile) :=
  let q := t.queue g
  match q.waiting with
  | e :: rest =>
    if e.op = op && (!e.we || t.mayTake e.wtok g.rank) then
      let t1 := t.setQueue g { q with waiting := rest }
      some (e, if e.we then { t1 with core := t1.core.take e.wtok } else t1)
    else none
  | [] => none

/-- The started instruction enters the list of those that will complete. -/
def Tile.begun (t : Tile) (g : Eng) (s : Started) : Tile :=
  let q := t.queue g
  t.setQueue g { q with started := q.started ++ [s] }

/-- The oldest started instruction completes, when it is ready: ga is written, the token signalled (R52–R54). -/
def Tile.complete (t : Tile) (g : Eng) : TRes :=
  let q := t.queue g
  match q.started with
  | s :: rest =>
    if s.ready then
      let t1 := t.setQueue g { q with started := rest, completed := q.completed + 1 }
      let t2 := match s.ret with
        | some v => { t1 with core := (t1.core.wr s.e.ga v t1.core.cycle).setPend s.e.ga false }
        | none => t1
      if s.e.se then t2.signal s.e.stok g.source else .quiet t2
    else .quiet t
  | [] => .quiet t

/-- An MX instruction at the head of its queue starts: its checks, then its work (R119–R122). With ROWS = 0 it does none and
only BADCTL can fail (R120). -/
def mxStart (t : Tile) (op : BitVec 8) (stall conf : Nat) (rowsOf : QEntry → Nat) (check : Tile → QEntry → Option Nat)
    (go : Tile → QEntry → TRes) : TRes :=
  match t.takeHead .mx op with
  | none => .quiet t
  | some (e, t1) =>
    let bad := check t1 e
    if rowsOf e = 0 && bad ≠ some 0x0107 then .quiet (t1.begun .mx ⟨e, true, none⟩)
    else
      match bad with
      | some code => t1.engineFault .mx e.pc code
      | none =>
        if t1.mx.parity then ⟨t1, [.classD none 0]⟩
        else
          let t2 := (t1.conflict conf)
          let t2 := { t2 with mx := { t2.mx with stall := t2.mx.stall + BitVec.ofNat 64 stall } }
          let r := go t2 e
          let m := r.t.mx.fillChain r.t.mx.chainWait.length
          ⟨Tile.begun { r.t with mx := m } .mx ⟨e, m.chainWait.isEmpty, none⟩, r.acts⟩

/-- Whether rows of a started instruction still wait to enter the chained path, and hold the datapath (compute) or the
store port (PASS) of R122. -/
def Tile.mxHeld (t : Tile) (storePort : Bool) : Bool :=
  !t.mx.chainWait.isEmpty &&
    (match t.mxq.started.getLast? with
     | some s => if storePort then s.e.op == 0x89 else true
     | none => false)

def Tile.mxLoad (t : Tile) (conf : Nat) : TRes := mxStart t 0x80 0 conf (fun _ => 32) mxLoadCheck mxLoadGo

def Tile.mxFwd (t : Tile) (env : Env) (step : Word) (stall conf : Nat) : TRes :=
  if t.mxHeld false then .quiet t
  else
    mxStart t 0x84 stall conf (fun e => cwRows e.vb)
      (fun t e => mxComputeCheck t e false (decide (hLen (t.hOf e.va) < streamExtent e.va (cwRows e.vb)))
        (owOff e.va % rowAlign (owFmt e.va) != 0 || owStride e.va % rowAlign (owFmt e.va) != 0))
      (fun t e => mxStreamGo t step env.logical e false)

def Tile.mxDgrad (t : Tile) (env : Env) (step : Word) (stall conf : Nat) : TRes :=
  if t.mxHeld false then .quiet t
  else
    mxStart t 0x85 stall conf (fun e => cwRows e.vb)
      (fun t e => mxComputeCheck t e true (decide (hLen (t.hOf e.va) < streamExtent e.va (cwRows e.vb)))
        (owOff e.va % rowAlign (owFmt e.va) != 0 || owStride e.va % rowAlign (owFmt e.va) != 0))
      (fun t e => mxStreamGo t step env.logical e true)

def Tile.mxWgrad (t : Tile) (env : Env) (step : Word) (stall conf : Nat) : TRes :=
  if t.mxHeld false then .quiet t
  else
    mxStart t 0x86 stall conf (fun e => cwRows e.vb)
      (fun t e => mxComputeCheck t e true
        (decide (hLen (t.hOf e.va) < rowsExtent (owOff e.va) (owStride e.va) (cwRows e.vb * fmtBytes (owFmt e.va)) 32))
        (wgradMisalign e.va (cwRows e.vb)))
      (fun t e => mxWgradGo t step env.logical e)

def Tile.mxStore (t : Tile) (conf : Nat) : TRes :=
  if t.mxHeld true then .quiet t
  else mxStart t 0x88 0 conf (fun e => cwRows e.vb) mxStoreCheck (fun t e => storeRows t e (cwRows e.vb) 0)

def Tile.mxPass (t : Tile) (conf : Nat) : TRes :=
  if !t.mx.chainWait.isEmpty then .quiet t
  else mxStart t 0x89 0 conf (fun e => cwRows e.vb) (fun _ e => mxPassCheck e) (fun t e => passOut t e (cwRows e.vb) 0)

def Tile.mxAload (t : Tile) (conf : Nat) : TRes :=
  if t.mxHeld true then .quiet t
  else mxStart t 0x8A 0 conf (fun e => cwRows e.vb) mxAloadCheck (fun t e => aloadRows t e (cwRows e.vb) 0)

end Sys2Proof.Machine
end

