-- ==== Sys2Proof/Machine/Vector.lean ====
section
/-! DEFINITION. The vector engine (`06_vector_engine.md`): streams, element programs, runs, reductions, compress and expand,
the operand cache and the exact-sum registers. -/

namespace Sys2Proof.Machine

/-! ### Stream words (Table 6.2, R175, R179) -/

def swSrc (w : Word) : Nat := fld w 26 2
def swBcast (w : Word) : Bool := bit w 28
def swEn (w : Word) : Bool := bit w 63

/-- Element size in bytes; none for a reserved code; E2M1 has half-byte elements and is handled by rows. -/
def elemBytes : Nat → Option Nat
  | 0 => some 4 | 1 => some 2 | 2 => some 2 | 3 => some 1 | 4 => some 1 | 5 => some 1
  | 6 => some 1 | 7 => some 2 | 8 => some 4 | 9 => some 1 | _ => none

/-- The integer format codes 0x6–0x9 (R175). -/
def isIntFmt (c : Nat) : Bool := decide (6 ≤ c) && decide (c ≤ 9)

/-- The limits of an integer format (R180). -/
def intLimits : Nat → Int × Int
  | 6 => (-128, 127) | 7 => (-32768, 32767) | 9 => (0, 255) | _ => (-2 ^ 31, 2 ^ 31 - 1)

/-- R180: a pattern of a format read into a lane. -/
def laneOf (code x : Nat) (sexp : Int) : BitVec 32 :=
  if isIntFmt code then
    (if code = 6 then (BitVec.ofNat 8 x).signExtend 32 else if code = 7 then (BitVec.ofNat 16 x).signExtend 32
     else BitVec.ofNat 32 x)
  else
    match (valueOf code x).scale sexp with
    | .nan => f32Nan
    | .inf s => BitVec.ofNat 32 (Fmt.fp32.infBits s)
    | .fin s m e =>
      let r := Fmt.fp32.round s m e
      if !r.2 && (Dy.add (Fmt.fp32.decode r.1).dy (Dy.neg (Num.fin s m e).dy)).m == 0 then BitVec.ofNat 32 r.1
      else Config.widenOut code x sexp

/-- R148 for an element of an FP4 group under its block scale. -/
def laneOfFp4 (x e8 : Nat) (sexp : Int) : BitVec 32 :=
  if e8 = 255 then f32Nan
  else
    match (fp4Value x e8).scale sexp with
    | .fin s m e =>
      let r := Fmt.fp32.round s m e
      if !r.2 && (Dy.add (Fmt.fp32.decode r.1).dy (Dy.neg (Num.fin s m e).dy)).m == 0 then BitVec.ofNat 32 r.1
      else Config.widenOut 5 x (sexp + e8 - 127)
    | _ => f32Nan

/-! ### Element programs (R182–R185, R188) -/

def epOp (w : BitVec 32) : Nat := (w >>> 26).toNat
def epD (w : BitVec 32) : Nat := ((w >>> 21).setWidth 5).toNat
def epA (w : BitVec 32) : Nat := ((w >>> 16).setWidth 5).toNat
def epB (w : BitVec 32) : Nat := ((w >>> 11).setWidth 5).toNat
def epC (w : BitVec 32) : Nat := ((w >>> 6).setWidth 5).toNat
def epMod (w : BitVec 32) : Nat := (w.setWidth 6).toNat

/-- Which operands an operation uses, and whether it takes MOD (Table 6.6); none for an op the table does not list. -/
structure EpUse where
  d : Bool
  a : Bool
  b : Bool
  c : Bool
  mod : Bool
  deriving DecidableEq, Repr

def epUse (op : Nat) : Option EpUse :=
  if op = 0 then none
  else if op ≤ 3 then some ⟨true, true, true, false, true⟩
  else if op = 4 then some ⟨true, true, true, true, true⟩
  else if op ≤ 9 then some ⟨true, true, true, false, true⟩
  else if op ≤ 0x10 then some ⟨true, true, false, false, true⟩
  else if op ≤ 0x12 then some ⟨true, true, false, false, false⟩
  else if op < 0x18 then none
  else if op ≤ 0x2C then some ⟨true, true, true, false, false⟩
  else if op = 0x30 then some ⟨true, true, false, false, false⟩
  else if op = 0x31 then some ⟨true, true, true, true, false⟩
  else if op = 0x32 then some ⟨true, true, true, false, false⟩
  else if op = 0x38 then some ⟨true, true, true, true, false⟩
  else if op = 0x39 then some ⟨false, true, false, false, true⟩
  else if op = 0x3A then some ⟨true, false, false, false, false⟩
  else none

/-- Table 6.4: codes that may be read, and written. -/
def epReadable (c : Nat) : Bool := decide (c ≤ 10) || (decide (16 ≤ c) && decide (c ≤ 27))
def epWritable (c : Nat) : Bool := decide (c ≤ 7) || c == 12 || c == 13

/-- R183, R188: whether a word may be loaded. -/
def epWordOk (w : BitVec 32) : Bool :=
  match epUse (epOp w) with
  | none => false
  | some u =>
    (if u.d then epWritable (epD w) else epD w == 31) && (if u.a then epReadable (epA w) else epA w == 31) &&
    (if u.b then epReadable (epB w) else epB w == 31) && (if u.c then epReadable (epC w) else epC w == 31) &&
    (if u.mod then decide (epMod w < 16) else epMod w == 0) &&
    (epOp w != 0x38 || (decide (epD w ≤ 6) && epD w % 2 == 0))

/-- MOD on an operand: ABSA before NEGA (R185). -/
def epMods (m : Nat) (a b c : BitVec 32) : BitVec 32 × BitVec 32 × BitVec 32 :=
  let a := if m.testBit 3 then a &&& 0x7FFFFFFF else a
  (if m.testBit 0 then a ^^^ 0x80000000 else a, if m.testBit 1 then b ^^^ 0x80000000 else b,
    if m.testBit 2 then c ^^^ 0x80000000 else c)

def one32 (b : Bool) : BitVec 32 := if b then 1 else 0
def satFlag (r : BitVec 32 × Bool) : BitVec 32 × VFlags := (r.1, { sat := r.2 })

/-- One element of an operation other than PERM, RADD, XADD and XRDL (Table 6.6). -/
def epScalar (op : Nat) (a b c : BitVec 32) : BitVec 32 × VFlags :=
  match op with
  | 0x01 => f32Add a b
  | 0x02 => f32Add a (b ^^^ 0x80000000)
  | 0x03 => f32Mul a b
  | 0x04 => f32Fma a b c
  | 0x05 => (f32Min a b, {})
  | 0x06 => (f32Max a b, {})
  | 0x07 => (one32 (f32Lt a b), {})
  | 0x08 => (one32 (f32Le a b), {})
  | 0x09 => (one32 (f32Eq a b), {})
  | 0x0A => f32Exp2 a
  | 0x0B => f32Log2 a
  | 0x0C => f32Rcp a
  | 0x0D => f32Rsq a
  | 0x0E => f32RoundTo .bf16 a
  | 0x0F => f32RoundTo .e4m3 a
  | 0x10 => f32RoundTo .e5m2 a
  | 0x11 => f32ToInt a
  | 0x12 => (f32OfInt a, {})
  | 0x18 => (a + b, {})
  | 0x19 => (a - b, {})
  | 0x1A => satFlag (satS32 (a.toInt + b.toInt))
  | 0x1B => satFlag (satS32 (a.toInt - b.toInt))
  | 0x1C => (a * b, {})
  | 0x1D => satFlag (satS32 (a.toInt * b.toInt))
  | 0x1E => (if b.slt a then b else a, {})
  | 0x1F => (if a.slt b then b else a, {})
  | 0x20 => satFlag (satU32 (a.toNat + b.toNat : Nat))
  | 0x21 => satFlag (satU32 ((a.toNat : Int) - b.toNat))
  | 0x22 => (if 32 ≤ b.toNat then 0 else a <<< b.toNat, {})
  | 0x23 => (if 32 ≤ b.toNat then 0 else a >>> b.toNat, {})
  | 0x24 => (a.sshiftRight (min b.toNat 32), {})
  | 0x25 => satFlag (satS32 (a.toInt * 2 ^ (min b.toNat 32)))
  | 0x26 => (a &&& b, {})
  | 0x27 => (a ||| b, {})
  | 0x28 => (a ^^^ b, {})
  | 0x29 => (a &&& ~~~b, {})
  | 0x2A => (one32 (a.slt b), {})
  | 0x2B => (one32 (a == b), {})
  | 0x2C => (one32 (a.ult b), {})
  | 0x30 => (a, {})
  | _ => (if a ≠ 0 then b else c, {})

/-- What a program works on in one vector. -/
structure PgState where
  temps : List (List (BitVec 32))
  o0 : List (BitVec 32)
  o1 : List (BitVec 32)
  flags : VFlags
  xs : List XWord
  deriving DecidableEq, Repr

/-- A temporary's first elements replaced. -/
def setTemp (ts : List (List (BitVec 32))) (k : Nat) (vs : List (BitVec 32)) : List (List (BitVec 32)) :=
  ts.set k (vs ++ (nth ts k []).drop vs.length)

/-- An operand's elements in the current vector (Table 6.4). -/
def epRead (st : PgState) (ins : List (List (BitVec 32))) (cs : List (BitVec 32)) (v rowid n : Nat) (code : Nat) :
    List (BitVec 32) :=
  if code ≤ 7 then (nth st.temps code []).take n
  else if code ≤ 10 then nth ins (code - 8) []
  else if code = 25 then (List.range n).map (BitVec.ofNat 32)
  else
    List.replicate n
      (if 16 ≤ code ∧ code ≤ 23 then nth cs (code - 16) 0
       else if code = 26 then BitVec.ofNat 32 v
       else if code = 27 then BitVec.ofNat 32 rowid
       else 0)

/-- A result written to its destination. -/
def PgState.put (st : PgState) (d : Nat) (vs : List (BitVec 32)) : PgState :=
  if d ≤ 7 then { st with temps := setTemp st.temps d vs }
  else if d = 12 then { st with o0 := vs } else { st with o1 := vs }

/-- One instruction over every element of the vector (R184, R189, R190, R195). -/
def epStep (ins : List (List (BitVec 32))) (cs : List (BitVec 32)) (v rowid n : Nat) (st : PgState) (w : BitVec 32) :
    PgState :=
  let rd := epRead st ins cs v rowid n
  let a := rd (epA w)
  let b := rd (epB w)
  let c := rd (epC w)
  if epOp w = 0x32 then
    let bad := b.any (fun i => decide (n ≤ i.toNat))
    { st.put (epD w) (b.map (fun i => if i.toNat < n then nth a i.toNat 0 else 0)) with
      flags := st.flags.or { prange := bad } }
  else if epOp w = 0x38 then
    let rs := (List.range n).map (fun k =>
      residueAdd ((nth a k 0 >>> 16).setWidth 16) ((nth b k 0).setWidth 8) (nth c k 0))
    let st1 := st.put (epD w) (rs.map (fun r => ((r.1.setWidth 32 : BitVec 32) <<< (16 : Nat))))
    { st1.put (epD w + 1) (rs.map (fun r => BitVec.ofInt 32 r.2.1)) with
      flags := rs.foldl (fun f r => f.or r.2.2) st.flags }
  else if epOp w = 0x39 then
    { st with xs := (List.range n).foldl (fun xs k =>
        xs.set (k % 16) ((nth xs (k % 16) .zero).addNum (f32 (epMods (epMod w) (nth a k 0) 0 0).1))) st.xs }
  else if epOp w = 0x3A then
    let rs := (List.range n).map (fun k => (nth st.xs (k % 16) .zero).round)
    { st.put (epD w) (rs.map (·.1)) with flags := st.flags.or { fovf := rs.any (·.2) } }
  else
    let rs := (List.range n).map (fun k =>
      let m := epMods (epMod w) (nth a k 0) (nth b k 0) (nth c k 0)
      epScalar (epOp w) m.1 m.2.1 m.2.2)
    { st.put (epD w) (rs.map (·.1)) with flags := rs.foldl (fun f r => f.or r.2) st.flags }

/-! ### Reductions (R192–R196) -/

/-- FSUM's additions set FOVF when they overflow; FINV lists no such case (Table 6.8). -/
def sumFlag (f : VFlags) : VFlags := { f with finv := false }

/-- A value added into a lane's partial; an empty partial is an identity (R193). -/
def addPartial (x y : Option (BitVec 32)) : Option (BitVec 32) × VFlags :=
  match x, y with
  | some a, some b => (some (f32Add a b).1, sumFlag (f32Add a b).2)
  | some a, none => (some a, {})
  | none, b => (b, {})

/-- One level of the tree: neighbours combined. -/
def treeLevel : List (Option (BitVec 32)) → List (Option (BitVec 32)) × VFlags
  | a :: b :: rest =>
    let r := addPartial a b
    let q := treeLevel rest
    (r.1 :: q.1, r.2.or q.2)
  | xs => (xs, {})

/-- The fixed tree over 16 partials (R193). -/
def sumTree (xs : List (Option (BitVec 32))) : BitVec 32 × VFlags :=
  let a := treeLevel xs
  let b := treeLevel a.1
  let c := treeLevel b.1
  let d := treeLevel c.1
  ((d.1.headD none).getD 0, ((a.2.or b.2).or c.2).or d.2)

/-- Elements taken into a reduction: FSUM, FMAX, FMIN, ARGMAX, ISUM (R193, R194). -/
def Red.take (red : Nat) (base : Nat) (r : Red) (vs : List (BitVec 32)) : Red × VFlags :=
  (List.range vs.length).foldl (fun (x : Red × VFlags) k =>
    let v := nth vs k 0
    match red with
    | 1 =>
      let p := addPartial (nth x.1.sums (k % 16) none) (some v)
      ({ x.1 with sums := x.1.sums.set (k % 16) p.1 }, x.2.or p.2)
    | 6 => ({ x.1 with isum := x.1.isum + v.signExtend 64 }, x.2)
    | _ =>
      if f32IsNan v then ({ x.1 with nanAt := some (x.1.nanAt.getD (base + k)) }, x.2)
      else
        match x.1.best with
        | none => ({ x.1 with best := some (v, base + k) }, x.2)
        | some b =>
          let better := if red = 3 then decide (f32Key v < f32Key b.1) else decide (f32Key b.1 < f32Key v)
          ({ x.1 with best := if better then some (v, base + k) else some b }, x.2)) (r, {})

/-- A reduction's result: the low 32 bits, the index of ARGMAX, or ISUM's sum, as ga receives it (R196). -/
def Red.result (red : Nat) (r : Red) : Word × VFlags :=
  match red with
  | 1 => let s := sumTree r.sums; (s.1.setWidth 64, s.2)
  | 6 => (r.isum, {})
  | _ =>
    let val := if r.nanAt.isSome then f32Nan else (r.best.getD (0, 0)).1
    let idx := match r.nanAt with | some i => i | none => (r.best.getD (0, 0)).2
    ((val.setWidth 64 : Word) ||| (if red = 4 then place idx 32 32 else 0), {})

/-- The combined word: the exact sum of the 16 registers (R195). -/
def combined (xs : List XWord) : XWord := xs.foldl XWord.add .zero

/-! ### Run control and checks (Tables 6.5, 6.9) -/

def rcSlot (w : Word) : Nat := fld w 0 2
def rcNvec (w : Word) : Nat := fld w 2 16
def rcTail (w : Word) : Nat := fld w 18 6
def rcRed (w : Word) : Nat := fld w 24 4
def rcRsrc (w : Word) : Nat := fld w 28 3
def rcScope (w : Word) : Bool := bit w 31
def rcXclr (w : Word) : Bool := bit w 32

/-- Elements of vector `v` of a run (R192). -/
def VRun.count (r : VRun) (v : Nat) : Nat :=
  if v + 1 = rcNvec r.ctl && rcTail r.ctl != 0 then rcTail r.ctl else r.vl

/-- Bytes of a vector of `n` elements. -/
def vecBytes (code n : Nat) : Nat := n * (elemBytes code).getD 0

/-- Bytes from OFFSET to the last byte a stream touches (R198); `one` for a per-vector result, `packed` for the packed
stream of CMPR and EXPD. -/
def streamEnd (w : Word) (vl nvec last : Nat) (one packed : Bool) : Nat :=
  let z := (elemBytes (owFmt w)).getD 0
  if nvec = 0 then 0
  else if packed then nvec * vl * z
  else if owFmt w = 5 then
    let g := (nvec - 1) / 32
    let r := (nvec - 1) % 32
    Nat.max (g * owStride w + 1026 + 2 * r) (if g = 0 then 0 else (g - 1) * owStride w + 1088)
  else if swBcast w || one then (nvec - 1) * owStride w + z
  else Nat.max ((nvec - 1) * owStride w + last * z) (if nvec = 1 then 0 else (nvec - 2) * owStride w + vl * z)

/-- A failed check: its code, and what vs.fault records. -/
structure VFault where
  code : Nat
  slot : Option Nat
  word : Nat
  atRun : Bool
  stream : Option Nat
  deriving DecidableEq, Repr

def VFault.plain (code : Nat) : VFault := ⟨code, none, 0, false, none⟩
def VFault.onStream (code k : Nat) : VFault := ⟨code, none, 0, false, some k⟩

/-- Input streams and outputs of a run, by slot, that are enabled. -/
def enabledStreams (ws : List Word) : List Nat := (List.range 5).filter (fun k => swEn (nth ws k 0))

/-- The word at which a program reads a disabled input or writes a disabled output. -/
def progBad (ws : List Word) (prog : List (BitVec 32)) : Option Nat :=
  let dis (k : Nat) := !swEn (nth ws k 0)
  prog.findIdx? (fun w =>
    match epUse (epOp w) with
    | none => true
    | some u =>
      (u.a && decide (8 ≤ epA w) && decide (epA w ≤ 10) && dis (epA w - 8)) ||
      (u.b && decide (8 ≤ epB w) && decide (epB w ≤ 10) && dis (epB w - 8)) ||
      (u.c && decide (8 ≤ epC w) && decide (epC w ≤ 10) && dis (epC w - 8)) ||
      (u.d && (epD w == 12 || epD w == 13) && dis (epD w - 9)))

/-- Whether a program writes an output. -/
def progWrites (prog : List (BitVec 32)) (d : Nat) : Bool :=
  prog.any (fun w => match epUse (epOp w) with | some u => u.d && epD w == d | none => false)

/-- R178, R179: whether an enabled stream's word breaks a rule of streams. -/
def streamBad (ws : List Word) (vl tail k : Nat) : Bool :=
  let w := nth ws k 0
  swSrc w == 3 || fld w 29 3 != 0 || (decide (3 ≤ k) && (swBcast w || swSrc w == 2)) ||
    (swSrc w == 2 && (vl != 32 || tail != 0 || outside w 0x800000000C000000 ||
      ((List.range k).any (fun j => swEn (nth ws j 0) && swSrc (nth ws j 0) == 2)))) ||
    (owFmt w == 5 && swSrc w != 2 && (vl != 64 || tail != 0 || swBcast w)) ||
    (isIntFmt (owFmt w) && (owSrec w != 0 || owNoscale w))

/-- The checks of Table 6.9 from RIGHTS on, over the enabled streams in slot order; `isOne`, `isPacked` name the streams of
R192 and R191. -/
def streamChecks (h : Word → Word) (ws : List Word) (vl nvec last : Nat) (isOne isPacked : Nat → Bool) : Option VFault :=
  let ks := (enabledStreams ws).filter (fun k => swSrc (nth ws k 0) != 2)
  let w (k : Nat) := nth ws k 0
  let known (k : Nat) := (elemBytes (owFmt (w k))).isSome
  let stop (k : Nat) := streamEnd (w k) vl nvec last (isOne k) (isPacked k)
  match ks.find? (fun k => swSrc (w k) == 0 && hLacks (h (w k)) (decide (3 ≤ k))) with
  | some k => some (.onStream 0x0201 k)
  | none =>
    if ks.any (fun k => !known k) then some (.plain 0x0204)
    else
      match ks.find? (fun k => decide ((if swSrc (w k) = 0 then hLen (h (w k)) else 8192) < owOff (w k) + stop k)) with
      | some k => some (.onStream 0x0202 k)
      | none =>
        let align (k : Nat) := if owFmt (w k) = 5 then 64 else (elemBytes (owFmt (w k))).getD 1
        match ks.find? (fun k => owOff (w k) % align k != 0 || owStride (w k) % align k != 0) with
        | some k => some (.onStream 0x0203 k)
        | none => none

/-- The first failing check of VX.RUN. -/
def vxRunCheck (t : Tile) (e : QEntry) : Option VFault :=
  let b := e.vb
  let ws := t.vx.s.toList
  let prog := nth t.vx.prog.toList (rcSlot b) []
  let last := if rcTail b = 0 then t.vx.vl else rcTail b
  if decide (2 ^ 33 ≤ b.toNat) || decide (t.vx.vl < rcTail b) || decide (6 < rcRed b) then some (.plain 0x0207)
  else if rcNvec b = 0 then none
  else
    let unwritten := (swEn (nth ws 3 0) && !progWrites prog 12) || (swEn (nth ws 4 0) && !progWrites prog 13 && !rcScope b)
    match progBad ws prog with
    | some k => some ⟨0x0206, some (rcSlot b), k, true, none⟩
    | none =>
      if unwritten then some ⟨0x0206, some (rcSlot b), prog.length - 1, true, none⟩
      else
        match (enabledStreams ws).find? (streamBad ws t.vx.vl (rcTail b)) with
        | some k => some (.onStream 0x0205 k)
        | none =>
          if rcScope b && (!swEn (nth ws 4 0) || progWrites prog 13 || owFmt (nth ws 4 0) == 5) then some (.onStream 0x0205 4)
          else
            match streamChecks t.hOf ws t.vx.vl (rcNvec b) last (fun k => k == 4 && rcScope b) (fun _ => false) with
            | some f => some f
            | none =>
              if rcScope b && rcRed b == 4 && !isIntFmt (owFmt (nth ws 4 0)) then some (.plain 0x0204) else none

/-- The first failing check of VX.CMPR (`expand` false) or VX.EXPD (R191). -/
def vxPackCheck (expand : Bool) (t : Tile) (e : QEntry) : Option VFault :=
  let b := e.vb
  let ws := t.vx.s.toList
  let last := if rcTail b = 0 then t.vx.vl else rcTail b
  let p := if expand then 0 else 3
  if outside b 0xFFFFFC || decide (t.vx.vl < rcTail b) then some (.plain 0x0207)
  else if rcNvec b = 0 then none
  else
    let need := [0, 1, 3].find? (fun k => !swEn (nth ws k 0))
    let banned := (if expand then [4] else [2, 4]).find? (fun k => swEn (nth ws k 0))
    match need, banned with
    | some k, _ => some (.onStream 0x0205 k)
    | none, some k => some (.onStream 0x0205 k)
    | none, none =>
      match (enabledStreams ws).find? (streamBad ws t.vx.vl (rcTail b)) with
      | some k => some (.onStream 0x0205 k)
      | none =>
        if owStride (nth ws p 0) != 0 || owFmt (nth ws p 0) == 5 || swSrc (nth ws p 0) == 2 || swBcast (nth ws p 0) then
          some (.onStream 0x0205 p)
        else streamChecks t.hOf ws t.vx.vl (rcNvec b) last (fun _ => false) (fun k => k == p)

/-! ### Stream accesses (R179–R181) -/

/-- Bytes of a scratchpad or cache stream. -/
def Tile.streamRead (t : Tile) (r : VRun) (k off n : Nat) : Tile × Except Nat (List Byte) :=
  let w := nth r.streams k 0
  if swSrc w = 1 then (t, .ok (Mem.readN t.vx.cache off n))
  else
    let x := t.pad.fetch (nth r.handles k 0) off n
    ({ t with pad := x.1 }, x.2)

def Tile.streamWrite (t : Tile) (r : VRun) (k off : Nat) (bs : List Byte) : Tile × Option Nat :=
  let w := nth r.streams k 0
  if swSrc w = 1 then ({ t with vx := { t.vx with cache := Mem.writeN t.vx.cache off bs } }, none)
  else
    let x := t.pad.store (hCells (nth r.handles k 0) off bs)
    ({ t with pad := x.1 }, x.2)

/-- The lane values of an input stream for a vector of `n` elements from byte `base`; a broadcast reads one element. -/
def Tile.streamIn (t : Tile) (r : VRun) (k v n : Nat) : Tile × Except Nat (List (BitVec 32)) :=
  let w := nth r.streams k 0
  let sexp := nth r.sexps k 0
  let code := owFmt w
  if code = 5 then
    let base := owOff w + v / 32 * owStride w
    let row := t.streamRead r k (base + v % 32 * 32) 32
    match row.2 with
    | .error x => (row.1, .error x)
    | .ok bs =>
      let sc := row.1.streamRead r k (base + 1024 + v % 32 * 2) 2
      match sc.2 with
      | .error x => (sc.1, .error x)
      | .ok es =>
        (sc.1, .ok ((List.range 64).map (fun c => laneOfFp4 (fp4At bs 0 c) (es.getD (c / 32) 0).toNat sexp)))
  else
    let m := if swBcast w then 1 else n
    let x := t.streamRead r k (owOff w + v * owStride w) (vecBytes code m)
    match x.2 with
    | .error y => (x.1, .error y)
    | .ok bs =>
      let z := (elemBytes code).getD 1
      let vs := (List.range m).map (fun i => laneOf code (leVal ((bs.drop (i * z)).take z)) sexp)
      (x.1, .ok (if swBcast w then List.replicate n (vs.headD 0) else vs))

/-- R180: lane values limited to an integer format; true when one was limited. -/
def intOut (code : Nat) (v : Int) : Nat × Bool :=
  let lim := intLimits code
  let c := max lim.1 (min lim.2 v)
  ((BitVec.ofInt 64 c).toNat % 2 ^ (8 * (elemBytes code).getD 1), c != v)

/-- Lane values written to an output stream at byte `off`, converted by R180; E2M1 takes whole rows. -/
def Tile.streamOut (t : Tile) (r : VRun) (k v off : Nat) (vs : List (BitVec 32)) (ints : List Int) : TRes × Option Nat :=
  let w := nth r.streams k 0
  let sexp := nth r.sexps k 0
  let code := owFmt w
  if isIntFmt code then
    let xs := ints.map (intOut code)
    let y := t.streamWrite r k off (xs.flatMap (fun x => leBytes ((elemBytes code).getD 1) x.1))
    (.quiet { y.1 with vx := { y.1.vx with sat := y.1.vx.sat || xs.any (·.2) } }, y.2)
  else if code = 5 then
    let base := owOff w + v / 32 * owStride w
    let src := vs.map (fun x => (f32 x, x.getLsbD 31))
    let lo := convBlock sexp (src.take 32)
    let hi := convBlock sexp (src.drop 32)
    let ns := lo.2.1 ++ hi.2.1
    let row := (List.range 32).map (fun c => BitVec.ofNat 8 (nth ns (2 * c) 0 + 16 * nth ns (2 * c + 1) 0))
    let a := t.streamWrite r k (base + v % 32 * 32) row
    match a.2 with
    | some x => (.quiet a.1, some x)
    | none =>
      let b := a.1.streamWrite r k (base + 1024 + v % 32 * 2) [BitVec.ofNat 8 lo.1, BitVec.ofNat 8 hi.1]
      match b.2 with
      | some x => (.quiet b.1, some x)
      | none => (b.1.report (owNoscale w) (owSrec w) (lo.2.2.add hi.2.2) 5, none)
  else if code = 0 && owNoscale w then
    let y := t.streamWrite r k off (vs.flatMap (fun x => leBytes 4 x.toNat))
    (.quiet y.1, y.2)
  else
    let c := convList ((Fmt.ofCode code).getD .fp32) sexp (vs.map (fun x => (f32 x, x.getLsbD 31)))
    let y := t.streamWrite r k off (c.1.flatMap (leBytes ((elemBytes code).getD 1)))
    match y.2 with
    | some x => (.quiet y.1, some x)
    | none => (y.1.report (owNoscale w) (owSrec w) c.2 code, none)

/-! ### A run, vector by vector -/

/-- The sticky flags of a step of work (R187). -/
def Vx.stick (x : Vx) (f : VFlags) : Vx :=
  { x with prange := x.prange || f.prange, sat := x.sat || f.sat, fovf := x.fovf || f.fovf, finv := x.finv || f.finv
           fdz := x.fdz || f.fdz }

/-- Which input stream is the chained path, if any. -/
def VRun.chained (r : VRun) : Bool := (List.range 3).any (fun k => swEn (nth r.streams k 0) && swSrc (nth r.streams k 0) == 2)

/-- The inputs of one vector in slot order; `row` is the chained row taken for it. -/
def Tile.inputs (t : Tile) (r : VRun) (v n : Nat) (row : List (BitVec 32)) :
    Nat → Nat → Tile × Except Nat (List (List (BitVec 32)))
  | 0, _ => (t, .ok [])
  | f + 1, k =>
    let w := nth r.streams k 0
    let x : Tile × Except Nat (List (BitVec 32)) :=
      if !swEn w then (t, .ok []) else if swSrc w = 2 then (t, .ok row)
      else if r.kind = 2 && k = 0 then (t, .ok []) else t.streamIn r k v n
    match x.2 with
    | .error e => (x.1, .error e)
    | .ok vs =>
      let y := Tile.inputs x.1 r v n row f (k + 1)
      match y.2 with
      | .error e => (y.1, .error e)
      | .ok rest => (y.1, .ok (vs :: rest))

/-- The instruction's run ended: the tile, its result for ga, and a word whose error stopped it. -/
structure VecRes where
  r : TRes
  run : VRun
  bad : Option Nat
  deriving DecidableEq, Repr

/-- Signed reading of lane values. -/
def asInts (vs : List (BitVec 32)) : List Int := vs.map BitVec.toInt

/-- VX.RUN over one vector: inputs, program, reduction, outputs o0 before o1 (R181, R184, R193). -/
def runVector (t : Tile) (r : VRun) (row : ChainRow) : VecRes :=
  let v := r.v
  let n := r.count v
  let inp := t.inputs r v n row.vals 3 0
  match inp.2 with
  | .error e => ⟨.quiet inp.1, r, some e⟩
  | .ok ins =>
    let t1 := inp.1
    let st := r.prog.foldl (epStep ins t1.vx.c.toList v row.acc n) ⟨r.temps, [], [], {}, t1.vx.xs.toList⟩
    let red := rcRed r.ctl
    let src := (nth st.temps (rcRsrc r.ctl) []).take n
    let fresh := if rcScope r.ctl then Red.empty else r.red
    let tk := if red = 0 || red = 5 then (fresh, ({} : VFlags)) else fresh.take red (if rcScope r.ctl then 0 else v * r.vl) src
    let xs := if red = 5 && !rcScope r.ctl then
        (List.range n).foldl (fun xs k => xs.set (k % 16) ((nth xs (k % 16) .zero).addNum (f32 (nth src k 0)))) st.xs
      else st.xs
    let vec := if red = 5 then (src.foldl (fun (x : XWord) y => x.addNum (f32 y)) .zero).round else (0, false)
    let res := if red = 5 then (vec.1.setWidth 64, ({ fovf := vec.2 } : VFlags)) else tk.1.result red
    let fl := (st.flags.or tk.2).or (if rcScope r.ctl && red != 0 then res.2 else {})
    let vx := { (t1.vx.stick fl) with xs := Vector.ofFn (fun i => nth xs i.val .zero), elems := t1.vx.elems + BitVec.ofNat 64 n
                                      busy := t1.vx.busy + BitVec.ofNat 64 (ceilDiv n 16 * Nat.max r.prog.length 1) }
    let t2 := { t1 with vx := vx }
    let r1 := { r with v := v + 1, temps := st.temps, red := tk.1 }
    let off (k : Nat) := owOff (nth r.streams k 0) + v * owStride (nth r.streams k 0)
    let w0 : TRes × Option Nat :=
      if swEn (nth r.streams 3 0) then t2.streamOut r 3 v (off 3) st.o0 (asInts st.o0) else (.quiet t2, none)
    match w0.2 with
    | some e => ⟨w0.1, r1, some e⟩
    | none =>
      let w1 : TRes × Option Nat :=
        if rcScope r.ctl then
          if red = 0 then (.quiet w0.1.t, none)
          else
            let ints : List Int :=
              if red = 4 then [((res.1 >>> 32).toNat : Int)] else if red = 6 then [res.1.toInt] else [(res.1.setWidth 32).toInt]
            let val : BitVec 32 := res.1.setWidth 32
            w0.1.t.streamOut r 4 v (off 4) [val] ints
        else if swEn (nth r.streams 4 0) then w0.1.t.streamOut r 4 v (off 4) st.o1 (asInts st.o1)
        else (.quiet w0.1.t, none)
      ⟨⟨w1.1.t, w0.1.acts ++ w1.1.acts⟩, r1, w1.2⟩

/-- VX.CMPR over one vector (R191). -/
def packVector (t : Tile) (r : VRun) (row : ChainRow) : VecRes :=
  let v := r.v
  let n := r.count v
  let inp := t.inputs r v n row.vals 2 0
  match inp.2 with
  | .error e => ⟨.quiet inp.1, r, some e⟩
  | .ok ins =>
    let act := (List.range n).filter (fun k => nth (nth ins 1 []) k 0 != 0)
    let vs := act.map (fun k => nth (nth ins 0 []) k 0)
    let z := (elemBytes (owFmt (nth r.streams 3 0))).getD 1
    let t2 := { inp.1 with vx := { inp.1.vx with elems := inp.1.vx.elems + BitVec.ofNat 64 n
                                                 busy := inp.1.vx.busy + BitVec.ofNat 64 (ceilDiv n 16) } }
    let r1 := { r with v := v + 1, packed := r.packed + vs.length }
    if vs.isEmpty then ⟨.quiet t2, r1, none⟩
    else
      let w := t2.streamOut r 3 0 (owOff (nth r.streams 3 0) + r.packed * z) vs (asInts vs)
      ⟨w.1, r1, w.2⟩

/-- VX.EXPD over one vector (R191). -/
def expandVector (t : Tile) (r : VRun) (row : ChainRow) : VecRes :=
  let v := r.v
  let n := r.count v
  let inp := t.inputs r v n row.vals 3 0
  match inp.2 with
  | .error e => ⟨.quiet inp.1, r, some e⟩
  | .ok ins =>
    let act (k : Nat) := nth (nth ins 1 []) k 0 != 0
    let cnt := ((List.range n).filter act).length
    let w0 := nth r.streams 0 0
    let z := (elemBytes (owFmt w0)).getD 1
    let pk := inp.1.streamRead r 0 (owOff w0 + r.packed * z) (cnt * z)
    match pk.2 with
    | .error e => ⟨.quiet pk.1, r, some e⟩
    | .ok bs =>
      let rank (k : Nat) := ((List.range k).filter act).length
      let out := (List.range n).map (fun k =>
        if act k then laneOf (owFmt w0) (leVal ((bs.drop (rank k * z)).take z)) (nth r.sexps 0 0)
        else nth (nth ins 2 []) k 0)
      let t2 := { pk.1 with vx := { pk.1.vx with elems := pk.1.vx.elems + BitVec.ofNat 64 n
                                                 busy := pk.1.vx.busy + BitVec.ofNat 64 (ceilDiv n 16) } }
      let r1 := { r with v := v + 1, packed := r.packed + cnt }
      let w3 := nth r.streams 3 0
      let w := t2.streamOut r 3 v (owOff w3 + v * owStride w3) out (asInts out)
      ⟨w.1, r1, w.2⟩

def vectorStep (t : Tile) (r : VRun) (row : ChainRow) : VecRes :=
  if r.kind = 0 then runVector t r row else if r.kind = 1 then packVector t r row else expandVector t r row

/-- The result of a finished run for ga (R191, R196). -/
def runResult (t : Tile) (r : VRun) : Word × VFlags :=
  if r.kind ≠ 0 then (BitVec.ofNat 64 r.packed, {})
  else if rcScope r.ctl || rcRed r.ctl = 0 || rcNvec r.ctl = 0 then (0, {})
  else if rcRed r.ctl = 5 then
    let x := (combined t.vx.xs.toList).round
    (x.1.setWidth 64, { fovf := x.2 })
  else r.red.result (rcRed r.ctl)

/-- The run in progress ends: its instruction is ready with its result. -/
def Tile.endRun (t : Tile) (r : VRun) : Tile :=
  let x := runResult t r
  { t with vx := { (t.vx.stick x.2) with run := none }
           vxq := { t.vxq with started := t.vxq.started.map (fun s => { s with ready := true, ret := some x.1 }) } }

/-- The run goes on: vectors are processed while their inputs are there; a chained vector takes a row from the path, and
waiting rows move up (R129, R130, R179). `fuel` bounds the vectors. -/
def Tile.pump : Nat → Tile → TRes
  | 0, t => .quiet t
  | k + 1, t =>
    match t.vx.run with
    | none => .quiet t
    | some r =>
      if rcNvec r.ctl ≤ r.v then .quiet (t.endRun r)
      else
        let go (t : Tile) (row : ChainRow) : TRes :=
          let x := vectorStep t r row
          match x.bad with
          | some w => ⟨{ x.r.t with vx := { x.r.t.vx with run := none } }, x.r.acts ++ [padFault w]⟩
          | none => (TRes.mk { x.r.t with vx := { x.r.t.vx with run := some x.run } } x.r.acts).andThen (Tile.pump k)
        if r.chained then
          match t.mx.chain with
          | [] => .quiet t
          | row :: rows =>
            let m := { t.mx with chain := rows }
            go { t with mx := m.fillChain m.chainWait.length } row
        else go t ⟨0, []⟩

/-- Vectors a run may still take. -/
def Tile.pumpFuel (t : Tile) : Nat := match t.vx.run with | some r => rcNvec r.ctl + 1 - r.v | none => 0

/-- The engines go on after rows entered the chained path; MX instructions whose rows have all entered become ready. -/
def Tile.settle (t : Tile) : TRes :=
  let r := t.pump t.pumpFuel
  if r.t.mx.chainWait.isEmpty then
    { r with t := { r.t with mxq := { r.t.mxq with started := r.t.mxq.started.map (fun s => { s with ready := true }) } } }
  else r

/-! ### Starts (R176, R177, R198, R199) -/

/-- vs.fault after a failed check (R201). -/
def Vx.record (x : Vx) (f : VFault) : Vx :=
  { x with
    faultSlot := match f.slot with | some k => BitVec.ofNat 2 k | none => x.faultSlot
    faultWord := match f.slot with | some _ => BitVec.ofNat 5 f.word | none => x.faultWord
    faultAtRun := match f.slot with | some _ => f.atRun | none => x.faultAtRun
    faultStream := match f.stream with | some k => BitVec.ofNat 3 k | none => x.faultStream }

/-- A VX instruction at the head of its queue starts; one runs at a time (R177). -/
def vxStart (t : Tile) (op : BitVec 8) (stall conf : Nat) (check : Tile → QEntry → Option VFault) (go : Tile → QEntry → TRes) :
    TRes :=
  if !t.vxq.started.isEmpty then .quiet t
  else
    match t.takeHead .vx op with
    | none => .quiet t
    | some (e, t1) =>
      match check t1 e with
      | some f => Tile.engineFault { t1 with vx := t1.vx.record f } .vx e.pc f.code
      | none =>
        if t1.mx.parity then ⟨t1, [.classD none 0]⟩
        else
          let t2 := t1.conflict conf
          go { t2 with vx := { t2.vx with stall := t2.vx.stall + BitVec.ofNat 64 stall } } e

/-- The instruction is done but for its completion, with a value for ga if it returns one. -/
def Tile.vxDone (t : Tile) (e : QEntry) (ret : Option Word) : TRes := .quiet (t.begun .vx ⟨e, true, ret⟩)

/-- R176: an operand word that names only HANDLE and OFFSET. -/
def plainOperand (w : Word) : Bool := !outside w 0x3FFFFFF

def Tile.vxSetvl (t : Tile) : TRes :=
  vxStart t 0xA0 0 0 (fun _ _ => none) (fun t e =>
    let n := e.vb.toNat
    let vl := if n = 0 then 1 else Nat.min n 64
    Tile.vxDone { t with vx := { t.vx with vl := vl, vlzero := t.vx.vlzero || n == 0 } } e (some (BitVec.ofNat 64 vl)))

def Tile.vxConst (t : Tile) : TRes :=
  vxStart t 0xA2 0 0 (fun _ e => if 8 ≤ e.vb.toNat then some (.plain 0x0207) else none) (fun t e =>
    Tile.vxDone { t with vx := { t.vx with c := t.vx.c.set (e.vb.toNat % 8) (e.va.setWidth 32) (Nat.mod_lt _ (by decide)) } } e none)

def Tile.vxSdef (t : Tile) : TRes :=
  vxStart t 0xA3 0 0 (fun _ e => if 5 ≤ e.vb.toNat then some (.plain 0x0207) else none) (fun t e =>
    Tile.vxDone { t with vx := { t.vx with s := t.vx.s.set (e.vb.toNat % 5) e.va (Nat.mod_lt _ (by decide)) } } e none)

/-- The words of a program. -/
def words32 : Nat → List Byte → List (BitVec 32)
  | 0, _ => []
  | n + 1, bs => BitVec.ofNat 32 (leVal (bs.take 4)) :: words32 n (bs.drop 4)

def Tile.vxEpload (t : Tile) (conf : Nat) : TRes :=
  vxStart t 0xA1 0 conf
    (fun t e =>
      let len := fld e.vb 4 6
      if !plainOperand e.va || outside e.vb 0x3F3 || decide (32 < len) then some (.plain 0x0207)
      else if len = 0 then none
      else if hLacks (t.hOf e.va) false then some (.plain 0x0201)
      else if hLen (t.hOf e.va) < owOff e.va + 4 * len then some (.plain 0x0202)
      else if owOff e.va % 4 != 0 then some (.plain 0x0203)
      else none)
    (fun t e =>
      let len := fld e.vb 4 6
      let slot := fld e.vb 0 2
      match t.pad.fetch (t.hOf e.va) (owOff e.va) (4 * len) with
      | (pad, .error w) => ⟨{ t with pad := pad }, [padFault w]⟩
      | (pad, .ok bs) =>
        let ws := words32 len bs
        match ws.findIdx? (fun w => !epWordOk w) with
        | some k => Tile.engineFault { t with pad := pad, vx := t.vx.record ⟨0x0206, some slot, k, false, none⟩ } .vx e.pc 0x0206
        | none =>
          Tile.vxDone { t with pad := pad
                               vx := { t.vx with prog := t.vx.prog.set (slot % 4) ws (Nat.mod_lt _ (by decide)) } } e none)

/-- A run begins: it captures its words, entries and factors, and its instruction becomes ready when it ends (R80, R178). -/
def vxRunGo (kind : Nat) (t : Tile) (e : QEntry) : TRes :=
  let ws := t.vx.s.toList
  let zero := rcNvec e.vb == 0
  let r : VRun :=
    ⟨kind, e.vb, ws, ws.map t.hOf,
      ws.map (fun w => if isIntFmt (owFmt w) then 0 else t.sr.exp (owNoscale w) (owSrec w)),
      nth t.vx.prog.toList (rcSlot e.vb) [], t.vx.vl, 0, List.replicate 8 (List.replicate 64 0), .empty, 0⟩
  if zero then t.vxDone e (some 0)
  else
    let vx := if kind = 0 && rcXclr e.vb then { t.vx with xs := Vector.replicate 16 .zero } else t.vx
    Tile.settle (Tile.begun { t with vx := { vx with run := some r } } .vx ⟨e, false, none⟩)

def Tile.vxRun (t : Tile) (stall conf : Nat) : TRes := vxStart t 0xA4 stall conf vxRunCheck (vxRunGo 0)
def Tile.vxCmpr (t : Tile) (stall conf : Nat) : TRes := vxStart t 0xA6 stall conf (vxPackCheck false) (vxRunGo 1)
def Tile.vxExpd (t : Tile) (stall conf : Nat) : TRes := vxStart t 0xA7 stall conf (vxPackCheck true) (vxRunGo 2)

/-- The checks of the operand cache transfers (R197). -/
def cacheCheck (write : Bool) (t : Tile) (e : QEntry) : Option VFault :=
  let row := fld e.vb 0 7
  let rows := fld e.vb 8 8
  if !plainOperand e.va || outside e.vb 0xFF7F || decide (128 < rows) then some (.plain 0x0207)
  else if rows = 0 then none
  else if hLacks (t.hOf e.va) write then some (.plain 0x0201)
  else if decide (hLen (t.hOf e.va) < owOff e.va + 64 * rows) || decide (128 < row + rows) then some (.plain 0x0202)
  else if owOff e.va % 64 != 0 then some (.plain 0x0203)
  else none

def Tile.vxOcld (t : Tile) (stall conf : Nat) : TRes :=
  vxStart t 0xA8 stall conf (cacheCheck false) (fun t e =>
    match t.pad.fetch (t.hOf e.va) (owOff e.va) (64 * fld e.vb 8 8) with
    | (pad, .error w) => ⟨{ t with pad := pad }, [padFault w]⟩
    | (pad, .ok bs) =>
      Tile.vxDone { t with pad := pad, vx := { t.vx with cache := Mem.writeN t.vx.cache (64 * fld e.vb 0 7) bs } } e none)

def Tile.vxOcst (t : Tile) (stall conf : Nat) : TRes :=
  vxStart t 0xA9 stall conf (cacheCheck true) (fun t e =>
    match t.pad.store (hCells (t.hOf e.va) (owOff e.va) (Mem.readN t.vx.cache (64 * fld e.vb 0 7) (64 * fld e.vb 8 8))) with
    | (pad, some w) => ⟨{ t with pad := pad }, [padFault w]⟩
    | (pad, none) => Tile.vxDone { t with pad := pad } e none)

/-- The checks of VX.XLD and VX.XST: mode 0 or 1, a whole area, 16-word or one-word (R171, R176). -/
def xwordCheck (write : Bool) (n : QEntry → Nat) (t : Tile) (e : QEntry) : Option VFault :=
  if !plainOperand e.va || decide (1 < e.vb.toNat) then some (.plain 0x0207)
  else if hLacks (t.hOf e.va) write then some (.plain 0x0201)
  else if hLen (t.hOf e.va) < owOff e.va + n e then some (.plain 0x0202)
  else none

def Tile.vxXld (t : Tile) (stall conf : Nat) : TRes :=
  vxStart t 0xAA stall conf (xwordCheck false (fun _ => 768)) (fun t e =>
    match t.pad.fetch (t.hOf e.va) (owOff e.va) 768 with
    | (pad, .error w) => ⟨{ t with pad := pad }, [padFault w]⟩
    | (pad, .ok bs) =>
      let ws := (List.range 16).map (fun k => XWord.ofBytes ((bs.drop (48 * k)).take 48))
      if ws.any Option.isNone then Tile.engineFault { t with pad := pad } .vx e.pc 0x0208
      else
        let xs := (List.range 16).map (fun k =>
          let w := (nth ws k none).getD .zero
          if e.vb = 1 then (nth t.vx.xs.toList k .zero).add w else w)
        Tile.vxDone { t with pad := pad, vx := { t.vx with xs := Vector.ofFn (fun i => nth xs i.val .zero) } } e none)

def Tile.vxXst (t : Tile) (stall conf : Nat) : TRes :=
  vxStart t 0xAB stall conf (xwordCheck true (fun e => if e.vb = 0 then 768 else 48)) (fun t e =>
    let xs := t.vx.xs.toList
    let bs := if e.vb = 0 then xs.flatMap XWord.bytes else (combined xs).bytes
    match t.pad.store (hCells (t.hOf e.va) (owOff e.va) bs) with
    | (pad, some w) => ⟨{ t with pad := pad }, [padFault w]⟩
    | (pad, none) => Tile.vxDone { t with pad := pad } e none)

def Tile.vxXrnd (t : Tile) : TRes :=
  vxStart t 0xAC 0 0 (fun _ _ => none) (fun t e =>
    let x := (combined t.vx.xs.toList).round
    Tile.vxDone { t with vx := t.vx.stick { fovf := x.2 } } e (some (x.1.setWidth 64)))

/-- VX_INSTR_COMPLETE: one more instruction completed (R177, R201). -/
def Tile.vxComplete (t : Tile) : TRes :=
  match t.vxq.started with
  | s :: _ =>
    if s.ready then Tile.complete { t with vx := { t.vx with instr := t.vx.instr + 1 } } .vx else .quiet t
  | [] => .quiet t

/-- MX_INSTR_COMPLETE (R123). -/
def Tile.mxComplete (t : Tile) : TRes := t.complete .mx

end Sys2Proof.Machine
end

