-- ==== Sys2Proof/Machine/BellTile.lean ====
section
/-! DEFINITION. Bells and the timetable walker as one tile sees them (`07_bells_and_timetables.md` R205–R219, R240–R242). -/

namespace Sys2Proof.Machine

/-! ### Entering a bell (R210–R215) -/

/-- A tile's state of a bell. -/
def Bl.bell (b : Bl) (id : BitVec 6) : TileBell := b.bells[id.toNat]

def Bl.setBell (b : Bl) (id : BitVec 6) (x : TileBell) : Bl := { b with bells := b.bells.set id.toNat x }

/-- The record ARRIVE returns (R214). -/
def arrivedRecord (epoch : BitVec 32) : Word := place epoch.toNat 32 32 ||| place 5 9 3

/-- A release record (Table 7.2). -/
def releaseRecord (flags : BitVec 8) (anyfail : Bool) (status : Nat) (late : Bool) (epoch : BitVec 32) : Word :=
  place flags.toNat 0 8 ||| placeB anyfail 8 ||| place status 9 3 ||| placeB late 12 ||| place epoch.toNat 32 32

/-- The lowest bit of a mask. -/
def lowestBit (w : Word) : Option Nat := (List.range 64).find? (fun k => w.getLsbD k)

/-- An arrival is made (R161, R164, R211, R212). -/
def Tile.arrival (t : Tile) (id : BitVec 6) (gs : Word) : TRes :=
  let x := t.bl.bell id
  let carry := t.sr.rollen && t.sr.ovfpend
  let flags : BitVec 8 := gs.setWidth 8 ||| (if carry then 1#8 <<< t.sr.rollbit.toNat else 0)
  let fail := bit gs 8 || (id == 63 && t.sr.fatal)
  ⟨{ t with sr := { t.sr with ovfpend := t.sr.ovfpend && !carry }
            bl := t.bl.setBell id { x with next := x.next + 1, out := x.out + 1 } },
    [.arrive id.toNat x.next flags fail t.xcq.issued t.xc.walked (if carry then lowestBit t.sr.ovfmask else none)]⟩

/-- Whether a BELL names a bell the tile may use in a mode: 0 ENTER, 1 ARRIVE, 2 WAIT (R210, R237). -/
def Tile.bellLegal (t : Tile) (id : BitVec 6) (mode : Nat) : Bool :=
  let x := t.bl.bell id
  x.exists_ && x.member && (!x.recess || mode == 0)

/-- BELL in one of its three modes. -/
def opBell (mode : Nat) (gd gs : Reg) (id hi : BitVec 6) : CoreOp where
  word := wordI 0x40 gd gs (hi ++ BitVec.ofNat 2 mode ++ id)
  bad := fun t => hi != 0 || !t.bellLegal id mode
  reads := if mode = 2 then [] else [gs]
  writes := [gd]
  go := fun _ t =>
    let x := t.bl.bell id
    match t.bl.resume with
    | some (pc, gd', id', ep) =>
      if pc = t.core.pc && id' = id then Tile.hold { t with bl := { t.bl with resume := none } } (.bell gd' id' ep)
      else bellGo mode gd gs id { t with bl := { t.bl with resume := none } } x
    | none => bellGo mode gd gs id t x
where
  bellGo (mode : Nat) (gd gs : Reg) (id : BitVec 6) (t : Tile) (x : TileBell) : TRes :=
    let give (t : Tile) (v : Word) : TRes := Tile.finish { t with core := t.core.wr gd v (t.core.cycle + 1) }
    if x.late then give { t with bl := t.bl.setBell id { x with late := false } } x.rel
    else if mode = 2 then
      if x.out = 0 then give t x.rel
      else t.hold (.bell gd id (x.next - BitVec.ofNat 32 x.out))
    else if 2 ≤ x.out then
      (TRes.mk t [.overrun id.toNat x.next]).andThen (fun t => t.raiseHere 0x07 (place id.toNat 0 6))
    else
      (t.arrival id (t.core.rd gs)).andThen (fun t =>
        if mode = 1 then give t (arrivedRecord x.next) else t.hold (.bell gd id x.next))

/-- Whether epoch `e` of a bell has released at the tile (R212). -/
def TileBell.released (x : TileBell) (e : BitVec 32) : Bool :=
  decide (x.out < serialDist x.next e) && decide (serialDist x.next e < 2 ^ 31)

/-- BELL_WAIT_COMPLETE (R58, R214). -/
def Tile.bellComplete (t : Tile) (n : Nat) : TRes :=
  match t.core.wait with
  | some ⟨.bell gd id e, lim⟩ =>
    let x := t.bl.bell id
    if x.released e && limitAllows lim n then
      let c := t.core.endWait n
      Tile.finish { t with core := c.wr gd x.rel (c.cycle + 1) }
    else .quiet t
  | _ => .quiet t

/-! ### Phase records (Table 7.9, R241) -/

structure Phase where
  bell : Nat
  count : Nat
  next : Nat
  stop : Bool
  se : Bool
  token : BitVec 3
  again : Nat
  deriving DecidableEq, Repr

/-- The 32-byte header at an offset of h1, whatever its checks; none when it cannot be read through h1. -/
def Tile.phaseAt (t : Tile) (off : Nat) : Option (Phase × Bool) :=
  let h := t.pad.h[1]
  if !hValid h || !hR h || decide (hLen h < off + 32) then none
  else
    let bs := (hPlaces h off 32).map (Mem.read t.pad.mem)
    let w0 := wordAt bs 0
    let w1 := wordAt bs 8
    let bad := outside w0 0x01FFFFFFFFFF003F || outside w1 0xFFFF || wordAt bs 16 != 0 || wordAt bs 24 != 0
    some (⟨fld w0 0 6, fld w0 16 16, fld w0 32 20, bit w0 52, bit w0 53, BitVec.ofNat 3 (fld w0 54 3), fld w1 0 16⟩, bad)

/-- R241 step 1: the current record when it passes its checks. -/
def Tile.phaseOk (t : Tile) (off : Nat) : Option Phase :=
  match t.phaseAt off with
  | none => none
  | some (p, bad) =>
    let len := hLen t.pad.h[1]
    let x := t.bl.bell (BitVec.ofNat 6 p.bell)
    if bad || decide (1024 < p.count) || off % 32 != 0 || decide (len < off + 32 + 32 * p.count) || !(x.exists_ && x.member) ||
        (!p.stop && (p.next % 32 != 0 || decide (len < p.next + 32))) then none
    else some p

/-! ### The walker (R241, R242) -/

/-- The walker stops with a cause; latched releases are discarded. -/
def Bl.halt (b : Bl) (cause : Nat) : Bl :=
  { b with run := false, stopcause := cause, latched := [], firing := none, stopping := false, again := none }

/-- A record becomes current: it is checked, and a failure stops the walker with BADREC. -/
def Tile.makeCurrent (t : Tile) (pos : BitVec 20) : Tile :=
  let b := { t.bl with pos := pos, again := none }
  match t.phaseOk pos.toNat with
  | some _ => { t with bl := b }
  | none => { t with bl := b.halt 5 }

/-- A firing begins: the record is read through h1 again (R241 steps 1–3). -/
def Tile.fire (t : Tile) : Tile :=
  match t.phaseOk t.bl.pos.toNat with
  | none => { t with bl := t.bl.halt 5 }
  | some p => { t with bl := { t.bl with firing := some (0, p.count), again := some (t.bl.again.getD p.again) } }

/-- Latched releases are taken one at a time: the first of the current record's bell fires it, others are discarded
(R242). -/
def Tile.takeLatched : List Latched → Tile → Tile
  | [], t => { t with bl := { t.bl with latched := [] } }
  | b :: bs, t =>
    match t.phaseAt t.bl.pos.toNat with
    | some (p, _) =>
      if p.bell = b then Tile.fire { t with bl := { t.bl with latched := bs } } else Tile.takeLatched bs t
    | none => { t with bl := t.bl.halt 5 }

/-- A release of bell `b` reaches the walker (R241, R242); `status` is that of Table 7.2. -/
def Tile.walkerRelease (t : Tile) (b status : Nat) : Tile :=
  if !t.bl.run then t
  else
    match t.phaseAt t.bl.pos.toNat with
    | none => { t with bl := t.bl.halt 5 }
    | some (p, _) =>
      if status = 0 || status = 1 then
        match t.bl.firing with
        | none => if p.bell = b then t.fire else t
        | some _ =>
          let moves := t.bl.again == some 0 && !p.stop
          let nextBell := match t.phaseAt p.next with | some (q, _) => some q.bell | none => none
          if p.bell = b || (moves && nextBell == some b) then
            if t.bl.latched.length < 15 then { t with bl := { t.bl with latched := t.bl.latched ++ [b] } }
            else { t with bl := t.bl.halt 6 }
          else t
      else if p.bell = b then
        { t with bl := t.bl.halt (if status = 2 then 3 else if status = 3 then 2 else 4) }
      else t

/-- WALKER_FIRING_END (R241 steps 4 and 5, R242). -/
def Tile.firingEnd (t : Tile) : TRes :=
  match t.bl.firing with
  | some (k, n) =>
    if k = n then
      match t.phaseAt t.bl.pos.toNat with
      | none => .quiet { t with bl := t.bl.halt 5 }
      | some (p, _) =>
        let t1 := { t with bl := { t.bl with firing := none, fired := t.bl.fired + 1 } }
        let sig : TRes := if p.se then t1.signal p.token 4 else .quiet t1
        sig.andThen fun t2 =>
          if t2.bl.stopping then .quiet { t2 with bl := t2.bl.halt 7 }
          else
            match t2.bl.again with
            | some (m + 1) => .quiet (Tile.takeLatched t2.bl.latched { t2 with bl := { t2.bl with again := some m } })
            | _ =>
              if p.stop then .quiet { t2 with bl := t2.bl.halt 1 }
              else
                let t3 := t2.makeCurrent (BitVec.ofNat 20 p.next)
                .quiet (if t3.bl.run then Tile.takeLatched t3.bl.latched t3 else t3)
    else .quiet t
  | none => .quiet t

/-- A write of 1 to bl.ttctl.RUN: a stopped walker starts at bl.ttpos (R242, Table 7.11). -/
def Tile.walkerGo (t : Tile) : Tile :=
  if t.bl.run then t
  else Tile.makeCurrent { t with bl := { t.bl with run := true, stopcause := 0 } } t.bl.pos

/-- A write of 0: a running walker stops at once, or at the end of the firing in progress (R242). -/
def Tile.walkerHalt (t : Tile) : Tile :=
  if !t.bl.run then t
  else if t.bl.firing.isSome then { t with bl := { t.bl with stopping := true } }
  else { t with bl := t.bl.halt 7 }

/-! ### A release at the tile (R212, R215, R218) -/

/-- bl.epb and bl.relb after a release of epoch `e`. -/
def TileBell.apply (x : TileBell) (e : BitVec 32) (status : Nat) (rcd : Word) : TileBell :=
  let d := serialDist x.next e
  if 1 ≤ d ∧ d ≤ x.out then { x with out := x.out - 1, rel := rcd }
  else if d = 0 && (status == 2 || status == 3 || status == 4) then { x with next := e + 1, late := true, rel := rcd }
  else { x with rel := rcd }

/-- R218 at one tile: bell state, signature, windows, step, walker, in that order. -/
def Tile.applyRelease (t : Tile) (id : BitVec 6) (e : BitVec 32) (status : Nat) (rcd : Word) : TRes :=
  let bl := { (t.bl.setBell id ((t.bl.bell id).apply e status rcd)) with releases := t.bl.releases + 1 }
  let mx := { t.mx with sigCap := t.mx.sig, sig := 0xFFFFFFFFFFFFFFFF }
  let w := if id = 63 && (status == 2 || status == 4) then (t.sr.restore, []) else t.sr.closeAt id.toNat
  let sr := if id = 63 then { w.1 with fatal := false, fcause := 0, frec := 0 } else w.1
  let bl := if id = 63 && status == 1 then { bl with step := bl.step + 1 } else bl
  ⟨Tile.walkerRelease { t with bl := bl, mx := mx, sr := sr } id.toNat status, w.2⟩

end Sys2Proof.Machine
end

