-- ==== Sys2Proof/Machine/Channel.lean ====
section
/-! DEFINITION. Message channels at one tile: the instructions XC.OPEN to XC.DONE, the ring, and what arriving items do
to an endpoint (`09_message_channels.md` R282–R303). -/

namespace Sys2Proof.Machine

/-! ### Statuses (R284, Table 13.15) -/

def stOk : Nat := 0x00
def stBadArg : Nat := 0x02
def stBusy : Nat := 0x03
def stDenied : Nat := 0x04
def stClosed : Nat := 0x07
def stTimeout : Nat := 0x08
def stTruncated : Nat := 0x0C

/-! ### Endpoints -/

def Xc.epAt (x : Xc) (k : Nat) : Endpoint := nth x.ep.toList k .reset

def Xc.setEp (x : Xc) (k : Nat) (e : Endpoint) : Xc := if h : k < 16 then { x with ep := x.ep.set k e } else x

def Tile.epAt (t : Tile) (k : Nat) : Endpoint := t.xc.epAt k

def Tile.setEp (t : Tile) (k : Nat) (e : Endpoint) : Tile := { t with xc := t.xc.setEp k e }

/-- A control item for the endpoint's peer (R283). -/
def Endpoint.toPeer (e : Endpoint) (k : Nat) (env : Env) (mk : Ends → Ctl) : Act :=
  let ends : Ends := ⟨e.peerep.toNat, k, e.peertile.toNat, env.rel⟩
  if e.remote then .cell e.port.toNat (mk ends) else .pkt e.peertile.toNat [] (.ctl (mk ends))

/-- The answer to whoever sent an item with these ends, in the package or across a port. -/
def answer (port : Option Nat) (ends : Ends) (mk : Ends → Ctl) : Act :=
  let back : Ends := ⟨ends.sep, ends.dep, ends.srctile, ends.dtile⟩
  match port with
  | some p => .cell p (mk back)
  | none => .pkt ends.srctile [] (.ctl (mk back))

/-- The 64-byte units of a message (R289). -/
def unitsOf (len : Nat) : Nat := 1 + ceilDiv len 64

/-! ### The ring (R289, R290) -/

/-- Bytes of a ring written at a byte offset. -/
def Tile.ringPut (t : Tile) (e : Endpoint) (off : Nat) (bs : List Byte) : TRes :=
  if e.rloc then ⟨t, [.ringWrite (e.dva + off) bs]⟩
  else
    match t.pad.store (hCells (t.pad.h[e.handle.toNat]) off bs) with
    | (pad, some b) => ⟨{ t with pad := pad }, [padFault b]⟩
    | (pad, none) => .quiet { t with pad := pad }

/-- A record's header row: word 1 and the rest, then word 0, with SETFULL on a scratchpad ring. -/
def Tile.ringHeader (t : Tile) (e : Endpoint) (unit kind len units : Nat) (seq tag : BitVec 32) : TRes :=
  let w0 := place seq.toNat 0 32 ||| place kind 32 4 ||| place len 40 24
  let w1 := place tag.toNat 0 32 ||| place units 32 32
  let rest := leBytes 8 w1.toNat ++ List.replicate 48 0
  (t.ringPut e (unit * 64 + 8) rest).andThen fun t1 =>
    (t1.ringPut e (unit * 64) (leBytes 8 w0.toNat)).andThen fun t2 =>
      if e.rloc then .quiet t2
      else .quiet { t2 with pad := t2.pad.fillWords (hPlaces (t2.pad.h[e.handle.toNat]) (unit * 64) 8) }

/-- Word 0 of a record set to empty (R296). -/
def Tile.ringEmpty (t : Tile) (e : Endpoint) (unit : Nat) : Tile :=
  if e.rloc then t
  else { t with pad := t.pad.setFull (wordOf (hPlace (t.pad.h[e.handle.toNat]) (unit * 64))) false }

/-- OWN and VALID of a scratchpad ring's handle cleared (R83, R299, R300). -/
def Tile.ringDrop (t : Tile) (e : Endpoint) : Tile :=
  if e.rloc then t
  else { t with pad := { t.pad with h := t.pad.h.set e.handle.toNat (t.pad.h[e.handle.toNat] &&& ~~~(0x21 : Word)) } }

/-- PADs at the read position are consumed at once: their units, and the rest (R296). -/
def Tile.skipPads (t : Tile) (k : Nat) : Tile × Nat :=
  let e := t.epAt k
  match e.recs with
  | r :: rest =>
    if r.kind = 2 then
      let t1 := t.ringEmpty e r.at_
      (t1.setEp k { e with recs := rest, pos := (e.pos + r.units) % e.runits }, r.units)
    else (t, 0)
  | [] => (t, 0)

/-! ### Starting an XC instruction (R285) -/

/-- One XC instruction runs at a time; a fault in its operands raises ENGINE (R307). -/
def xcStart (t : Tile) (op : BitVec 8) (pick : QEntry → Bool) (check : Tile → QEntry → Option Nat)
    (go : Tile → QEntry → TRes) : TRes :=
  if !t.xcq.started.isEmpty then .quiet t
  else
    match t.xcq.waiting.head?.any pick, t.takeHead .xc op with
    | true, some (e, t1) =>
      match check t1 e with
      | some code => t1.engineFault .xc e.pc code
      | none => go t1 e
    | _, _ => .quiet t

/-- The instruction is done but for its completion. -/
def Tile.xcDone (t : Tile) (e : QEntry) (ret : Option Word) : TRes := .quiet (t.begun .xc ⟨e, true, ret⟩)

/-- The instruction waits. -/
def Tile.xcHold (t : Tile) (e : QEntry) (r : XcRun) : Tile :=
  Tile.begun { t with xc := { t.xc with run := some r } } .xc ⟨e, false, none⟩

/-- The instruction in progress ends its work with a value. -/
def Tile.xcReady (t : Tile) (ret : Option Word) : Tile :=
  { t with xc := { t.xc with run := none }
           xcq := { t.xcq with started := t.xcq.started.map (fun s => { s with ready := true, ret := ret }) } }

def stWord (st : Nat) : Option Word := some (place st 0 8)

/-- XC_INSTR_COMPLETE. -/
def Tile.xcComplete (t : Tile) : TRes := t.complete .xc

/-! ### Opening (R286–R288) -/

/-- R286: the reserved bits of the open word and parameters. -/
def openReserved (b c : Word) : Bool :=
  if bit b 4 then
    outside b 0x0FFFFF3F || (!bit b 5 && fld b 8 4 != 0) || c != 0
  else if bit b 5 then outside b 0xFFFFFFFFFFC0003F || outside c 0xFFFFFFFF07FFFFFF
  else outside b 0x3F3F || outside c 0x07FFFFFF

/-- A request is accepted: the receiver enters OPEN (Table 9.4). -/
def Tile.accept (t : Tile) (k : Nat) (port : Option Nat) (ends : Ends) : TRes :=
  let e := t.epAt k
  let e' := { e with state := .isOpen, remote := port.isSome, port := BitVec.ofNat 4 (port.getD 0)
                     peerep := BitVec.ofNat 4 ends.sep, peertile := BitVec.ofNat 12 ends.srctile }
  ⟨t.setEp k e', [answer port ends (fun b => .openRep b stOk e.runits)]⟩

/-- R287: what refuses a receive open. -/
def Tile.openReceiveBad (t : Tile) (env : Env) (b c : Word) : Bool :=
  let e := t.epAt (fld b 0 4)
  let h := t.pad.h[(BitVec.ofNat 6 (fld b 8 6)).toNat]
  (e.state != .idle && e.state != .closed) || decide (100000 < fld c 0 27) ||
    (if bit b 5 then
      decide (fld c 32 32 < 16) || decide (4194304 < fld c 32 32) || !(env.mapped (fld b 22 42 * 64) (fld c 32 32 * 64))
     else !hValid h || !hR h || !hRmt h || hOwn h || hLen h % 64 != 0 || decide (hLen h < 128))

/-- XC_OPEN_RECEIVE. -/
def Tile.xcOpenReceive (t : Tile) (env : Env) : TRes :=
  xcStart t 0xC1 (fun e => !bit e.vb 4) (fun _ e => if openReserved e.vb e.vc then some 0x0307 else none) fun t e =>
    if t.openReceiveBad env e.vb e.vc then t.xcDone e (stWord stBadArg)
    else
      let k := fld e.vb 0 4
      let rloc := bit e.vb 5
      let hn : BitVec 6 := BitVec.ofNat 6 (fld e.vb 8 6)
      let h := t.pad.h[hn.toNat]
      let old := t.epAt k
      let ep : Endpoint :=
        { old with
          state := .listen, send := false, rloc := rloc, remote := false, port := 0, peerep := 0, peertile := 0, pend := 0
          pendSeq := 0, runits := if rloc then fld e.vc 32 32 else hLen h / 64, pos := 0, credits := 0, seq := 0
          ptmo := fld e.vc 0 27, handle := hn, dva := fld e.vb 22 42 * 64, wpos := 0, recs := [], asm := none, held := none }
      let pad := if rloc then t.pad else { t.pad with h := t.pad.h.set hn.toNat (h ||| 0x20) }
      let t1 := Tile.setEp { t with pad := pad } k ep
      (match old.held with
        | some ask => t1.accept k ask.port ask.ends
        | none => .quiet t1).andThen fun t2 => t2.xcDone e (stWord stOk)

/-- XC_OPEN_SEND. -/
def Tile.xcOpenSend (t : Tile) (env : Env) : TRes :=
  xcStart t 0xC1 (fun e => bit e.vb 4) (fun _ e => if openReserved e.vb e.vc then some 0x0307 else none) fun t e =>
    let b := e.vb
    let k := fld b 0 4
    let old := t.epAt k
    let remote := bit b 5
    if (old.state != .idle && old.state != .closed) || (remote && !env.ports.testBit (fld b 8 4)) ||
        (!remote && decide (env.count ≤ fld b 16 12)) then t.xcDone e (stWord stBadArg)
    else
      let ep : Endpoint :=
        { old with
          state := .opening, send := true, rloc := false, remote := remote, port := BitVec.ofNat 4 (fld b 8 4)
          peerep := BitVec.ofNat 4 (fld b 12 4), peertile := BitVec.ofNat 12 (fld b 16 12), pend := 0, pendSeq := 0, runits := 0
          pos := 0, credits := 0, seq := 0, recs := [], asm := none }
      ⟨(t.setEp k ep).xcHold e (.openSend k), [ep.toPeer k env .openReq]⟩

/-- OPEN_REQUEST at the receiving endpoint (Table 9.4). -/
def Tile.openRequest (t : Tile) (now : Nat) (port : Option Nat) (ends : Ends) : TRes :=
  let e := t.epAt ends.dep
  let busy : TRes := ⟨t, [answer port ends (fun b => .openRep b stBusy 0)]⟩
  match e.state, e.held with
  | .listen, none => if e.send then busy else t.accept ends.dep port ends
  | .idle, none => .quiet (t.setEp ends.dep { e with held := some ⟨port, ends, now⟩ })
  | .closed, none => if e.send then busy else .quiet (t.setEp ends.dep { e with held := some ⟨port, ends, now⟩ })
  | _, _ => busy

/-- OPEN_REPLY at the sending endpoint (Table 9.4). -/
def Tile.openReply (t : Tile) (ends : Ends) (result runits : Nat) : TRes :=
  let e := t.epAt ends.dep
  if e.state = .opening then
    let ep : Endpoint :=
      if result = stOk then { e with state := .isOpen, credits := runits, runits := runits, seq := 0, pos := 0 }
      else { e with state := .idle }
    let t1 := t.setEp ends.dep ep
    if t.xc.run = some (.openSend ends.dep) then .quiet (t1.xcReady (stWord result)) else .quiet t1
  else .quiet t

/-- OPEN_REQUEST_TIMEOUT: a request held for 10 ms is answered. -/
def Tile.openRequestTimeout (t : Tile) (k : Nat) : TRes :=
  let e := t.epAt k
  match e.held with
  | some a => ⟨t.setEp k { e with held := none }, [answer a.port a.ends (fun b => .openRep b stTimeout 0)]⟩
  | none => .quiet t

/-! ### Sending (R291–R294) -/

/-- The 64-byte pieces of a message; a message of no bytes is one empty piece. -/
def pieces : Nat → List Byte → List (List Byte)
  | 0, bs => [bs]
  | n + 1, bs => if bs.length ≤ 64 then [bs] else bs.take 64 :: pieces n (bs.drop 64)

/-- A message's segments across a port (R360): a MSG context and then MSGC contexts of 16,384 bytes. -/
def segments (ends : Ends) (len : Nat) (seq tag : BitVec 32) (bs : List Byte) : List Ctx :=
  .msg ends len seq tag (bs.take 16384) ::
    (List.range (ceilDiv len 16384 - 1)).map (fun i => .msgc ends ((i + 1) * 16384) seq ((bs.drop ((i + 1) * 16384)).take 16384))

/-- What a message puts on its way (R293). -/
def Endpoint.message (e : Endpoint) (k : Nat) (env : Env) (len : Nat) (tag : BitVec 32) (bs : List Byte) : List Act :=
  let ends : Ends := ⟨e.peerep.toNat, k, e.peertile.toNat, env.rel⟩
  if e.remote then (segments ends len e.seq tag bs).map (Act.cross e.port.toNat)
  else
    let ps := pieces (len / 64) bs
    (List.range ps.length).map fun i =>
      .pkt e.peertile.toNat [] (.flit ⟨ends, e.seq, len, tag, unitsOf len, false, i, nth ps i []⟩)

/-- A PAD record (R292). -/
def Endpoint.padding (e : Endpoint) (k : Nat) (env : Env) (units : Nat) : Act :=
  let ends : Ends := ⟨e.peerep.toNat, k, e.peertile.toNat, env.rel⟩
  if e.remote then .cross e.port.toNat (.pad ends e.seq units)
  else .pkt e.peertile.toNat [] (.flit ⟨ends, e.seq, 0, 0, units, true, 0, []⟩)

/-- The send in progress goes as far as its hall passes carry it (R292, R293): a PAD first when the message would wrap,
then the message. It is ready when the message has gone. -/
def Tile.sendGo (t : Tile) (env : Env) (k off len : Nat) (h : Word) (tag : BitVec 32) : TRes :=
  let e := t.epAt k
  let u := unitsOf len
  let room := e.runits - e.pos
  let wraps := decide (room < u)
  if wraps && decide (e.credits < room) then .quiet t
  else
    let acts := if wraps then [e.padding k env room] else []
    let e1 : Endpoint := if wraps then { e with credits := e.credits - room, pos := 0 } else e
    if e1.credits < u then ⟨t.setEp k e1, acts⟩
    else
      match t.pad.fetch h off len with
      | (pad, .error b) => ⟨Tile.setEp { t with pad := pad } k e1, acts ++ [padFault b]⟩
      | (pad, .ok bs) =>
        let e2 := { e1 with credits := e1.credits - u, pos := (e1.pos + u) % e1.runits, seq := e1.seq + 1, msgs := e1.msgs + 1 }
        let t1 := Tile.setEp { t with pad := pad } k e2
        ⟨t1.xcReady (some (place e1.seq.toNat 32 32 ||| place stOk 0 8)), acts ++ e1.message k env len tag bs⟩

/-- The operand checks of XC.SEND (Table 9.10). -/
def sendCheck (t : Tile) (e : QEntry) : Option Nat :=
  let h := t.pad.h[(BitVec.ofNat 6 (fld e.vb 20 6)).toNat]
  if outside e.vb 0xF3FFFFFF || outside e.vc 0xFFFFFFFF00FFFFFF then some 0x0307
  else if !hValid h || !hR h then some 0x0301
  else if hLen h < fld e.vb 0 20 + fld e.vc 0 24 then some 0x0302
  else if fld e.vb 0 20 % 8 != 0 then some 0x0303
  else none

/-- XC_SEND (R291). -/
def Tile.xcSend (t : Tile) (env : Env) : TRes :=
  xcStart t 0xC3 (fun _ => true) sendCheck fun t e =>
    let k := fld e.vb 28 4
    let ep := t.epAt k
    let len := fld e.vc 0 24
    if !ep.send || (ep.state != .isOpen && ep.state != .closed) then t.xcDone e (stWord stBadArg)
    else if ep.state = .closed then t.xcDone e (stWord stClosed)
    else if ep.pend.toNat = stTimeout then
      (t.setEp k { ep with pend := 0 }).xcDone e (some (place ep.pendSeq.toNat 32 32 ||| place stTimeout 0 8))
    else if ep.runits < unitsOf len then t.xcDone e (stWord stBadArg)
    else
      let h := t.pad.h[(BitVec.ofNat 6 (fld e.vb 20 6)).toNat]
      let tag := BitVec.ofNat 32 (fld e.vc 32 32)
      (t.xcHold e (.send k (fld e.vb 0 20) len h tag)).sendGo env k (fld e.vb 0 20) len h tag

/-- SEND_RESUME: a waiting send takes up the hall passes that have come back; `n` is the tc it has waited since it last
went on (R294). -/
def Tile.sendResume (t : Tile) (env : Env) (n : Nat) : TRes :=
  match t.xc.run with
  | some (.send k off len h tag) =>
    let e := t.epAt k
    let r := (t.setEp k { e with stall := e.stall + BitVec.ofNat 64 n }).sendGo env k off len h tag
    if r.acts.isEmpty then .quiet t else r
  | _ => .quiet t

/-- HALL_PASS_RETURN at a send endpoint (R296). -/
def Tile.hallPass (t : Tile) (k units : Nat) : TRes :=
  let e := t.epAt k
  if e.send && e.state = .isOpen then .quiet (t.setEp k { e with credits := e.credits + units }) else .quiet t

/-- TRUNCATION_NOTICE at the sender (R297). -/
def Tile.truncNotice (t : Tile) (k : Nat) (seq : BitVec 32) : TRes :=
  let e := t.epAt k
  if e.send && e.state = .isOpen then .quiet (t.setEp k { e with pend := BitVec.ofNat 8 stTimeout, pendSeq := seq }) else .quiet t

/-! ### Receiving (R295, R296) -/

/-- The record at the read position, PADs aside. -/
def Endpoint.front (e : Endpoint) : Option RingRec := e.recs.find? (fun r => r.kind != 2)

/-- Whether a SELECT that names the endpoint finds it ready. -/
def Endpoint.selReady (e : Endpoint) : Bool := e.front.isSome || e.state == .closed

/-- Whether a SELECT may name the endpoint. -/
def Endpoint.selOk (e : Endpoint) : Bool :=
  !e.send && (e.state == .listen || e.state == .isOpen || e.state == .draining || e.state == .closed)

/-- The endpoint a SELECT chooses. -/
def Xc.choose (x : Xc) (mask : Nat) (rot : Bool) : Option Nat :=
  let order := if rot then (List.range 16).map (fun i => (x.selrot.toNat + 1 + i) % 16) else List.range 16
  order.find? (fun k => mask.testBit k && (x.epAt k).selReady)

/-- The result of Table 9.6. -/
def Endpoint.selWord (e : Endpoint) (k : Nat) : Word :=
  match e.front with
  | some r =>
    place (if r.kind = 3 then stTruncated else stOk) 0 8 ||| place k 8 4 ||| place r.len 16 24 |||
      place ((r.at_ + 1) % e.runits) 42 22
  | none => place stClosed 0 8 ||| place k 8 4

/-- A SELECT looks for a ready endpoint. -/
def Tile.selectGo (t : Tile) (mask : Nat) (rot : Bool) : Tile :=
  match t.xc.choose mask rot with
  | none => t
  | some k =>
    Tile.xcReady { t with xc := { t.xc with selrot := if rot then BitVec.ofNat 4 k else t.xc.selrot } }
      (some ((t.epAt k).selWord k))

/-- XC_SELECT (R295). -/
def Tile.xcSelect (t : Tile) : TRes :=
  xcStart t 0xC4 (fun _ => true) (fun _ e => if outside e.vb 0x1FFFF then some 0x0307 else none) fun t e =>
    let mask := fld e.vb 0 16
    if 8 < popUpTo mask 16 || (bitsOf mask 16).any (fun k => !(t.epAt k).selOk) then t.xcDone e (stWord stBadArg)
    else if mask = 0 then t.xcDone e (some (place 1 12 1))
    else .quiet ((t.xcHold e (.select mask (bit e.vb 16))).selectGo mask (bit e.vb 16))

/-- SELECT_READY (R295). -/
def Tile.selectReady (t : Tile) : TRes :=
  match t.xc.run with
  | some (.select mask rot) => .quiet (t.selectGo mask rot)
  | _ => .quiet t

/-- A DRAINING endpoint with nothing left enters CLOSED (R299). -/
def Tile.drainCheck (t : Tile) (k : Nat) : Tile :=
  let e := t.epAt k
  if e.state = .draining && e.recs.isEmpty then (t.ringDrop e).setEp k { e with state := .closed } else t

/-- XC_DONE (R296). -/
def Tile.xcDoneRec (t : Tile) (env : Env) : TRes :=
  xcStart t 0xC5 (fun _ => true) (fun _ e => if outside e.vb 0xF then some 0x0307 else none) fun t e =>
    let k := fld e.vb 0 4
    let ep := t.epAt k
    match ep.send, ep.recs with
    | false, r :: rest =>
      if r.kind = 2 then t.xcDone e (stWord stBadArg)
      else
        let t1 := (t.ringEmpty ep r.at_).setEp k
          { ep with recs := rest, pos := (ep.pos + r.units) % ep.runits, msgs := ep.msgs + 1 }
        let p := t1.skipPads k
        let ret := ep.toPeer k env (fun b => .passes b.dep b.dtile (r.units + p.2))
        (⟨p.1.drainCheck k, if ep.state = .isOpen then [ret] else []⟩ : TRes).andThen fun t2 => t2.xcDone e (stWord stOk)
    | _, _ => t.xcDone e (stWord stBadArg)

/-! ### Flits at the receive endpoint (R290, R297, R298) -/

/-- A flit discarded because its channel has ended; each discarded message is answered (R300). -/
def Tile.flitClosed (t : Tile) (port : Option Nat) (f : Flit) : TRes :=
  ⟨{ t with xc := { t.xc with closedrop := t.xc.closedrop + 1 } },
    if f.idx = 0 then [answer port f.ends .closeNotice] else []⟩

/-- Whether a flit comes from the endpoint's bound sender. -/
def Endpoint.fromPeer (e : Endpoint) (port : Option Nat) (f : Flit) : Bool :=
  e.peerep.toNat == f.ends.sep && e.peertile.toNat == f.ends.srctile && e.remote == port.isSome &&
    (match port with | some p => e.port.toNat == p | none => true)

/-- The record of a whole message is written and can be read. -/
def Tile.recordDone (t : Tile) (k kind : Nat) (a : Asm) : TRes :=
  let e := t.epAt k
  (t.ringHeader e e.wpos kind a.len a.units a.seq a.tag).andThen fun t1 =>
    .quiet (t1.setEp k { e with asm := none, seq := a.seq + 1, wpos := (e.wpos + a.units) % e.runits
                                recs := e.recs ++ [⟨e.wpos, kind, a.len, a.units, a.got⟩] })

/-- A PAD record: it is consumed at once when it stands at the read position. -/
def Tile.padDone (t : Tile) (k : Nat) (env : Env) (f : Flit) : TRes :=
  let e := t.epAt k
  (t.ringHeader e e.wpos 2 0 f.units f.seq 0).andThen fun t1 =>
    let t2 := t1.setEp k { e with wpos := (e.wpos + f.units) % e.runits, recs := e.recs ++ [⟨e.wpos, 2, 0, f.units, 1⟩] }
    if e.recs.isEmpty then
      let p := t2.skipPads k
      ⟨p.1, [e.toPeer k env (fun b => .passes b.dep b.dtile p.2)]⟩
    else .quiet t2

/-- MESSAGE_FLIT (R290, R298, R300). -/
def Tile.messageFlit (t : Tile) (env : Env) (port : Option Nat) (f : Flit) : TRes :=
  let k := f.ends.dep
  let e := t.epAt k
  if e.send || e.state != .isOpen || !e.fromPeer port f then t.flitClosed port f
  else
    let late : TRes := .quiet { t with xc := { t.xc with latedrop := t.xc.latedrop + 1 } }
    if f.seq != e.seq then late
    else if f.pad then (if e.asm.isSome then late else t.padDone k env f)
    else
      let a := e.asm.getD ⟨f.seq, f.len, f.tag, f.units, false, 0, env.now⟩
      if f.idx != a.got then late
      else
        (t.ringPut e ((e.wpos + 1) * 64 + 64 * f.idx) f.data).andThen fun t1 =>
          let a' := { a with got := a.got + 1 }
          let t2 := t1.setEp k { e with asm := some a' }
          if a'.got = Nat.max 1 (ceilDiv a.len 64) then t2.recordDone k 1 a' else .quiet t2

/-- A partial message is written as TRUNC (R297, R302). -/
def Tile.truncate (t : Tile) (k : Nat) (a : Asm) : TRes := t.recordDone k 3 a

/-- PARTIAL_MESSAGE_TIMEOUT (R297). -/
def Tile.partialTimeout (t : Tile) (env : Env) (k : Nat) : TRes :=
  let e := t.epAt k
  match e.asm with
  | some a =>
    (t.truncate k a).andThen fun t1 =>
      ⟨{ t1 with xc := { t1.xc with truncs := t1.xc.truncs + 1 } }, [e.toPeer k env (fun b => .truncNotice b a.seq)]⟩
  | none => .quiet t

/-! ### Closing (R299–R301) -/

/-- The flits an endpoint holds unread. -/
def Endpoint.heldFlits (e : Endpoint) : Nat :=
  (e.recs.map (·.flits)).foldl (· + ·) 0 + (match e.asm with | some a => a.got | none => 0)

/-- XC_CLOSE. -/
def Tile.xcClose (t : Tile) (env : Env) : TRes :=
  xcStart t 0xC2 (fun _ => true) (fun _ e => if outside e.vb 0xF then some 0x0307 else none) fun t e =>
    let k := fld e.vb 0 4
    let ep := t.epAt k
    match ep.state with
    | .idle => t.xcDone e (stWord stBadArg)
    | .closed => (t.setEp k { ep with state := .idle }).xcDone e (stWord stOk)
    | _ =>
      if ep.send then
        let ends : Ends := ⟨ep.peerep.toNat, k, ep.peertile.toNat, env.rel⟩
        let a := if ep.remote then Act.cross ep.port.toNat (.close ends) else .pkt ep.peertile.toNat [] (.marker ends)
        (⟨t.setEp k { ep with state := .idle }, [a]⟩ : TRes).andThen fun t1 => t1.xcDone e (stWord stOk)
      else
        let t1 := (t.ringDrop ep).setEp k { ep with state := .idle, recs := [], asm := none }
        let t2 := { t1 with xc := { t1.xc with closedrop := t1.xc.closedrop + BitVec.ofNat 64 ep.heldFlits } }
        let a := if ep.state = .listen then [] else [ep.toPeer k env .closeNotice]
        (⟨t2, a⟩ : TRes).andThen fun t3 => t3.xcDone e (stWord stOk)

/-- CHANNEL_CLOSE_MARKER (R299, R302). -/
def Tile.closeMarker (t : Tile) (k : Nat) : TRes :=
  let e := t.epAt k
  if e.send || e.state != .isOpen then .quiet t
  else
    (match e.asm with
      | some a =>
        (t.truncate k a).andThen fun t1 =>
          .quiet { t1 with xc := { t1.xc with closedrop := t1.xc.closedrop + BitVec.ofNat 64 a.got } }
      | none => .quiet t).andThen fun t1 =>
        .quiet ((t1.setEp k { t1.epAt k with state := .draining }).drainCheck k)

/-- CLOSE_NOTICE (R300, R301). -/
def Tile.closeNotice (t : Tile) (k : Nat) : TRes :=
  let e := t.epAt k
  if e.send && e.state = .isOpen then
    let t1 := t.setEp k { e with state := .closed, credits := 0 }
    match t.xc.run with
    | some (.send k' _ _ _ _) => .quiet (if k' = k then t1.xcReady (stWord stClosed) else t1)
    | _ => .quiet t1
  else .quiet t

end Sys2Proof.Machine
end

