-- ==== Sys2Proof/Machine/Exchange.lean ====
section
/-! DEFINITION. Exchange descriptors at one tile: XC.PUT, the walker's firings, the five KINDs and the acceptance of DMA
descriptors (`09_message_channels.md` R304–R307, `10_memory_tiers.md` R318–R321). -/

namespace Sys2Proof.Machine

/-! ### Checks (R305, R307, R321) -/

/-- R305: the fields that Table 9.9 does not name for the KIND are zero; a reserved KIND fails. -/
def XDesc.shapeOk (d : XDesc) : Bool :=
  let noDst := d.ctr == 0 && d.dsth == 0
  let noNet := !d.remote && d.port == 0 && d.flow == 0 && !d.flowen
  match d.kind with
  | 1 => d.tree == 0 && d.group == 0 && d.stream == 0 && !d.word && d.count == 0
  | 2 => d.dtile == 0 && d.group == 0 && noNet && d.stream == 0 && !d.word && d.count == 0
  | 3 => noDst && d.dtile == 0 && d.tree == 0 && noNet && d.stream == 0 && !d.word && d.count == 0
  | 4 => !d.setfull && !d.cnt && d.tree == 0 && d.group == 0 && !d.flowen && d.stream == 0
  | 5 =>
    !d.setfull && !d.cnt && noDst && d.len == 0 && d.dstoff == 0 && d.dtile == 0 && d.tree == 0 && d.group == 0 && noNet &&
      !d.word && d.count == 0
  | _ => false

/-- Whether the descriptor reads from its source handle, and how many bytes. -/
def XDesc.source (d : XDesc) : Option Nat :=
  match d.kind with
  | 4 => if d.word then some 8 else none
  | 5 => some 64
  | _ => some d.len

/-- R305, Table 9.9: alignment and limits. -/
def XDesc.aligned (d : XDesc) : Bool :=
  match d.kind with
  | 1 => d.srcoff % 8 == 0 && d.dstoff % 8 == 0 && d.len % 8 == 0
  | 2 => d.srcoff % 64 == 0 && d.dstoff % 64 == 0 && d.len % 64 == 0
  | 3 => d.srcoff % 64 == 0 && d.dstoff % 64 == 0 && d.len % 64 == 0 && decide (d.len ≤ 4096)
  | 4 => d.len == 0 && (!d.word || (d.srcoff % 8 == 0 && d.dstoff % 8 == 0))
  | _ => d.srcoff % 64 == 0

/-- Table 9.10 for an exchange descriptor; `h` is its source handle. -/
def XDesc.check (d : XDesc) (reserved : Bool) (h : Word) (ports : Nat) : Option Nat :=
  if reserved || !d.shapeOk then some 0x0307
  else if d.source.isSome && (!hValid h || !hR h) then some 0x0301
  else if d.source.any (fun n => hLen h < d.srcoff + n) then some 0x0302
  else if !d.aligned then some 0x0303
  else if (d.remote && !ports.testBit d.port) || (d.kind == 4 && !d.remote) then some 0x0308
  else none

/-- The bytes a DMA descriptor reaches in its local buffer. -/
def DmaDesc.extent (d : DmaDesc) : Nat :=
  if d.rows = 0 || d.len = 0 then 0 else d.loff + (d.rows - 1) * d.lstride + d.len

/-- Whether the operation has a local buffer, and whether it writes it (Table 10.5). -/
def DmaDesc.isLocal (d : DmaDesc) : Bool := d.op == 1 || d.op == 2 || d.op == 4 || d.op == 5
def DmaDesc.writesLocal (d : DmaDesc) : Bool := d.op == 2 || d.op == 4
def DmaDesc.isLookup (d : DmaDesc) : Bool := d.op == 4 || d.op == 5

/-- Alignment of Table 10.5 and R330. -/
def DmaDesc.aligned (d : DmaDesc) : Bool :=
  match d.op with
  | 1 => d.dva % 8 == 0 && d.len % 8 == 0 && d.loff % 8 == 0 && d.dstride % 8 == 0 && d.lstride % 8 == 0
  | 2 => d.dva % 8 == 0 && d.len % 8 == 0 && d.loff % 8 == 0 && d.dstride % 8 == 0 && d.lstride % 8 == 0
  | 3 => d.dva % 64 == 0 && d.aux % 64 == 0 && d.len % 64 == 0
  | 4 => d.off6 % 4 == 0 && d.dva % 32 == 0 && d.dstride % 32 == 0 && d.lstride % 32 == 0
  | 5 => d.off6 % 4 == 0 && d.dva % 32 == 0 && d.dstride % 32 == 0 && d.lstride % 32 == 0
  | 6 => d.dva % 64 == 0 && d.off6 % 64 == 0 && d.len % 64 == 0
  | 7 => d.dva % 64 == 0 && d.off6 % 64 == 0 && d.len % 64 == 0
  | _ => true

/-- R321: BADDMA. `lh` and `ih` are the handle fields as written. -/
def DmaDesc.bad (d : DmaDesc) (lh ih : Nat) : Bool :=
  match d.op with
  | 1 => ih != 0 || d.setfull || d.aux != 0 || d.off6 != 0
  | 2 => ih != 0 || d.aux != 0 || d.off6 != 0
  | 3 => lh != 0 || ih != 0 || d.setfull || d.dstride != 0 || d.loff != 0 || d.lstride != 0 || d.off6 != 0 || decide (1 < d.rows)
  | 4 => decide (2 ^ 20 ≤ d.off6) || decide (2 ^ 32 ≤ d.aux) || lookupBad d
  | 5 => d.setfull || decide (2 ^ 20 ≤ d.off6) || decide (2 ^ 32 ≤ d.aux) || lookupBad d
  | 6 => ck d lh ih
  | 7 => ck d lh ih
  | _ => true
where
  lookupBad (d : DmaDesc) : Bool := d.len % 32 != 0 || decide (d.len < 32) || decide (256 < d.len) || decide (d.dstride < d.len)
  ck (d : DmaDesc) (lh ih : Nat) : Bool :=
    lh != 0 || ih != 0 || d.setfull || d.dstride != 0 || d.loff != 0 || d.lstride != 0 || d.aux != 0 || decide (1 < d.rows)

/-- The checks of a DMA descriptor (R321), its handles resolved from `h`. -/
def dmaCheck (h : Vector Word 64) (ws : List Word) : Except Nat DmaDesc :=
  let w (k : Nat) := nth ws k 0
  let lh := fld (w 0) 12 6
  let ih := fld (w 0) 18 6
  let d : DmaDesc :=
    ⟨fld (w 0) 0 4, bit (w 0) 4, bit (w 0) 5, fld (w 0) 8 4, nth h.toList lh 0, nth h.toList ih 0, fld (w 0) 32 24, fld (w 1) 0 32,
      fld (w 2) 0 48, fld (w 3) 0 48, fld (w 4) 0 20, fld (w 4) 32 20, fld (w 5) 0 48, fld (w 6) 0 48⟩
  if (List.range 8).any (fun k => outside (w k) (nth dmaMask k 0)) then .error 0x0307
  else if (d.isLocal && (!hValid d.lh || !(if d.writesLocal then hW d.lh else hR d.lh))) ||
      (d.isLookup && (!hValid d.ih || !hR d.ih)) then .error 0x0301
  else if (d.isLocal && decide (hLen d.lh < d.extent)) ||
      (d.isLookup && decide (0 < d.rows) && decide (0 < d.len) && decide (hLen d.ih < d.off6 % 2 ^ 20 + 4 * d.rows)) then .error 0x0302
  else if !d.aligned then .error 0x0303
  else if d.bad lh ih then .error 0x0309
  else .ok d

/-- What reaching a descriptor finds. -/
inductive Reach where
  | ok (c : XCur)
  | fault (code : Nat)
  | ecc (word : Nat)
  deriving DecidableEq, Repr

/-- A descriptor reached at an offset of a buffer (R307, R321). -/
def Tile.reach (t : Tile) (env : Env) (buf : Word) (off : Nat) : Tile × Reach :=
  if !hValid buf || !hR buf then (t, .fault 0x0301)
  else if hLen buf < off + 32 then (t, .fault 0x0302)
  else
    match t.pad.fetch buf off 32 with
    | (pad, .error b) => ({ t with pad := pad }, .ecc b)
    | (pad, .ok bs) =>
      let ws := (List.range 4).map (fun k => wordAt bs (8 * k))
      let d := XDesc.ofWords (nth ws 0 0) (nth ws 1 0) (nth ws 2 0) (nth ws 3 0)
      let res := (List.range 4).any (fun k => outside (nth ws k 0) (nth xdMask k 0))
      let t1 := { t with pad := pad }
      let src := nth t1.pad.h.toList d.srch 0
      match d.check res src env.ports with
      | some code => (t1, .fault code)
      | none =>
        if d.kind = 5 then
          match t1.pad.fetch src d.srcoff 64 with
          | (pad, .error b) => ({ t1 with pad := pad }, .ecc b)
          | (pad, .ok cs) =>
            let t2 := { t1 with pad := pad }
            match dmaCheck t2.pad.h ((List.range 8).map (fun k => wordAt cs (8 * k))) with
            | .error code => (t2, .fault code)
            | .ok dd => (t2, .ok ⟨d, src, some dd, 0⟩)
        else (t1, .ok ⟨d, src, none, 0⟩)

/-! ### XC.PUT (R284, R307) -/

/-- The PUT in progress reaches its next descriptor, or is ready when none is left. -/
def Tile.putReach (t : Tile) (env : Env) : TRes :=
  match t.xc.run, t.xcq.started with
  | some (.put h off count idx), s :: _ =>
    if idx = count then .quiet (t.xcReady none)
    else
      match t.reach env h (off + 32 * idx) with
      | (t1, .ok c) => .quiet { t1 with xc := { t1.xc with putCur := some c } }
      | (t1, .fault code) => Tile.engineFault { t1 with xc := { t1.xc with run := none } } .xc s.e.pc code
      | (t1, .ecc b) => ⟨{ t1 with xc := { t1.xc with run := none } }, [padFault b]⟩
  | _, _ => .quiet t

/-- XC_PUT. -/
def Tile.xcPut (t : Tile) (env : Env) : TRes :=
  xcStart t 0xC0 (fun _ => true)
    (fun t e =>
      let h := t.pad.h[(BitVec.ofNat 6 (fld e.va 20 6)).toNat]
      if outside e.va 0x3FFFFFF || decide (1024 < e.vb.toNat) then some 0x0307
      else if !hValid h || !hR h then some 0x0301
      else if fld e.va 0 20 % 32 != 0 then some 0x0303
      else none)
    fun t e =>
      let h := t.pad.h[(BitVec.ofNat 6 (fld e.va 20 6)).toNat]
      (t.xcHold e (.put h (fld e.va 0 20) e.vb.toNat 0)).putReach env

/-! ### The walker's firing (R241 step 3, R307) -/

/-- The firing in progress reaches its next descriptor; one that would fault stops the walker with BADREC and is logged. -/
def Tile.walkReach (t : Tile) (env : Env) : TRes :=
  match t.bl.firing, t.xc.walkCur with
  | none, some _ => .quiet { t with xc := { t.xc with walkCur := none } }
  | some (k, n), none =>
    if k < n then
      let off := t.bl.pos.toNat + 32 + 32 * k
      match t.reach env t.pad.h[1] off with
      | (t1, .ok c) => .quiet { t1 with xc := { t1.xc with walkCur := some c } }
      | (t1, .fault code) => ⟨{ t1 with bl := t1.bl.halt 5 }, [.walkerFault code off]⟩
      | (t1, .ecc b) => ⟨{ t1 with bl := t1.bl.halt 5 }, [padFault b]⟩
    else .quiet t
  | _, _ => .quiet t

/-! ### Issuing a descriptor (R305) -/

/-- The descriptor at hand, of a KIND, for the queue or for the walker. -/
def Tile.cur (t : Tile) (walker : Bool) (kind : Nat) : Option XCur :=
  match (if walker then t.xc.walkCur else t.xc.putCur) with
  | some c => if c.d.kind = kind then some c else none
  | none => none

/-- The tag of what the descriptor at hand writes (R205). -/
def Tile.xtag (t : Tile) (env : Env) (walker : Bool) : Tag :=
  ⟨env.logical, walker, if walker then t.xc.walked else t.xcq.completed⟩

/-- The descriptor at hand is issued; the next is reached. -/
def Tile.xAdvance (t : Tile) (env : Env) (walker : Bool) : TRes :=
  if walker then
    let fire := match t.bl.firing with | some (k, n) => some (k + 1, n) | none => none
    Tile.walkReach { t with xc := { t.xc with walkCur := none, walked := t.xc.walked + 1 }, bl := { t.bl with firing := fire } } env
  else
    match t.xc.run with
    | some (.put h off count idx) =>
      Tile.putReach { t with xc := { t.xc with putCur := none, run := some (.put h off count (idx + 1)) } } env
    | _ => .quiet t

/-- The source bytes of the descriptor at hand, then what to do with them. -/
def Tile.withSource (t : Tile) (c : XCur) (off n : Nat) (f : Tile → List Byte → TRes) : TRes :=
  match t.pad.fetch c.src off n with
  | (pad, .error b) => ⟨{ t with pad := pad }, [padFault b]⟩
  | (pad, .ok bs) => f { t with pad := pad } bs

/-- The write body of `data` at byte `off` of a descriptor. -/
def XDesc.body (d : XDesc) (env : Env) (off : Nat) (data : List Byte) : WriteBody :=
  ⟨d.dsth, d.dstoff + off, data, if d.cnt then some d.ctr else none, d.setfull, if d.flowen then some d.flow else none, some env.rel⟩

/-- WRITE: 64-byte packets in the package, contexts of 16,384 bytes across a port (R305, R360). -/
def Tile.xWrite (t : Tile) (env : Env) (walker : Bool) : TRes :=
  match t.cur walker 1 with
  | none => .quiet t
  | some c =>
    let d := c.d
    t.withSource c d.srcoff d.len fun t1 bs =>
      let piece (n k : Nat) : WriteBody := d.body env (n * k) ((bs.drop (n * k)).take n)
      let acts :=
        if d.remote then
          (List.range (Nat.max 1 (ceilDiv d.len 16384))).map (fun k => Act.cross d.port (.write (piece 16384 k) d.dtile env.rel))
        else
          (List.range (Nat.max 1 (ceilDiv d.len 64))).map (fun k => Act.pkt d.dtile [t1.xtag env walker] (.write (piece 64 k)))
      (⟨t1, acts⟩ : TRes).andThen fun t2 => t2.xAdvance env walker

/-- REDUCE: as many of the packets still to go as the tile's queue of the tree has room for; `n` is the tc waited for room
(R260, R261). -/
def Tile.xReduce (t : Tile) (env : Env) (walker : Bool) (n : Nat) : TRes :=
  match t.cur walker 2 with
  | none => .quiet t
  | some c =>
    let d := c.d
    let total := d.len / 64
    let take := Nat.min (total - c.sent) (env.redRoom d.tree)
    if total ≠ 0 ∧ take = 0 then .quiet t
    else
      t.withSource c (d.srcoff + 64 * c.sent) (64 * take) fun t1 bs =>
        let pkt (k : Nat) : RedPkt :=
          ⟨(bs.drop (64 * k)).take 64, if env.redRoot d.tree then some { d.body env (64 * (c.sent + k)) [] with writer := none } else none,
            [t1.xtag env walker]⟩
        let acts := (List.range take).map (fun k => Act.reduce d.tree (pkt k))
        let x := { t1.xc with redwait := t1.xc.redwait + BitVec.ofNat 64 n }
        let c' := { c with sent := c.sent + take }
        let t2 := { t1 with xc := if walker then { x with walkCur := some c' } else { x with putCur := some c' } }
        (⟨t2, acts⟩ : TRes).andThen fun t3 => if c'.sent = total then t3.xAdvance env walker else .quiet t3

/-- CBWRITE (R264). -/
def Tile.xChalk (t : Tile) (env : Env) (walker : Bool) : TRes :=
  match t.cur walker 3 with
  | none => .quiet t
  | some c =>
    let d := c.d
    t.withSource c d.srcoff d.len fun t1 bs =>
      (⟨t1, [.chalk d.group d.dstoff bs d.setfull d.cnt (t1.xtag env walker)]⟩ : TRes).andThen fun t2 => t2.xAdvance env walker

/-- ANNOUNCE (R234, R305). -/
def Tile.xAnnounce (t : Tile) (env : Env) (walker : Bool) : TRes :=
  match t.cur walker 4 with
  | none => .quiet t
  | some c =>
    let d := c.d
    t.withSource c d.srcoff (if d.word then 8 else 0) fun t1 bs =>
      let w := if d.word then some (wordAt bs 0) else none
      (⟨t1, [.cell d.port (.announce w d.ctr d.flow d.dtile d.count d.dsth d.dstoff)]⟩ : TRes).andThen fun t2 => t2.xAdvance env walker

/-- DMA: the descriptor enters its stream when an entry is free (R318). -/
def Tile.xDma (t : Tile) (env : Env) (walker : Bool) : TRes :=
  match t.cur walker 5 with
  | none => .quiet t
  | some c =>
    match c.dma with
    | none => .quiet t
    | some d =>
      let k : Fin 4 := ⟨c.d.stream % 4, Nat.mod_lt _ (by decide)⟩
      let s := t.xc.streams[k]
      if 8 ≤ s.queue.length then .quiet t
      else
        Tile.xAdvance { t with xc := { t.xc with streams := t.xc.streams.set k { s with queue := s.queue ++ [d] } } } env walker

end Sys2Proof.Machine
end

