-- ==== Sys2Proof/Machine/Flags.lean ====
section
/-! DEFINITION. Status words and sticky flags of a tile: how the flags stand in their register, and what a write of ones clears
(W1C, R9; Tables 2.8, 3.4, 4.13, 5.2, 6.12, 7.11, 8.12, 9.11, 10.13). -/

namespace Sys2Proof.Machine

/-- tc.status.RUN (Table 2.8). -/
def Core.runCode (c : Core) : Nat :=
  match c.run with
  | .halted => 2
  | .faulted => 3
  | _ => if c.wait.isSome then 1 else 0

/-- tc.status. -/
def Core.status (c : Core) : Word :=
  place c.runCode 0 2 ||| place (match c.wait with | some w => w.on.kind | none => 0) 4 3 ||| placeB c.hm 8 ||| placeB c.froze 16 |||
    placeB c.skip 17

/-- tc.tokens. -/
def Core.tokenWord (c : Core) : Word :=
  (List.range 8).foldl (fun w k => w ||| place (nth c.tokens.toList k 0).toNat (4 * k) 4) 0

/-- xc.epn (Table 9.11). -/
def Endpoint.word (e : Endpoint) : Word :=
  place e.state.code 0 3 ||| placeB e.send 3 ||| placeB e.rloc 4 ||| placeB e.remote 5 ||| place e.port.toNat 8 4 |||
    place e.peerep.toNat 12 4 ||| place e.peertile.toNat 16 12 ||| place e.pend.toNat 32 8

/-- xc.dman (Table 10.13). -/
def Stream.word (s : Stream) : Word :=
  place (if s.queue.isEmpty then 0 else if s.fault.isSome then 2 else 1) 0 2 ||| place s.queue.length 4 4 |||
    place s.last.toNat 8 8 ||| placeB s.err 16 ||| placeB s.range 17

/-- bl.epn (Table 7.11). -/
def TileBell.word (b : TileBell) : Word :=
  place b.next.toNat 0 32 ||| placeB b.late 32 ||| placeB b.member 33 ||| place b.out 34 2

/-! ### Write one to clear -/

/-- tc.status: FROZE and SKIP. -/
def Core.clearStatus (c : Core) (w : Word) : Core := { c with froze := c.froze && !bit w 16, skip := c.skip && !bit w 17 }

/-- vs.status: the six sticky flags. -/
def Vx.csrW1c (x : Vx) (w : Word) : Vx :=
  { x with vlzero := x.vlzero && !bit w 0, prange := x.prange && !bit w 1, sat := x.sat && !bit w 2, fovf := x.fovf && !bit w 3
           finv := x.finv && !bit w 4, fdz := x.fdz && !bit w 5 }

/-- mx.status: NAN and INF. -/
def Mx.clearStatus (m : Mx) (w : Word) : Mx := { m with nan := m.nan && !bit w 0, inf := m.inf && !bit w 1 }

/-- xc.wstat: DENIED. -/
def Xc.clearDenied (x : Xc) (w : Word) : Xc := { x with denied := x.denied && !bit w 0 }

/-- xc.dman: ERR and RANGE. -/
def Stream.clearFlags (s : Stream) (w : Word) : Stream := { s with err := s.err && !bit w 16, range := s.range && !bit w 17 }

/-- sp.hstat: BADENT and REFUSED. -/
def Pad.clearHstat (p : Pad) (w : Word) : Pad := { p with badent := p.badent && !bit w 0, refused := p.refused && !bit w 1 }

/-- sp.fe: OVERWRITE and CLOSED. -/
def Pad.clearFull (p : Pad) (w : Word) : Pad := { p with overwrite := p.overwrite && !bit w 0, closed := p.closed && !bit w 1 }

/-- sp.under: one bit a counter. -/
def Pad.clearUnder (p : Pad) (w : Word) : Pad := { p with under := p.under &&& ~~~(w.setWidth 16) }

/-- The overflow mask: one bit a record. -/
def Scale.clearOvf (s : Scale) (w : Word) : Scale := { s with ovfmask := s.ovfmask &&& ~~~w }

end Sys2Proof.Machine
end

