-- ==== Sys2Proof/Machine/Csr.lean ====
section
/-! DEFINITION. Tile control registers: the address map, reads and writes (R9, R12, R70; Tables 2.8, 3.4, 4.13, 5.2, 6.12, 7.11,
8.12, 9.11, 10.13). -/

namespace Sys2Proof.Machine

/-! ### The map -/

/-- R70: whether a chapter assigns the address. -/
def csrKnown (a : Nat) : Bool :=
  let in_ (lo n : Nat) : Bool := decide (lo ≤ a) && decide (a < lo + n)
  in_ 0x000 11 || in_ 0x010 6 || in_ 0x100 3 || in_ 0x108 13 || in_ 0x120 4 || in_ 0x200 3 || in_ 0x204 7 || in_ 0x240 64 ||
    in_ 0x280 4 || in_ 0x288 8 || in_ 0x300 97 || in_ 0x361 5 || in_ 0x370 12 || in_ 0x3E0 22 || in_ 0x400 3 || in_ 0x404 2 ||
    in_ 0x410 32 || in_ 0x440 64 || in_ 0x500 7 || in_ 0x540 128

/-! ### Reads -/

/-- The tc.* registers (Table 2.8). -/
def Tile.tcRead (t : Tile) (env : Env) (a : Nat) : Word :=
  let c := t.core
  match a with
  | 0x00 => c.idReg
  | 0x01 => c.partReg
  | 0x02 => c.status
  | 0x03 => c.cause
  | 0x04 => c.epc.setWidth 64
  | 0x05 => c.info
  | 0x06 => c.evec
  | 0x07 => c.scratch
  | 0x08 => c.waitlimit
  | 0x09 => c.tokenWord
  | 0x0A => place t.mxq.waiting.length 0 5 ||| place t.vxq.waiting.length 8 5 ||| place t.xcq.waiting.length 16 5
  | 0x10 => BitVec.ofNat 64 c.cycle
  | 0x11 => c.instret
  | 0x12 => c.waitcycles
  | 0x13 => c.freezes
  | 0x14 => c.skipped
  | 0x15 => BitVec.ofNat 64 env.now
  | _ => 0

/-- The vs.* registers (Table 6.12); `a` counts from 0x100. -/
def Vx.csr (x : Vx) (a : Nat) : Word :=
  match a with
  | 0x00 =>
    placeB x.vlzero 0 ||| placeB x.prange 1 ||| placeB x.sat 2 ||| placeB x.fovf 3 ||| placeB x.finv 4 ||| placeB x.fdz 5 |||
      place x.vl 8 7
  | 0x01 =>
    place x.faultSlot.toNat 0 2 ||| place x.faultWord.toNat 8 5 ||| placeB x.faultAtRun 13 ||| place x.faultStream.toNat 16 3
  | 0x02 => (List.range 4).foldl (fun w n => w ||| place (nth x.prog.toList n []).length (8 * n) 6) 0
  | 0x20 => x.elems
  | 0x21 => x.busy
  | 0x22 => x.stall
  | 0x23 => x.instr
  | _ => if a < 0x10 then (nth x.c.toList (a - 8) 0).setWidth 64 else nth x.s.toList (a - 0x10) 0

/-- The mx.* registers of the matrix engine (Table 4.13); `a` counts from 0x200. -/
def Mx.csr (m : Mx) (a : Nat) : Word :=
  match a with
  | 0x00 =>
    let f (p : Option Block) : Nat := match p with | some b => b.fmt | none => 0
    placeB m.nan 0 ||| placeB m.inf 1 ||| placeB m.p0.isSome 8 ||| placeB m.p1.isSome 9 ||| place (f m.p0) 12 4 |||
      place (f m.p1) 16 4 ||| place m.chain.length 24 4
  | 0x01 => m.srk.setWidth 64
  | 0x02 => m.seed
  | 0x04 => m.passes
  | 0x05 => m.busy
  | 0x06 => m.stall
  | 0x07 => m.loads
  | 0x08 => m.srpasses
  | 0x09 => m.acorr
  | 0x0A => m.sig
  | _ => (nth m.acnt.toList (a - 0x40) 0).setWidth 64

/-- The numerics registers (Tables 5.2, 5.3); `a` counts from 0x280. -/
def Scale.csr (s : Scale) (a : Nat) : Word :=
  match a with
  | 0 => s.sel.setWidth 64
  | 1 => placeB s.ovfpend 0 ||| placeB s.fatal 1 ||| place s.fcause.toNat 2 2 ||| place s.frec.toNat 8 6
  | 2 => placeB s.rollen 0 ||| place s.rollbit.toNat 1 3
  | 3 => s.ovfmask
  | _ => (s.recs[s.sel.toNat]).word (a - 8)

/-- The xc.* registers (Tables 8.12, 9.11, 10.13); `a` counts from 0x300. -/
def Xc.csr (x : Xc) (a : Nat) : Word :=
  let ep := x.epAt (a % 16)
  let st : Stream := nth x.streams.toList (a % 4) .reset
  if a < 0x10 then ep.word
  else if a < 0x20 then place ep.runits 0 32 ||| place ep.pos 32 32
  else if a < 0x30 then place ep.credits 0 32
  else if a < 0x40 then place ep.seq.toNat 0 32 ||| place ep.ptmo 32 27
  else if a < 0x50 then ep.stall
  else if a < 0x60 then ep.msgs
  else if a < 0x70 then
    match a with
    | 0x60 => x.selrot.setWidth 64
    | 0x61 => placeB x.denied 0 ||| place x.wkind.toNat 4 4 ||| place x.wreason.toNat 8 4 ||| place x.wdtile.toNat 16 12
    | 0x62 => x.wdenied
    | 0x63 => x.latedrop
    | 0x64 => x.truncs
    | _ => x.closedrop
  else if a < 0x74 then st.word
  else if a < 0x78 then BitVec.ofNat 64 (st.bytes / 256)
  else if a < 0x80 then st.descs
  else if a < 0xF0 then (nth x.cbsub.toList (a % 16) 0).setWidth 64
  else
    match a with
    | 0xF0 => x.cbrx
    | 0xF1 => x.cbdrop
    | 0xF2 => x.inj
    | 0xF3 => x.ej
    | 0xF4 => x.redwait
    | _ => x.foreign

/-- The sp.* registers (Table 3.4); `a` counts from 0x400. -/
def Pad.csr (p : Pad) (a : Nat) : Word :=
  if a < 0x10 then
    match a with
    | 0 => placeB p.badent 0 ||| placeB p.refused 1 ||| place p.last.toNat 8 6
    | 1 => placeB p.overwrite 0 ||| placeB p.closed 1 ||| place p.closedH.toNat 8 6
    | 2 => p.under.setWidth 64
    | 4 => p.corrected
    | _ => p.conflicts
  else if a < 0x20 then nth p.ctr.toList (a - 0x10) 0
  else if a < 0x30 then 0
  else nth p.h.toList (a - 0x40) 0

/-- The bl.* registers (Table 7.11); `a` counts from 0x500. -/
def Bl.csr (b : Bl) (a : Nat) : Word :=
  match a with
  | 0 => placeB b.run 0 ||| place b.stopcause 8 3 ||| place b.latched.length 16 4
  | 1 => b.pos.setWidth 64
  | 2 => b.fired
  | 3 => b.step
  | 4 => place b.modIndex.toNat 0 12 ||| place b.modCount.toNat 16 13
  | 5 => b.tol.setWidth 64
  | 6 => b.releases
  | _ =>
    if a < 0x80 then (nth b.bells.toList (a - 0x40) .reset).word else (nth b.bells.toList (a - 0x80) .reset).rel

/-- A register's value (R70). -/
def Tile.csrRead (t : Tile) (env : Env) (a : Nat) : Word :=
  if a < 0x100 then t.tcRead env a
  else if a < 0x200 then t.vx.csr (a - 0x100)
  else if a < 0x280 then t.mx.csr (a - 0x200)
  else if a < 0x300 then t.sr.csr (a - 0x280)
  else if a < 0x400 then t.xc.csr (a - 0x300)
  else if a < 0x500 then t.pad.csr (a - 0x400)
  else t.bl.csr (a - 0x500)

/-! ### Writes with rules of their own -/

/-- R80, R81: a write of a handle entry. -/
def Tile.writeHandle (t : Tile) (n : BitVec 6) (w0 : Word) : Tile :=
  let old := t.pad.h[n.toNat]
  let w := w0 &&& 0x00007FFFFFFFFF1F
  if hOwn old then { t with pad := { t.pad with refused := true, last := n } }
  else if hValid w && (!hShapeOk w || !hSkewOk t.pad.h n.toNat w) then
    { t with pad := { t.pad with h := t.pad.h.set n.toNat (w &&& ~~~(1 : Word)), badent := true, last := n } }
  else { t with pad := { t.pad with h := t.pad.h.set n.toNat w } }

/-- R93: a counter set. -/
def Tile.setCounter (t : Tile) (k : BitVec 4) (w : Word) : Tile :=
  { t with pad := { t.pad with ctr := t.pad.ctr.set k.toNat w } }

/-- R93: a counter reduced, clamped at 0 with UNDER set. -/
def Tile.subCounter (t : Tile) (k : BitVec 4) (w : Word) : Tile :=
  let v := t.pad.ctr[k.toNat]
  if v.toNat < w.toNat then
    { t with pad := { t.pad with ctr := t.pad.ctr.set k.toNat 0, under := t.pad.under ||| (1#16 <<< k.toNat) } }
  else { t with pad := { t.pad with ctr := t.pad.ctr.set k.toNat (v - w) } }

/-- R280: a whole subscription replaced. -/
def Tile.writeCbsub (t : Tile) (n : BitVec 4) (w : Word) : Tile :=
  { t with xc := { t.xc with cbsub := t.xc.cbsub.set n.toNat ((w &&& 0x3FF3).setWidth 14) } }

/-- A write to bl.ttctl (R242). -/
def Tile.writeTtctl (t : Tile) (w : Word) : Tile := if bit w 0 then t.walkerGo else t.walkerHalt

/-! ### Writes -/

def Tile.tcWrite (t : Tile) (a : Nat) (w : Word) : Tile :=
  let c := t.core
  let put (c : Core) : Tile := { t with core := c }
  match a with
  | 0x02 => put (c.clearStatus w)
  | 0x04 => put { c with epc := w.setWidth 20 &&& 0xFFFFC }
  | 0x06 => put { c with evec := w &&& 0xFFFFD }
  | 0x07 => put { c with scratch := w }
  | 0x08 => put { c with waitlimit := w }
  | _ => t

def Tile.mxWrite (t : Tile) (a : Nat) (w : Word) : Tile :=
  match a with
  | 0x00 => { t with mx := t.mx.clearStatus w }
  | 0x01 => { t with mx := { t.mx with srk := w.setWidth 32 } }
  | 0x80 => { t with sr := { t.sr with sel := w.setWidth 6 } }
  | 0x82 => { t with sr := { t.sr with rollen := bit w 0, rollbit := BitVec.ofNat 3 (fld w 1 3) } }
  | 0x83 => { t with sr := t.sr.clearOvf w }
  | _ => if 0x88 ≤ a then t.writeRec (a - 0x88) w else t

def Tile.xcWrite (t : Tile) (a : Nat) (w : Word) : Tile :=
  if a = 0x61 then { t with xc := t.xc.clearDenied w }
  else if 0x70 ≤ a ∧ a < 0x74 then
    let k : Fin 4 := ⟨(a - 0x70) % 4, Nat.mod_lt _ (by decide)⟩
    let s := t.xc.streams[k]
    { t with xc := { t.xc with streams := t.xc.streams.set k (s.clearFlags w) } }
  else if 0xE0 ≤ a ∧ a < 0xF0 then t.writeCbsub (BitVec.ofNat 4 (a - 0xE0)) w
  else t

def Tile.spWrite (t : Tile) (a : Nat) (w : Word) : Tile :=
  if a < 0x10 then
    match a with
    | 0 => { t with pad := t.pad.clearHstat w }
    | 1 => { t with pad := t.pad.clearFull w }
    | 2 => { t with pad := t.pad.clearUnder w }
    | _ => t
  else if a < 0x20 then t.setCounter (BitVec.ofNat 4 (a - 0x10)) w
  else if a < 0x30 then t.subCounter (BitVec.ofNat 4 (a - 0x20)) w
  else t.writeHandle (BitVec.ofNat 6 (a - 0x40)) w

def Tile.blWrite (t : Tile) (a : Nat) (w : Word) : Tile :=
  match a with
  | 0 => t.writeTtctl w
  | 1 => if t.bl.run then t else { t with bl := { t.bl with pos := w.setWidth 20 } }
  | _ => t

/-- A register written (R9, R12, R70): RO fields and reserved bits keep what they hold. -/
def Tile.csrWrite (t : Tile) (a : Nat) (w : Word) : Tile :=
  if a < 0x100 then t.tcWrite a w
  else if a = 0x100 then { t with vx := t.vx.csrW1c w }
  else if a < 0x200 then t
  else if a < 0x300 then t.mxWrite (a - 0x200) w
  else if a < 0x400 then t.xcWrite (a - 0x300) w
  else if a < 0x500 then t.spWrite (a - 0x400) w
  else t.blWrite (a - 0x500) w

/-! ### The instructions -/

def opCsrR (gd gs : Reg) (imm : BitVec 14) : CoreOp where
  word := wordI 0x48 gd gs imm
  bad := fun _ => gs != 0 || !csrKnown imm.toNat
  reads := []
  writes := [gd]
  go := fun env t => Tile.finish { t with core := t.core.wr gd (t.csrRead env imm.toNat) (t.core.cycle + 2) }

/-- CSR.W to a register; `only` narrows a row to the values it stands for. -/
def opCsrWIf (only : Word → Bool) (gd gs : Reg) (imm : BitVec 14) (f : Tile → Word → Tile) : CoreOp where
  word := wordI 0x49 gd gs imm
  bad := fun _ => gd != 0 || !csrKnown imm.toNat
  reads := [gs]
  writes := []
  go := fun _ t => if only (t.core.rd gs) then Tile.finish (f t (t.core.rd gs)) else .quiet t

def opCsrW (gd gs : Reg) (imm : BitVec 14) : CoreOp := opCsrWIf (fun _ => true) gd gs imm (fun t w => t.csrWrite imm.toNat w)
def opHandleWrite (h : BitVec 6) (gs : Reg) : CoreOp :=
  opCsrWIf (fun _ => true) 0 gs (BitVec.ofNat 14 (0x440 + h.toNat)) (fun t w => t.writeHandle h w)
def opCounterSet (c : BitVec 4) (gs : Reg) : CoreOp :=
  opCsrWIf (fun _ => true) 0 gs (BitVec.ofNat 14 (0x410 + c.toNat)) (fun t w => t.setCounter c w)
def opCounterSub (c : BitVec 4) (gs : Reg) : CoreOp :=
  opCsrWIf (fun _ => true) 0 gs (BitVec.ofNat 14 (0x420 + c.toNat)) (fun t w => t.subCounter c w)
def opRecordWrite (k : BitVec 3) (gs : Reg) : CoreOp :=
  opCsrWIf (fun _ => true) 0 gs (BitVec.ofNat 14 (0x288 + k.toNat)) (fun t w => t.writeRec k.toNat w)
def opWalkerStart (gs : Reg) : CoreOp := opCsrWIf (fun w => bit w 0) 0 gs 0x500 (fun t _ => t.walkerGo)
def opWalkerStop (gs : Reg) : CoreOp := opCsrWIf (fun w => !bit w 0) 0 gs 0x500 (fun t _ => t.walkerHalt)
def opCbsub (n : BitVec 4) (gs : Reg) : CoreOp :=
  opCsrWIf (fun _ => true) 0 gs (BitVec.ofNat 14 (0x3E0 + n.toNat)) (fun t w => t.writeCbsub n w)

/-! ### Engine issue (R51–R53, Tables 4.4, 6.1, 9.2) -/

/-- The engine of an opcode, when it is assigned. -/
def engineOf (op : BitVec 8) : Option Eng :=
  match op.toNat with
  | 0x80 => some .mx | 0x84 => some .mx | 0x85 => some .mx | 0x86 => some .mx | 0x88 => some .mx | 0x89 => some .mx | 0x8A => some .mx
  | 0xA0 => some .vx | 0xA1 => some .vx | 0xA2 => some .vx | 0xA3 => some .vx | 0xA4 => some .vx | 0xA6 => some .vx
  | 0xA7 => some .vx | 0xA8 => some .vx | 0xA9 => some .vx | 0xAA => some .vx | 0xAB => some .vx | 0xAC => some .vx
  | 0xC0 => some .xc | 0xC1 => some .xc | 0xC2 => some .xc | 0xC3 => some .xc | 0xC4 => some .xc | 0xC5 => some .xc
  | _ => none

/-- The operand fields that a row gives as g0: ga, gb, gc. -/
def engineG0 (op : BitVec 8) : Bool × Bool × Bool :=
  match op.toNat with
  | 0x89 => (true, false, true)
  | 0x8A => (false, false, false)
  | 0xAC => (false, true, true)
  | 0xC1 => (false, false, false)
  | 0xC3 => (false, false, false)
  | _ => (false, false, true)

/-- Whether the instruction returns a value in ga (R53). -/
def engineReturns (op : BitVec 8) : Bool :=
  match op.toNat with
  | 0xA0 => true | 0xA4 => true | 0xA6 => true | 0xA7 => true | 0xAC => true
  | 0xC1 => true | 0xC2 => true | 0xC3 => true | 0xC4 => true | 0xC5 => true
  | _ => false

/-- ENGINE_ISSUE: the instruction enters its queue, or waits for a free entry (R51). -/
def opEngine (i : Instr) (op : BitVec 8) (ga gb gc : Reg) (we : Bool) (wtok : BitVec 3) (se : Bool) (stok : BitVec 3) (r0 : Bool) :
    CoreOp where
  word := wordE op ga gb gc we wtok se stok r0
  bad := fun _ =>
    let g := engineG0 op
    (engineOf op).isNone || r0 || (g.1 && ga != 0) || (g.2.1 && gb != 0) || (g.2.2 && gc != 0)
  reads := (if engineReturns op then [] else [ga]) ++ [gb, gc]
  writes := if engineReturns op then [ga] else []
  go := fun _ t =>
    match engineOf op with
    | none => .quiet t
    | some g =>
      let q := t.queue g
      if 16 ≤ q.waiting.length then t.hold (.queue i)
      else
        let e : QEntry := ⟨op, t.core.pc, ga, t.core.rd ga, t.core.rd gb, t.core.rd gc, we, wtok, se, stok⟩
        let t1 := t.setQueue g { q with waiting := q.waiting ++ [e], issued := q.issued + 1 }
        Tile.finish { t1 with core := if engineReturns op then t1.core.setPend ga true else t1.core }

end Sys2Proof.Machine
end

