-- ==== Sys2Proof/Machine/Landing.lean ====
section
/-! DEFINITION. What reaches a tile from outside and what its scratchpad does by itself: remote writes, chalkboard writes, count
words, failure notices, freezes, scrubs, wipes (`03_scratchpad.md` R84, R87, R91, R96–R103, `08_package_mesh.md` R265). -/

namespace Sys2Proof.Machine

/-! ### Writes from outside (R84, R306) -/

/-- R84: why the exchange unit refuses a write, by the REASON codes of R306. -/
def landReason (h : Word) (off n : Nat) : Option Nat :=
  if !hValid h then some 2 else if !hRmt h then some 3 else if hLen h < off + n then some 4 else none

/-- Bytes written through a handle from outside, with SETFULL (R87). -/
def Tile.landBytes (t : Tile) (h : Word) (off : Nat) (bs : List Byte) (setfull : Bool) : TRes :=
  match t.pad.store (hCells h off bs) with
  | (pad, some b) => ⟨{ t with pad := pad }, [padFault b]⟩
  | (pad, none) => .quiet { t with pad := if setfull then pad.fillWords (hPlaces h off bs.length) else pad }

/-- An arrival counter advanced by one (R91). -/
def Tile.count (t : Tile) : Option Nat → Tile
  | some c => { t with pad := t.pad.arrive c 1 }
  | none => t

/-- A remote write at its destination: refused whole with a REASON, or written and counted. -/
def Tile.land (t : Tile) (w : WriteBody) : TRes × Option Nat :=
  let h : Word := nth t.pad.h.toList w.handle 0
  match landReason h w.off w.data.length with
  | some r => (.quiet t, some r)
  | none => ((t.landBytes h w.off w.data w.setfull).andThen (fun t1 => .quiet (t1.count w.ctr)), none)

/-- A failure notice at the writer (R306). -/
def Tile.writeFailed (t : Tile) (dtile kind reason : Nat) : Tile :=
  let x := { t.xc with wdenied := t.xc.wdenied + 1 }
  { t with xc := if x.denied then x else
      { x with denied := true, wkind := BitVec.ofNat 4 kind, wreason := BitVec.ofNat 4 reason, wdtile := BitVec.ofNat 12 dtile } }

/-! ### Chalkboard (R265) -/

/-- A delivery to a group: ignored without a subscription, refused whole by R84, or written at OFFSET of the subscription's
buffer, its counter advancing once when the write carries COUNT. -/
def Tile.chalkLand (t : Tile) (group off : Nat) (bs : List Byte) (setfull count : Bool) : TRes :=
  let sub : BitVec 14 := nth t.xc.cbsub.toList group 0
  if t.pad.wiping || !sub.getLsbD 0 then .quiet t
  else
    let h : Word := nth t.pad.h.toList (fld (sub.setWidth 64) 8 6) 0
    match landReason h off bs.length with
    | some _ => .quiet { t with xc := { t.xc with cbdrop := t.xc.cbdrop + 1 } }
    | none =>
      (t.landBytes h off bs setfull).andThen fun t1 =>
        let t2 := { t1 with xc := { t1.xc with cbrx := t1.xc.cbrx + BitVec.ofNat 64 (ceilDiv bs.length 256) } }
        .quiet (if count && sub.getLsbD 1 then t2.count (some (fld (sub.setWidth 64) 4 4)) else t2)

/-! ### Freeze, scrub, wipe (R97, R101–R103) -/

/-- A write-back: the word's codeword is whole again. What three or more wrong bits leave in the word is free (R96). -/
def Pad.writeBack (p : Pad) (w : Nat) : Pad :=
  let m := Tab.get 0 p.ecc w
  let q := { p with ecc := Tab.erase p.ecc w }
  if 3 ≤ eccWeight m then
    { q with mem := Mem.writeN q.mem (8 * w) (leBytes 8 (Config.eccWord p.draws).toNat), draws := p.draws + 1 }
  else q

/-- FREEZE: every waiting write-back is done (R97). -/
def Tile.freeze (t : Tile) : Tile :=
  if t.pad.wb.isEmpty then t
  else
    { t with pad := { t.pad.wb.foldl Pad.writeBack t.pad with wb := [] }
             core := { t.core with freezes := t.core.freezes + 1, froze := true } }

/-- SCRUB_READ: one row of the 16,384 (R101). -/
def Tile.scrub (t : Tile) : TRes :=
  let r := t.pad.scrubRow
  let s := t.pad.look (fun w => w / 8 == r)
  let t1 := { t with pad := { s.pad with scrubRow := (r + 1) % 16384 } }
  match s.bad with
  | some w => ⟨t1, [padFault w]⟩
  | none => .quiet t1

/-- A wipe starts: everything is cleared, and reads are DENIED until it completes (R102–R104). Banks
already failed stay so. -/
def Tile.wipe (t : Tile) : Tile :=
  { Tile.wiped with pad := { Pad.reset with wiping := true, failedBanks := t.pad.failedBanks, corrWords := t.pad.corrWords
                                            draws := t.pad.draws } }

/-- The read-back is over: the banks that did not read back as zero are known (R103). -/
def Tile.wipeDone (t : Tile) (failed : List Nat) : Tile :=
  { t with pad := { t.pad with wiping := false, failedBanks := (t.pad.failedBanks ++ failed).eraseDups } }

end Sys2Proof.Machine
end

