-- ==== Sys2Proof/Machine/Waits.lean ====
section
/-! DEFINITION. The core operation of each core command, and the waits that do not belong to one instruction: the watchdog,
a full queue, a pending register (`02_tile_core.md` R51, R53, R58–R60). -/

namespace Sys2Proof.Machine

/-- The tile a core command runs on and its operation, for the commands that a core decodes. -/
def coreOpOf (i : Instr) : Option CoreOp :=
  match i with
  | .add _ d a b => some (opAdd d a b)
  | .sub _ d a b => some (opSub d a b)
  | .and _ d a b => some (opAnd d a b)
  | .or _ d a b => some (opOr d a b)
  | .xor _ d a b => some (opXor d a b)
  | .shl _ d a b => some (opShl d a b)
  | .shr _ d a b => some (opShr d a b)
  | .sra _ d a b => some (opSra d a b)
  | .slt _ d a b => some (opSlt d a b)
  | .sltu _ d a b => some (opSltu d a b)
  | .min _ d a b => some (opMin d a b)
  | .max _ d a b => some (opMax d a b)
  | .minu _ d a b => some (opMinu d a b)
  | .maxu _ d a b => some (opMaxu d a b)
  | .mul _ d a b => some (opMul d a b)
  | .mulh _ d a b => some (opMulh d a b)
  | .mulhu _ d a b => some (opMulhu d a b)
  | .div _ d a b => some (opDiv d a b)
  | .divu _ d a b => some (opDivu d a b)
  | .rem _ d a b => some (opRem d a b)
  | .remu _ d a b => some (opRemu d a b)
  | .clz _ d a b => some (opClz d a b)
  | .popc _ d a b => some (opPopc d a b)
  | .addi _ d a i => some (opAddi d a i)
  | .andi _ d a i => some (opAndi d a i)
  | .ori _ d a i => some (opOri d a i)
  | .xori _ d a i => some (opXori d a i)
  | .shli _ d a i => some (opShli d a i)
  | .shri _ d a i => some (opShri d a i)
  | .srai _ d a i => some (opSrai d a i)
  | .slti _ d a i => some (opSlti d a i)
  | .sltiu _ d a i => some (opSltiu d a i)
  | .liu _ d i => some (opLiu d i)
  | .ldB _ d a h i => some (opLdB d a h i)
  | .ldBu _ d a h i => some (opLdBu d a h i)
  | .ldH _ d a h i => some (opLdH d a h i)
  | .ldHu _ d a h i => some (opLdHu d a h i)
  | .ldW _ d a h i => some (opLdW d a h i)
  | .ldWu _ d a h i => some (opLdWu d a h i)
  | .ldD _ d a h i => some (opLdD d a h i)
  | .stB _ d a h i => some (opStB d a h i)
  | .stH _ d a h i => some (opStH d a h i)
  | .stW _ d a h i => some (opStW d a h i)
  | .stD _ d a h i => some (opStD d a h i)
  | .la _ d a h i => some (opLa d a h i)
  | .ldFe l d a h i => some (opLdFe (.ldFe l d a h i) d a h i)
  | .stEf l d a h i => some (opStEf (.stEf l d a h i) d a h i)
  | .ldF _ d a h i => some (opLdF d a h i)
  | .stF _ d a h i => some (opStF d a h i)
  | .beq _ a b o => some (opBeq a b o)
  | .bne _ a b o => some (opBne a b o)
  | .blt _ a b o => some (opBlt a b o)
  | .bge _ a b o => some (opBge a b o)
  | .bltu _ a b o => some (opBltu a b o)
  | .bgeu _ a b o => some (opBgeu a b o)
  | .jal _ d o => some (opJal d o)
  | .jalr _ d a i => some (opJalr d a i)
  | .enter _ d a id hi => some (opBell 0 d a id hi)
  | .arrive _ d a id hi => some (opBell 1 d a id hi)
  | .wait _ d a id hi => some (opBell 2 d a id hi)
  | .waitc _ d a i => some (opWaitc d a i)
  | .tsig _ d a i => some (opTsig d a i)
  | .twait _ d a i => some (opTwait d a i)
  | .fence _ d a i => some (opFence d a i)
  | .halt _ d a i => some (opHalt d a i)
  | .exc _ d a i => some (opExc d a i)
  | .eret _ d a i => some (opEret d a i)
  | .csrR _ d a i => some (opCsrR d a i)
  | .csrW _ d a i => some (opCsrW d a i)
  | .engineIssue l op a b c we wt se st r => some (opEngine (.engineIssue l op a b c we wt se st r) op a b c we wt se st r)
  | .spHandleWrite _ h g => some (opHandleWrite h g)
  | .counterSet _ c g => some (opCounterSet c g)
  | .counterSubtract _ c g => some (opCounterSub c g)
  | .scaleRecordWrite _ w g => some (opRecordWrite w g)
  | .walkerStart _ g => some (opWalkerStart g)
  | .walkerStop _ g => some (opWalkerStop g)
  | .cbsubWrite _ n g => some (opCbsub n g)
  | _ => none

/-- Whether a held instruction's queue has a free entry (R51). -/
def Tile.queueFree (t : Tile) (i : Instr) : Bool :=
  match i with
  | .engineIssue _ op _ _ _ _ _ _ _ _ =>
    match engineOf op with
    | some g => decide ((t.queue g).waiting.length < 16)
    | none => true
  | _ => true

/-- Whether no register a held instruction names is pending (R53). -/
def Tile.resultsIn (t : Tile) (i : Instr) : Bool :=
  match coreOpOf i with
  | some op => !(op.reads ++ op.writes).any t.core.isPend
  | none => true

/-- Whether a wait's condition is true (Table 2.5). -/
def Tile.waitMet (t : Tile) (w : WaitOn) : Bool :=
  match w with
  | .bell _ id e => (t.bl.bell id).released e
  | .waitc _ k target => decide (target.toNat ≤ (t.pad.ctr[k.toNat]).toNat)
  | .twait k => t.mayTake k 3
  | .fullempty _ load _ h off => t.feReady load h off
  | .fence mx vx xc => t.fencePassed mx vx xc
  | .halt => t.allDrained
  | .queue i => t.queueFree i
  | .result i => t.resultsIn i

/-- WAIT_LIMIT (R59, R60, R63): a wait whose count reaches tc.waitlimit with its condition still false. -/
def Tile.limitReached (t : Tile) : TRes :=
  match t.core.wait with
  | some w =>
    if w.limit = 0 || t.waitMet w.on then .quiet t
    else
      let c := t.core.endWait w.limit.toNat
      let resume := match w.on with | .bell gd id e => some (t.core.pc, gd, id, e) | _ => none
      Tile.raiseHere { t with core := c, bl := { t.bl with resume := resume } } 0x06 (place w.on.kind 0 3)
  | none => .quiet t

/-- A held instruction issues again when what it waited for is there. -/
def Tile.reissue (t : Tile) (i : Instr) (env : Env) (n : Nat) : TRes :=
  match coreOpOf i with
  | some op => op.step i env { t with core := t.core.endWait n }
  | none => .quiet t

/-- QUEUE_WAIT_END (R51, R58). -/
def Tile.queueWaitEnd (t : Tile) (env : Env) (n : Nat) : TRes :=
  match t.core.wait with
  | some ⟨.queue i, lim⟩ => if t.queueFree i && limitAllows lim n then t.reissue i env n else .quiet t
  | _ => .quiet t

/-- RESULT_WAIT_END (R53, R58). -/
def Tile.resultWaitEnd (t : Tile) (env : Env) (n : Nat) : TRes :=
  match t.core.wait with
  | some ⟨.result i, lim⟩ => if t.resultsIn i && limitAllows lim n then t.reissue i env n else .quiet t
  | _ => .quiet t

end Sys2Proof.Machine
end

