-- ==== Sys2Proof/Machine/Ops.lean ====
section
/-! DEFINITION. The named operations over the whole state: units by number, draws, host memory, rings, events, interrupts, logs, replies
(`13_host_interface_and_commands.md`, `16_faults_and_availability.md` 16.2). -/

namespace Sys2Proof.Machine

/-! ### Units by number -/

def State.part (s : State) (p : Nat) : Part := nth s.parts.toList p .reset
def State.setPart (s : State) (p : Nat) (x : Part) : State := if h : p < 8 then { s with parts := s.parts.set p x } else s
def State.modPart (s : State) (p : Nat) (f : Part → Part) : State := s.setPart p (f (s.part p))

def State.port (s : State) (k : Nat) : Port := nth s.ports.toList k .reset
def State.setPort (s : State) (k : Nat) (x : Port) : State := if h : k < 16 then { s with ports := s.ports.set k x } else s

def State.fn (s : State) (f : Nat) : Fn := nth s.fns.toList f .reset
def State.setFn (s : State) (f : Nat) (x : Fn) : State := if h : f < 9 then { s with fns := s.fns.set f x } else s
def State.modFn (s : State) (f : Nat) (g : Fn → Fn) : State := s.setFn f (g (s.fn f))

/-- The chart entry of a logical tile. -/
def State.seat (s : State) (l : Nat) : Seat := Tab.get ⟨ownSite l, 0, false, false⟩ s.seats l
def State.setSeat (s : State) (l : Nat) (e : Seat) : State := { s with seats := Tab.put s.seats l e }

/-- The tile at a site, and the tile on a logical tile's duty. -/
def State.siteTile (s : State) (x : Nat) : Tile := Tab.get .wiped s.tiles x
def State.setSiteTile (s : State) (x : Nat) (t : Tile) : State := { s with tiles := Tab.put s.tiles x t }
def State.tile (s : State) (l : Nat) : Tile := s.siteTile (s.seat l).site
def State.setTile (s : State) (l : Nat) (t : Tile) : State := s.setSiteTile (s.seat l).site t

/-- Time moves on to `t`, if it lies ahead. -/
def State.until (s : State) (t : Nat) : State := { s with now := Nat.max s.now t }

/-- The next free or random value's number. -/
def State.draw (s : State) : Nat × State := (s.draws, { s with draws := s.draws + 1 })

/-! ### Partitions and their tiles (R271) -/

def Part.exists_ (p : Part) : Bool := p.state != .none

/-- The partition-relative number of a logical tile, and the logical tile of a partition-relative number. -/
def Part.relOf (p : Part) (l : Nat) : Nat :=
  let x := ownSite l
  rectIndex (8 * p.bx) (8 * p.by_) (8 * p.bw) (x % 56) (x / 56)
def Part.logical (p : Part) (r : Nat) : Nat :=
  let c := rectFind (8 * p.bx) (8 * p.bw) (8 * p.bh) (8 * p.by_) r
  logicalOf c.1 c.2
/-- The logical tiles of a partition, by partition-relative number. -/
def Part.tiles (p : Part) : List Nat := (List.range p.count).map p.logical

/-- Every tile of a partition changed. -/
def State.eachTile (s : State) (p : Nat) (f : Nat → Tile → Tile) : State :=
  (s.part p).tiles.foldl (fun s l => s.setTile l (f l (s.tile l))) s

/-! ### Fields in 32-bit halves (R430) -/

/-- A field of an event or log record: 32 or 64 bits. -/
inductive Fl where
  | h (v : Nat)
  | d (v : Nat)
  deriving DecidableEq, Repr

/-- Fields in order, low half first, a 64-bit field at the next aligned pair. -/
def packHalves (fs : List Fl) : List Nat :=
  fs.foldl (fun hs f =>
    match f with
    | .h v => hs ++ [v % 2 ^ 32]
    | .d v =>
      let hs' := if hs.length % 2 == 0 then hs else hs ++ [0]
      hs' ++ [v % 2 ^ 32, v / 2 ^ 32 % 2 ^ 32]) []

/-- Halves as little-endian bytes, `n` words in all. -/
def halfBytes (n : Nat) (hs : List Nat) : List Byte :=
  (List.range (2 * n)).map (fun k => leBytes 4 (nth hs k 0)) |>.flatten

/-! ### Host memory, rings, interrupts (R419, R430–R432) -/

def State.hostWrite (s : State) (a : Nat) (bs : List Byte) : State := { s with host := Mem.writeN s.host a bs }

def Ring.size (r : Ring) : Nat := 2 ^ r.log2.force
def Ring.free (r : Ring) : Bool := r.en.force && (r.tail + 1) % r.size != r.head % r.size
def Ring.next (r : Ring) : Ring :=
  let t := (r.tail + 1) % r.size
  { r with tail := t, phase := if t = 0 then !r.phase else r.phase }
def Ring.addr (r : Ring) : Nat := r.base.force + 64 * r.tail

/-- A vector is raised, or held pending while it is masked. -/
def Vector_.fire (v : Vector_) : Vector_ :=
  if v.masked then { v with waits := true, gathered := 0, first := none }
  else { v with raised := v.raised + 1, gathered := 0, first := none }

/-- A write that vector 0 or 1 tells of (R432). -/
def Fn.notify (f : Fn) (k now : Nat) : Fn :=
  if h : k < 4 then
    let v := f.msix[k]
    let v' := { v with gathered := v.gathered + 1, first := some (v.first.getD now) }
    let go := f.imodCount ≤ 1 || f.imodDelay = 0 || decide (f.imodCount ≤ v'.gathered)
    { f with msix := f.msix.set k (if go then v'.fire else v') }
  else f

/-- Vector 2 on every function (R410). -/
def State.readinessIrq (s : State) : State :=
  { s with fns := s.fns.map (fun f => { f with msix := f.msix.set 2 (f.msix[2].fire) }) }

/-! ### Events (R430, R431) -/

/-- An event record's bytes (Table 13.13). -/
def Event.bytes (e : Event) (phase : Bool) : List Byte :=
  leBytes 8 (e.code + (match e.part with | some p => p * 2 ^ 16 + 2 ^ 19 | none => 0)) ++ leBytes 8 e.seq ++ leBytes 8 e.time ++
    halfBytes 4 e.halves ++ leBytes 8 (if phase then 2 ^ 63 else 0)

/-- One event written to the function's ring. -/
def State.writeEvent (s : State) (f : Nat) (e : Event) : State :=
  let fn := s.fn f
  let s1 := s.hostWrite fn.ev.addr (e.bytes fn.ev.phase)
  s1.setFn f ({ fn with ev := fn.ev.next }.notify 1 s.now)

/-- Events of classes 3, 6, 8 and 9 also go out through Prigar, without partition data (R436). -/
def State.alert (s : State) (code : Nat) (fs : List Fl) : State :=
  if [3, 6, 8, 9].contains (code / 4096) then { s with up := { s.up with alerts := s.up.alerts ++ [⟨code, none, 0, s.now, packHalves fs⟩] } }
  else s

/-- An event for one function, which takes its next SEQ: written, held, or lost (R430, R431). -/
def State.postTo (s : State) (f code : Nat) (part : Option Nat) (fs : List Fl) : State :=
  let fn := s.fn f
  let e : Event := ⟨code, part, fn.nextSeq, s.now, packHalves fs⟩
  let fn1 := { fn with nextSeq := fn.nextSeq + 1 }
  let c := code / 4096
  if !fn.classes.force.testBit (c - 1) then s.setFn f fn1
  else if fn.held.isEmpty && fn.gap.isNone && fn.ev.free then (s.setFn f fn1).writeEvent f e
  else if fn.held.length < 256 then s.setFn f { fn1 with held := fn.held ++ [e] }
  else
    s.setFn f { fn1 with lost := fn.lost + 1
                         gap := match fn.gap with | some (n, q) => some (n + 1, q) | none => some (1, e.seq) }

/-- An event posted to one function. -/
def State.sendEvent (s : State) (f code : Nat) (part : Option Nat) (fs : List Fl) : State := (s.postTo f code part fs).alert code fs

/-- An event for a partition's function (R403). -/
def State.partEvent (s : State) (p code : Nat) (fs : List Fl) : State := s.sendEvent (s.part p).func code (some p) fs
/-- An event for the physical function that names no partition. -/
def State.modEvent (s : State) (code : Nat) (fs : List Fl) : State := s.sendEvent 0 code none fs
/-- An event for the physical function and, when another, the partition's function. -/
def State.bothEvent (s : State) (p : Option Nat) (code : Nat) (fs : List Fl) : State :=
  let s1 := s.sendEvent 0 code p fs
  match p with
  | some p => if (s.part p).func = 0 then s1 else s1.postTo (s.part p).func code (some p) fs
  | none => s1

/-! ### Logs (R493, R494) -/

/-- A record appended; a full log overwrites its oldest record. -/
def Log.add (g : Log) (cap : Nat) (time kind ltile part : Nat) (fs : List Fl) : Log :=
  let rs := g.recs ++ [⟨g.next, time, kind, ltile, part, packHalves fs⟩]
  ⟨if cap < rs.length then rs.drop 1 else rs, g.next + 1⟩

def State.partLog (s : State) (p kind ltile : Nat) (fs : List Fl) : State :=
  s.modPart p (fun x => { x with log := x.log.add 65536 s.now kind ltile p fs })

def State.modLog (s : State) (kind ltile part : Nat) (fs : List Fl) : State :=
  { s with faults := { s.faults with modLog := s.faults.modLog.add 262144 s.now kind ltile part fs } }

/-- A log record's 64 bytes (Table 16.2). -/
def LogRec.bytes (r : LogRec) : List Byte :=
  leBytes 8 r.num ++ leBytes 8 r.time ++ leBytes 8 (r.kind % 256 + r.ltile % 4096 * 2 ^ 16 + r.part % 8 * 2 ^ 32) ++ halfBytes 5 r.halves

/-! ### Replies (R415, R418, R419) -/

/-- A command ends: its reply is due, or CMD_DONE when it was deferred; the reply of a function that was reset is discarded. -/
def State.finish (s : State) (c : Cmd) (status : Nat) (result : List Word) (detail : Nat) : State :=
  let s1 := { s with cmds := s.cmds.filter (fun d => !(d.func == c.func && d.slot == c.slot && d.at_ == c.at_ && d.seq == c.seq)) }
  if c.silent then s1
  else
    let r : Reply := ⟨c.slot, status, c.opcode, false, c.seq, c.tag, result, detail, c.noint⟩
    s1.modFn c.func (fun f => if c.deferred then { f with dones := f.dones ++ [r] } else { f with replies := f.replies ++ [r] })

/-- The outstanding command of a function's slot. -/
def State.cmdAt (s : State) (f k : Nat) : Option Cmd := s.cmds.find? (fun c => c.func == f && c.slot == k && !c.deferred)

/-- An outstanding command replaced. -/
def State.setCmd (s : State) (c d : Cmd) : State :=
  { s with cmds := s.cmds.map (fun e => if e.func == c.func && e.slot == c.slot && e.at_ == c.at_ && e.seq == c.seq then d else e) }

/-- A reply's 64 bytes (Table 13.7); below version 3.1 word 1 is zero (Table 13.8). -/
def Reply.bytes (r : Reply) (ver : Nat) (phase : Bool) : List Byte :=
  leBytes 8 (r.status * 2 ^ 56 + r.opcode * 2 ^ 48 + (if r.deferred then 2 ^ 47 else 0) + r.slot * 2 ^ 32 + r.seq.toNat) ++
    leBytes 8 (if ver < 0x31 then 0 else r.tag.toNat) ++
    ((List.range 5).map (fun k => leBytes 8 (nth r.result k 0).toNat)).flatten ++
    leBytes 8 (r.detail % 2 ^ 32 + (if phase then 2 ^ 63 else 0))

end Sys2Proof.Machine
end

