-- ==== Sys2Proof/Machine/Gradebook.lean ====
section
/-! DEFINITION. The gradebook: records, counted events, permanent-faulty units, retirement and release; the class D errors
(`16_faults_and_availability.md` 16.1, 16.4, 16.5). -/

namespace Sys2Proof.Machine

/-! ### Records (R502–R504) -/

def gradeKey (cls unit : Nat) : Nat := 65536 * cls + unit

def State.grade (s : State) (cls unit : Nat) : Grade := Tab.get .fresh s.faults.grade (gradeKey cls unit)

def State.setGrade (s : State) (cls unit : Nat) (g : Grade) : State :=
  { s with faults := { s.faults with grade := Tab.put s.faults.grade (gradeKey cls unit) g } }

def State.modGrade (s : State) (cls unit : Nat) (f : Grade → Grade) : State := s.setGrade cls unit (f (s.grade cls unit))

/-- Powered seconds since manufacture (R502). -/
def State.life (s : State) : Nat := s.faults.lifeBase + s.now / 1000000000

/-- A record written to service flash at once (R502). -/
def State.flashGrade (s : State) (cls unit : Nat) : State :=
  { s with faults := { s.faults with flash := Tab.put s.faults.flash (gradeKey cls unit) (s.grade cls unit) } }

/-- A saturating bin of a histogram advanced by `n`. -/
def bump (h : List Nat) (k n : Nat) : List Nat := h.set k (Nat.min (nth h k 0 + n) (2 ^ 32 - 1))

/-- Log bins: 0, then 2^(k − 1) to 2^k − 1, then 2^14 and above (R502). -/
def logBin (v : Nat) : Nat := if v = 0 then 0 else Nat.min 15 (v.log2 + 1)

/-- Degree bins (R502). -/
def degBin (t : Nat) : Nat := if t < 44 then 0 else Nat.min 15 ((t - 40) / 4)

/-- Whether a unit is out of service. -/
def Grade.out (g : Grade) : Bool := g.state == 2 || g.state == 4

/-- Windows of hours are kept in life seconds: the events of the last 720 h (R503). -/
def Grade.window (g : Grade) (life : Nat) : Nat := (g.events.filter (fun e => life < e + 2592000)).length

/-- A counted event in a record (R504). -/
def Grade.counted (g : Grade) (life addr : Nat) (proctor : Bool) : Grade :=
  { g with
    first := if g.contained + g.proctor = 0 then life else g.first
    last := life
    contained := if proctor then g.contained else g.contained + 1
    proctor := if proctor then g.proctor + 1 else g.proctor
    events := g.events.filter (fun e => life < e + 2592000) ++ [life]
    lastAddr := addr
    addrs := if g.addrs.contains addr then g.addrs else g.addrs ++ [addr] }

/-- Whether a counted event at an address makes the unit permanent-faulty (R504). -/
def Grade.condemned (before after : Grade) (life addr : Nat) : Bool :=
  decide (3 ≤ after.window life) || (addr != 0 && before.addrs.contains addr)

/-! ### Substitutes (R270–R273) -/

/-- The logical tile that sits at a site, if any. -/
def State.seatedAt (s : State) (x : Nat) : Option Nat :=
  match List.find? (fun (e : Nat × Seat) => e.2.site == x) s.seats with
  | some e => some e.1
  | none =>
    if isSubSite (x % 56) (x / 56) then none
    else
      let l := logicalOf (x % 56) (x / 56)
      if (s.seat l).site = x then some l else none

/-- Whether a site runs a test. -/
def State.testing (s : State) (x : Nat) : Bool := s.faults.tests.any (fun t => t.kind ≤ 2 && t.site == x && t.running)

/-- A substitute that sits no tile, is in service and is under no test. -/
def State.subFree (s : State) (x : Nat) : Bool :=
  (s.seatedAt x).isNone && !(s.grade 1 x).out && (s.grade 1 x).state != 1 && !s.testing x && !(s.siteTile x).pad.wiping

/-- Whether a site lies in a partition's rectangle. -/
def Part.covers (p : Part) (x : Nat) : Bool :=
  p.exists_ && decide (8 * p.bx ≤ x % 56) && decide (x % 56 < 8 * (p.bx + p.bw)) && decide (8 * p.by_ ≤ x / 56) &&
    decide (x / 56 < 8 * (p.by_ + p.bh))

/-- The substitute firmware takes for a logical tile (R273): free, on the tile's die, one inside the owner's rectangle first,
then the fewest hops to the tile's own site, then the lowest site. -/
def State.substitute (s : State) (owner : Option Nat) (l : Nat) : Option Nat :=
  let home := ownSite l
  let cost (x : Nat) : Nat :=
    (match owner with | some p => (if (s.part p).covers x then 0 else 1000) | none => 0) + hops x home
  ((subsOfDie (dieOf home)).filter s.subFree).foldl
    (fun best x => match best with | some b => if cost x < cost b then some x else some b | none => some x) none

/-- Free substitutes of a die. -/
def State.subsLeft (s : State) (d : Nat) : Nat := ((subsOfDie d).filter s.subFree).length

/-! ### Retirement (R505, R339) -/

/-- UNIT_RETIRED and STATE 2, or 4 at the second time (R505, R506). -/
def State.retired (s : State) (cls unit left : Nat) : State :=
  let s1 := s.modGrade cls unit (fun g =>
    { g with state := if g.retirements = 0 then 2 else 4, retiredAt := s.life, retirements := g.retirements + 1 })
  (s1.flashGrade cls unit).modEvent 0x6008 [.h cls, .h unit, .h left]

/-- Pseudo-channels in service (HI_HBM.PCS): the stacks that came up less the channels out of service. -/
def State.pcsLeft (s : State) : Nat :=
  ((List.range 256).filter (fun c => !s.up.failed.getLsbD (5 + c / 32) && !s.hbm.retired.contains c)).length

/-- The owner of a pseudo-channel and its slot. -/
def State.pcOwner (s : State) (c : Nat) : Option (Nat × Nat) :=
  (List.range 8).findSome? fun p =>
    if (s.part p).exists_ then
      ((List.range (s.part p).slots.length).find? (fun k =>
        match (s.part p).slots[k]? with
        | some x => 32 * x.stack + x.pc == c && x.state != .retired
        | none => false)).map (fun k => (p, k))
    else none

/-- MM_CHANNEL_RETIRED: slot, stack and channel, 0 PENDING or 1 RETIRED (R339). -/
def State.channelEvent (s : State) (p : Option Nat) (slot c state : Nat) : State :=
  s.bothEvent p 0x4002 [.h slot, .h (c / 32), .h (c % 32), .h state]

def State.setSlot (s : State) (p k : Nat) (st : SlotState) : State :=
  s.modPart p (fun x => { x with slots := (List.range x.slots.length).filterMap (fun i =>
    (x.slots[i]?).map (fun e => if i = k then { e with state := st } else e)) })

/-- A pseudo-channel leaves service. -/
def State.retirePc (s : State) (c : Nat) : State :=
  let s1 := { s with hbm := { s.hbm with retired := if s.hbm.retired.contains c then s.hbm.retired else s.hbm.retired ++ [c] } }
  s1.retired 3 c s1.pcsLeft

/-- A slot's retirement takes effect. -/
def State.retireSlot (s : State) (p k : Nat) : State :=
  match (s.part p).slots[k]? with
  | some x =>
    (((s.setSlot p k .retired).modPart p (fun y => { y with mm := { y.mm with tlb := [] } })).retirePc (32 * x.stack + x.pc)).channelEvent (some p) k (32 * x.stack + x.pc) 1
  | none => s

/-- A pseudo-channel is declared permanent-faulty (R339). -/
def State.condemnPc (s : State) (c : Nat) : State :=
  match s.pcOwner c with
  | some (p, k) => (s.setSlot p k .retiring).channelEvent (some p) k c 0
  | none => s.retirePc c

/-- A site that holds no duty leaves service: a tile of no partition is seated on a substitute when one is free (R505, R273). -/
def State.condemnSite (s : State) (x : Nat) : State :=
  match s.seatedAt x with
  | some l =>
    if (s.seat l).valid then s
    else
      match s.substitute none l with
      | some y => (s.setSeat l ⟨y, 0, false, false⟩).retired 1 x (s.subsLeft (dieOf x) - 1)
      | none => s.retired 1 x 0
  | none => s.retired 1 x (s.subsLeft (dieOf x))

/-- UNIT_PERMANENT (R504). -/
def State.permanent (s : State) (cls unit : Nat) : State :=
  (s.modGrade cls unit (fun g => { g with state := 1 })).modEvent 0x6007 [.h cls, .h unit]

/-- A unit is declared permanent-faulty, unless it is already, or is out of service. -/
def State.condemn (s : State) (cls unit : Nat) : State :=
  if (s.grade cls unit).state = 1 || (s.grade cls unit).out then s
  else
    let s1 := s.permanent cls unit
    match cls with
    | 1 => s1.condemnSite unit
    | 2 =>
      let x := unit / 16
      if (s1.grade 1 x).state = 1 || (s1.grade 1 x).out then s1 else (s1.permanent 1 x).condemnSite x
    | 3 => s1.condemnPc unit
    | 4 =>
      let x := s1.port (unit / 4)
      if x.retired.testBit (unit % 4) then s1 else s1.setPort (unit / 4) { x with toRetire := x.toRetire ||| 2 ^ (unit % 4) }
    | _ => s1

/-- A counted event: a class D error or another contained event, or a proctor event (R504). -/
def State.countGrade (s : State) (cls unit addr : Nat) (proctor : Bool) : State :=
  let g := s.grade cls unit
  let g' := g.counted s.life addr proctor
  let s1 := s.setGrade cls unit g'
  (if g.condemned g' s.life addr then s1.condemn cls unit else s1).flashGrade cls unit

/-- A note without count (Table 16.4). -/
def State.noteGrade (s : State) (cls unit : Nat) : State := s.modGrade cls unit (fun g => { g with notes := satAdd 16 g.notes 1 })

/-- Corrected errors of a unit (class C). -/
def State.correctGrade (s : State) (cls unit n : Nat) : State :=
  s.modGrade cls unit (fun g => { g with corrected := g.corrected + n, tally := g.tally + n })

/-- A corrected word of a bank: in its sixteenth distinct hour within 24 h it counts as one contained event (R504). -/
def State.correctWord (s : State) (unit addr : Nat) : State :=
  let hour := s.life / 3600
  let g := s.grade 2 unit
  let old := (Tab.get [] g.hours addr).filter (fun h => hour < h + 24)
  if old.contains hour then s
  else if 15 ≤ old.length then
    (s.setGrade 2 unit { g with hours := Tab.erase g.hours addr }).countGrade 2 unit addr false
  else s.setGrade 2 unit { g with hours := Tab.put g.hours addr (old ++ [hour]) }

/-- The corrected words of a site's tile enter the gradebook (R99, R504). -/
def State.gradeWords (s : State) (x : Nat) : State :=
  let t := s.siteTile x
  if t.pad.corrWords.isEmpty then s
  else
    let ws := t.pad.corrWords
    let s1 := s.setSiteTile x { t with pad := { t.pad with corrWords := [] } }
    let rows := (ws.map (· / 8)).eraseDups
    let s2 := rows.foldl (fun s r => s.correctGrade 2 (16 * x + r / 1024) 1) s1
    ws.foldl (fun s w => s.correctWord (16 * x + w / 8192) (w % 8192)) s2

/-! ### Class D errors (R490–R492) -/

/-- A class D error is recorded: gradebook and module log (R493). -/
def State.recordD (s : State) (p cls unit addr : Nat) : State :=
  (s.countGrade cls unit addr false).modLog 8 0xFFF p [.h cls, .h unit, .d addr]

/-- A class D error of a partition is detected: from that moment its HBM is refused (R491); one of no partition, of a HELD
partition or of one already ENDING is recorded only, and one that joins a class D reset is also reported (R492). -/
def State.classD (s : State) (p : Option Nat) (cls unit addr : Nat) : State :=
  match p with
  | some p =>
    let x := s.part p
    if x.state = .ending ∧ x.ending = some .classD then
      (s.recordD p cls unit addr).bothEvent (some p) 0x6002 [.h cls, .h unit, .d addr, .d s.now]
    else if x.state = .held || x.state = .ending || !x.exists_ then s.recordD p cls unit addr
    else
      let s1 := { s with faults := { s.faults with derrs := s.faults.derrs ++ [DErr.mk p cls unit addr s.now] } }
      s1.setPart p { x with refused := true }
  | none => s.recordD 0 cls unit addr

end Sys2Proof.Machine
end

