-- ==== Sys2Proof/Machine/Hbm.lean ====
section
/-! DEFINITION. HBM bytes, keys, poison and the translation of device virtual addresses; the locker's bytes
(`10_memory_tiers.md` R311–R316, R333–R338, R341–R343). -/

namespace Sys2Proof.Machine

/-! ### Module physical addresses (R311, R333) -/

/-- Where a PPA lies: its slot's pseudo-channel and offset, as a module physical address. -/
def Part.physOf (p : Part) (ppa : Nat) : Option Nat :=
  match p.slots[ppa / 2 ^ 31]? with
  | some x => some ((32 * x.stack + x.pc) * 2 ^ 31 + ppa % 2 ^ 31)
  | none => none

/-- RANGE or RETIRED of a location (Table 10.3). -/
def Part.placeFault (p : Part) (ppa : Nat) : Option Nat :=
  match p.slots[ppa / 2 ^ 31]? with
  | none => some 3
  | some x => if 0x60000000 ≤ ppa % 2 ^ 31 then some 3 else if x.state = .retired then some 4 else none

/-! ### Bytes under a key (R333, R334, R338) -/

/-- One byte read under a key: what was written under that key, or an unpredictable value. -/
def Hbm.byte (h : Hbm) (key a : Nat) : Byte :=
  if Tab.find? h.keys (a / 64) = some key then (Tab.find? h.cells a).getD (Config.hbmFill key a) else Config.hbmFill key a

/-- Bytes of one 64-byte unit written under a key; the whole unit is written with them, which under another key loses what it
held; a write of all 64 bytes clears poison and errors. -/
def Hbm.putUnit (h : Hbm) (key a : Nat) (bs : List Byte) : Hbm :=
  let u := a / 64
  let base := if Tab.find? h.keys u = some key then h.cells else Tab.clear h.cells (64 * u) 64
  let cells := (List.range bs.length).foldl (fun m i => Tab.put m (a + i) (nth bs i 0)) base
  let h1 := { h with cells := cells, keys := Tab.put h.keys u key }
  if bs.length = 64 then
    { h1 with poison := h1.poison.filter (· != u), bad := h1.bad.filter (· != u), weak := h1.weak.filter (· != u) }
  else h1

/-- What an access to one unit finds: its bytes, poison, or an uncorrectable error met now. -/
inductive Found where
  | bytes (bs : List Byte)
  | poisoned
  | dead
  deriving DecidableEq, Repr

/-- A unit is poisoned (R337). -/
def Hbm.spoil (h : Hbm) (u : Nat) : Hbm :=
  { h with poison := if h.poison.contains u then h.poison else h.poison ++ [u], bad := h.bad.filter (· != u) }

/-- A demand read of at most one unit's bytes by partition `p` (R336–R338). -/
def State.hbmGet (s : State) (p key a n : Nat) : State × Found :=
  let u := a / 64
  if s.hbm.poison.contains u then (s, .poisoned)
  else if s.hbm.bad.contains u then
    (({ s with hbm := s.hbm.spoil u }).classD (some p) 3 (a / 2 ^ 31) u, .dead)
  else
    let s1 := if s.hbm.weak.contains u then
        ({ s with hbm := { s.hbm with weak := s.hbm.weak.filter (· != u) } }).correctGrade 3 (a / 2 ^ 31) 1
      else s
    (s1, .bytes ((List.range n).map (fun i => s1.hbm.byte key (a + i))))

/-- A demand write of at most one unit's bytes. One of part of a unit reads the rest, which may be poisoned or in error. -/
def State.hbmPut (s : State) (p key a : Nat) (bs : List Byte) : State × Found :=
  if bs.length = 64 then ({ s with hbm := s.hbm.putUnit key a bs }, .bytes [])
  else
    match s.hbmGet p key a 0 with
    | (s1, .bytes _) => ({ s1 with hbm := s1.hbm.putUnit key a bs }, .bytes [])
    | r => r

/-! ### Translation (R314–R316) -/

/-- The end of a translation: a module physical address with its key, a fault reason, or a class D error met on the way. -/
inductive Xlate where
  | found (pa key : Nat)
  | fault (reason : Nat)
  | dead
  deriving DecidableEq, Repr

/-- One table entry read under the retain key. -/
def State.readEntry (s : State) (p ppa : Nat) : State × Except Xlate Word :=
  let x := s.part p
  match x.placeFault ppa with
  | some r => (s, .error (.fault r))
  | none =>
    match s.hbmGet p x.keyRet ((x.physOf ppa).getD 0) 8 with
    | (s1, .bytes bs) => (s1.modPart p (fun y => { y with mm := { y.mm with rdbytes := y.mm.rdbytes + 8 } }), .ok (wordAt bs 0))
    | (s1, .poisoned) => (s1, .error (.fault 5))
    | (s1, .dead) => (s1, .error .dead)

/-- Steps 5–7 of R315 for a second-level entry. -/
def finishWalk (p : Part) (e : Word) (big : Bool) (page : Nat) (write : Bool) : Except Xlate TlbEntry :=
  if !bit e 0 then .error (.fault 1)
  else if outside e (if big then 0x7FFFE00007 else 0x7FFFFF0007) then .error (.fault 2)
  else
    let frame := if big then fld e 21 18 * 2 ^ 21 else fld e 16 23 * 2 ^ 16
    match p.placeFault frame with
    | some r => .error (.fault r)
    | none => if write && !bit e 1 then .error (.fault 6) else .ok ⟨page, if big then 2 ^ 21 else 2 ^ 16, frame, bit e 1, bit e 2⟩

/-- The walk of R315. -/
def State.walk (s : State) (p dva : Nat) (write : Bool) : State × Except Xlate TlbEntry :=
  let x := s.part p
  if !x.mm.valid.force then (s, .error (.fault 1))
  else
    match s.readEntry p (x.mm.root.force * 4096 + 8 * (dva / 2 ^ 30)) with
    | (s1, .error e) => (s1, .error e)
    | (s1, .ok e1) =>
      if !bit e1 0 then (s1, .error (.fault 1))
      else if outside e1 0x7FFFFFF003 then (s1, .error (.fault 2))
      else
        let big := bit e1 1
        let idx := if big then dva / 2 ^ 21 % 512 else dva / 2 ^ 16 % 16384
        match s1.readEntry p (fld e1 12 27 * 4096 + 8 * idx) with
        | (s2, .error e) => (s2, .error e)
        | (s2, .ok e2) =>
          let size := if big then 2 ^ 21 else 2 ^ 16
          (s2, finishWalk (s2.part p) e2 big (dva / size * size) write)

/-- Where a cached entry puts an address. -/
def Part.via (p : Part) (t : TlbEntry) (dva : Nat) : Xlate :=
  .found ((p.physOf (t.frame + (dva - t.page))).getD 0) (if t.ret then p.keyRet else p.keyWork)

/-- A translation through the partition's cached translations, of which the newest 4,096 are kept (R316). -/
def State.translate (s : State) (p dva : Nat) (write : Bool) : State × Xlate :=
  let x := s.part p
  match x.mm.tlb.find? (fun t => t.page ≤ dva && dva < t.page + t.size && (!write || t.w)) with
  | some t => (s, x.via t dva)
  | none =>
    match s.walk p dva write with
    | (s1, .error e) => (s1, e)
    | (s1, .ok t) =>
      (s1.modPart p (fun y => { y with mm := { y.mm with tlb := (t :: y.mm.tlb).take 4096 } }), (s1.part p).via t dva)

/-! ### Accesses by DVA of at most one unit -/

/-- What an access by DVA gives. -/
inductive HbmEnd where
  | done (bs : List Byte)
  | fault (reason : Nat)
  | poisoned
  | dead
  deriving DecidableEq, Repr

def Found.ended : Found → HbmEnd
  | .bytes bs => .done bs
  | .poisoned => .poisoned
  | .dead => .dead

def State.dvaGet (s : State) (p dva n : Nat) : State × HbmEnd :=
  match s.translate p dva false with
  | (s1, .found pa key) =>
    let r := s1.hbmGet p key pa n
    (r.1.modPart p (fun y => { y with mm := { y.mm with rdbytes := y.mm.rdbytes + n } }), r.2.ended)
  | (s1, .fault r) => (s1, .fault r)
  | (s1, .dead) => (s1, .dead)

def State.dvaPut (s : State) (p dva : Nat) (bs : List Byte) : State × HbmEnd :=
  match s.translate p dva true with
  | (s1, .found pa key) =>
    let r := s1.hbmPut p key pa bs
    (r.1.modPart p (fun y => { y with mm := { y.mm with wrbytes := y.mm.wrbytes + bs.length } }), r.2.ended)
  | (s1, .fault r) => (s1, .fault r)
  | (s1, .dead) => (s1, .dead)

/-- The bytes from an address up to the end of its unit, at most `n`. -/
def toUnitEnd (a n : Nat) : Nat := Nat.min n (64 - a % 64)

/-- Many bytes read by DVA, unit by unit, stopping at the first that fails. -/
def State.dvaRead (s : State) (p : Nat) : Nat → Nat → Nat → List Byte → State × HbmEnd
  | 0, _, _, acc => (s, .done acc)
  | fuel + 1, dva, n, acc =>
    if n = 0 then (s, .done acc)
    else
      let k := toUnitEnd dva n
      match s.dvaGet p dva k with
      | (s1, .done bs) => s1.dvaRead p fuel (dva + k) (n - k) (acc ++ bs)
      | r => r

/-- Many bytes written by DVA, discarding what fails. -/
def State.dvaWrite (s : State) (p : Nat) : Nat → Nat → List Byte → State
  | 0, _, _ => s
  | fuel + 1, dva, bs =>
    if bs.isEmpty then s
    else
      let k := toUnitEnd dva bs.length
      (s.dvaPut p dva (bs.take k)).1.dvaWrite p fuel (dva + k) (bs.drop k)

/-- Whether every page of a DVA range is mapped writable (R287). -/
def State.rangeMapped (s : State) (p : Nat) : Nat → Nat → Nat → Bool
  | 0, _, _ => true
  | fuel + 1, dva, n =>
    match (s.translate p dva true).2 with
    | .found _ _ =>
      let k := 65536 - dva % 65536
      if n ≤ k then true else s.rangeMapped p fuel (dva + k) (n - k)
    | _ => false

/-! ### The locker's partition slots (R341–R343) -/

/-- A byte of a partition's slot: zero since PART_CREATE unless written, and unpredictable under a later retain key. -/
def State.lockerByte (s : State) (p : Part) (a : Nat) : Byte :=
  match Tab.find? s.locker.keys (a / 64) with
  | some key => if key = p.keyRet then Tab.get 0 s.locker.cells a else Config.hbmFill p.keyRet (2 ^ 40 + a)
  | none => if p.lkKey = p.keyRet then 0 else Config.hbmFill p.keyRet (2 ^ 40 + a)

/-- One unit read: none when it is poisoned or found in error. -/
def State.lockerGet (s : State) (p : Part) (a : Nat) : State × Option (List Byte) :=
  let u := a / 64
  if s.locker.poison.contains u then (s, none)
  else if s.locker.bad.contains u then
    ({ s with locker := { s.locker with poison := s.locker.poison ++ [u], bad := s.locker.bad.filter (· != u) } }, none)
  else (s, some ((List.range 64).map (fun i => s.lockerByte p (a + i))))

/-- One unit written. -/
def State.lockerPut (s : State) (p : Part) (a : Nat) (bs : List Byte) : State :=
  let u := a / 64
  let cells := (List.range bs.length).foldl (fun m i => Tab.put m (a + i) (nth bs i 0)) s.locker.cells
  { s with locker := { s.locker with cells := cells, keys := Tab.put s.locker.keys u p.keyRet
                                     poison := s.locker.poison.filter (· != u), bad := s.locker.bad.filter (· != u) } }

end Sys2Proof.Machine
end

