-- ==== Sys2Proof/Machine/Perform.lean ====
section
/-! DEFINITION. What a tile's step asks of the module, performed: packets, cells and contexts, chalkboard and tree writes, logs and
events, job ends; and how a command runs on a tile (`02`, `08`, `11`, `14`). -/

namespace Sys2Proof.Machine

/-! ### On to the mesh and the ports (R254–R256, R369) -/

/-- The partition that owns a tile's seat, when the chart entry is valid. -/
def State.partOf (s : State) (l : Nat) : Option Nat := if (s.seat l).valid then some (s.seat l).part else none

/-- A packet injected. -/
def State.inject (s : State) (k : Packet) : State := { s with net := s.net ++ [k] }

/-- A failure notice to a partition-relative tile (R306). -/
def State.refuseWrite (s : State) (src : Place) (p : Nat) (w : WriteBody) (dtile reason : Nat) : State :=
  match w.writer with
  | some r => s.inject ⟨src, .tile ((s.part p).logical r), p, [], .ctl (.writeFail r dtile 1 reason)⟩
  | none => s

/-- A context handed to a port; a port that is DOWN discards it, and answers a WRITE (R369). -/
def State.portCtx (s : State) (p k : Nat) (c : Ctx) : State :=
  let x := s.port k
  if x.state = .down then
    match c with
    | .write w d _ => s.refuseWrite (.port k) p w d 5
    | _ => s
  else
    match c with
    | .write w _ _ =>
      if x.vmaj ≠ 3 ∧ w.flow.any (fun f => 128 ≤ f) then s.setPort k { x with ctx3 := x.ctx3 ++ [c] }
      else s.setPort k { x with ctx1 := x.ctx1 ++ [c] }
    | _ => s.setPort k { x with ctx1 := x.ctx1 ++ [c] }

/-- A control cell handed to a port. -/
def State.portCell (s : State) (k : Nat) (c : Ctl) : State :=
  let x := s.port k
  if x.state = .down then s else s.setPort k { x with cells := x.cells ++ [c] }

/-! ### Ends of jobs (R446, R448) -/

/-- A tile at a job's end: its wait is over, faulted streams are gone (R60, R327, R448). -/
def Tile.ended (t : Tile) : Tile :=
  { t with core := { t.core with wait := none }
           xc := { t.xc with streams := t.xc.streams.map (fun x => if x.fault.isSome then { x with queue := [], fault := none } else x) } }

/-- Free the sites of the samples that `void` chooses, without record (R498). -/
def State.voidSamples (s : State) (void : Sample → Bool) : State :=
  let gone := s.faults.samples.filter void
  let s1 := { s with faults := { s.faults with samples := s.faults.samples.filter (fun x => !void x) } }
  gone.foldl (fun s x =>
    let s2 := (s.setSiteTile x.shadow (s.siteTile x.shadow).wipe).setSiteTile x.judge (s.siteTile x.judge).wipe
    s2.modPart x.part (fun q => { q with proctor := { q.proctor with voided := satAdd 32 q.proctor.voided 1 } })) s1

/-- A job ends: the partition enters ENDING (R446, R448). -/
def State.jobEnd (s : State) (p : Nat) (c : EndCause) : State :=
  let x := s.part p
  if x.state = .running || x.state = .preempting then
    let s1 := (s.eachTile p (fun _ t => t.ended)).voidSamples (fun k => k.part == p)
    s1.modPart p (fun x => { x with state := .ending, ending := some c, refused := x.refused || c != .ok })
  else s

/-! ### Performing (R65, R66, R163–R165, R205, R213, R258, R264, R307) -/

/-- Where a partition's tree node lies in its table. -/
def treeKey (tree node : Nat) : Nat := 4096 * tree + node

def State.act (s : State) (p l : Nat) (a : Act) : State :=
  match a with
  | .classD bank addr =>
    let x := (s.seat l).site
    (match bank with
     | some b => s.classD (some p) 2 (16 * x + b) addr
     | none => s.classD (some p) 1 x addr)
  | .logExc cause info epc cycle => s.partLog p 1 l [.d cause.toNat, .d info.toNat, .h epc.toNat, .d cycle.toNat]
  | .halted cause => (s.partEvent p 0x6003 [.h l, .h cause]).jobEnd p .halt
  | .haltOk => if (s.part p).tiles.all (fun k => (s.tile k).core.run == .halted) then s.jobEnd p .ok else s
  | .stepFail r c =>
    if (s.part p).failPosted then s
    else (s.partEvent p 0x2004 [.h l, .h r, .h c]).modPart p (fun x => { x with failPosted := true })
  | .quiet under r n => s.partEvent p (if under then 0x2003 else 0x2002) [.h l, .h r, .h n]
  | .arrive b e f fail xm wm forced =>
    s.modPart p (fun x => { x with onWay := x.onWay ++ [⟨l, b, e, f, fail, xm, wm, forced⟩] })
  | .overrun b n => s.partEvent p 0x1002 [.h l, .h b, .h n.toNat]
  | .walkerFault code off => s.partLog p 7 l [.h code, .h off]
  | .pkt r tags b =>
    let dst := (s.part p).logical r
    if r < (s.part p).count && s.partOf dst = some p then s.inject ⟨.tile l, .tile dst, p, tags, b⟩
    else
      match b with
      | .write w => s.refuseWrite (.tile l) p w r 1
      | .ctl (.openReq e) => s.inject ⟨.tile l, .tile l, p, [], .ctl (.openRep ⟨e.sep, e.dep, e.srctile, e.dtile⟩ stDenied 0)⟩
      | _ => s
  | .cross k c => s.portCtx p k c
  | .cell k c => s.portCell k c
  | .chalk g off bs f c tag => { s with board := { s.board with reqs := s.board.reqs ++ [⟨p, .data g off bs f c, tag⟩] } }
  | .reduce tree k =>
    let key := treeKey tree ((s.part p).relOf l)
    (match Tab.find? (s.part p).trees key with
     | some n => s.modPart p (fun x => { x with trees := Tab.put x.trees key { n with own := n.own ++ [k] } })
     | none => s)
  | .ringWrite dva bs => s.dvaWrite p (bs.length + 1) dva bs

def State.acts (s : State) (p l : Nat) (as : List Act) : State := as.foldl (fun s a => s.act p l a) s

/-- Flits a step injects (xc.inj). -/
def Act.flits : Act → Nat
  | .pkt .. => 1
  | .cell .. => 1
  | .cross .. => 1
  | .reduce .. => 1
  | .chalk .. => 1
  | _ => 0

/-! ### A tile's step -/

/-- What logical tile `l` of partition `p` sees outside itself. -/
def State.env (s : State) (p l : Nat) : Env where
  now := s.now
  logical := l
  rel := (s.part p).relOf l
  count := (s.part p).count
  ports := (s.part p).ports
  mapped := fun dva n => s.rangeMapped p (n / 65536 + 2) dva n
  redRoom := fun t => match Tab.find? (s.part p).trees (treeKey t ((s.part p).relOf l)) with | some n => 4 - n.own.length | none => 0
  redRoot := fun t => match Tab.find? (s.part p).trees (treeKey t ((s.part p).relOf l)) with | some n => n.parent.isNone | none => false

/-- A tile's step performed: its acts in order, its corrections in the gradebook. -/
def State.runTile (s : State) (p l : Nat) (f : Env → Tile → TRes) : State :=
  let r := f (s.env p l) (s.tile l)
  let n := (r.acts.map Act.flits).foldl (· + ·) 0
  let t := { r.t with xc := { r.t.xc with inj := r.t.xc.inj + BitVec.ofNat 64 n } }
  ((s.setTile l t).acts p l r.acts).gradeWords (s.seat l).site

/-- A write from outside reaches a tile: the tile, and the sites that shadow it (R497). -/
def State.mirror (s : State) (p l : Nat) (f : Env → Tile → TRes) : State :=
  let env := s.env p l
  let sites := (s.faults.samples.filter (fun x => x.tile == l && x.state == .live)).map (fun x => [x.shadow, x.judge])
  sites.flatten.foldl (fun s x => s.setSiteTile x (f env (s.siteTile x)).t) (s.runTile p l f)

/-- Whether a site's islands get clock pulses (R478, R480). -/
def State.clocked (s : State) (x : Nat) : Bool :=
  (nth s.power.dies.toList (dieOf x) .reset).hold.isNone && !(Tab.get .calm s.power.islands x).severe

/-- The partition of a logical tile whose job runs it now. -/
def State.runs (s : State) (l : Nat) : Option Nat :=
  match s.partOf l with
  | some p =>
    if ((s.part p).state = .running || (s.part p).state = .preempting) && s.clocked (s.seat l).site &&
        !(s.tile l).pad.wiping then some p else none
  | none => none

/-- A command of a tile's core or engines: it happens when a job runs the tile. -/
def State.tileStep (s : State) (l : Nat) (f : Env → Tile → TRes) : State :=
  match s.runs l with
  | some p => s.runTile p l f
  | none => s

end Sys2Proof.Machine
end

