-- ==== Sys2Proof/Machine/BellUnit.lean ====
section
/-! DEFINITION. The bell unit: arrivals, releases, notices, timers, lateness, recess holds (`07_bells_and_timetables.md` R205, R208,
R212–R229, R237; `12_gradient_exchange_and_step_commit.md` R395–R398; `16_faults_and_availability.md` R495–R500). -/

namespace Sys2Proof.Machine

/-! ### Bells and participants (R208) -/

def Part.bell (p : Part) (b : Nat) : Bell := Tab.get .idle p.bells b
def Part.setBell (p : Part) (b : Nat) (x : Bell) : Part := { p with bells := Tab.put p.bells b x }
def State.modBell (s : State) (p b : Nat) (f : Bell → Bell) : State := s.modPart p (fun x => x.setBell b (f (x.bell b)))

/-- Local participants by partition-relative number, and child ports. -/
def BellDesc.members (d : BellDesc) (count : Nat) : List Nat := bitsOf d.mask count
def BellDesc.ports (d : BellDesc) : List Nat := if d.remote then bitsOf d.children 16 else []

def Bell.has (x : Bell) (w : Who) : Bool := x.arr.any (fun a => a.who == w)

/-- Local participants that have not arrived in the open epoch, and child ports. -/
def Bell.absent (x : Bell) (d : BellDesc) (count : Nat) : List Nat := (d.members count).filter (fun r => !x.has (.tile r))
def Bell.silent (x : Bell) (d : BellDesc) : List Nat := d.ports.filter (fun q => !x.has (.port q))

def Bell.complete (x : Bell) (d : BellDesc) (count : Nat) : Bool := (x.absent d count).isEmpty && (x.silent d).isEmpty

/-- Whether this module decides the release (R217, R220). -/
def BellDesc.decides (d : BellDesc) : Bool := !d.remote || d.root

/-- Whether a comparison that began in the step keeps the module's contribution to bell 63 back (R500). -/
def State.comparing (s : State) (p b : Nat) : Bool :=
  b == 63 && s.faults.samples.any (fun k =>
    k.part == p && k.step == (s.part p).step && (match k.state with | .ended _ _ => true | _ => false))

/-! ### Lateness (R228, R229) -/

/-- Bins of Table 7.6. -/
def lateBin (ns : Nat) : Nat := if ns < 128 then 0 else Nat.min 15 (ns.log2 - 6)

def Bell.first (x : Bell) (now : Nat) : Nat := x.arr.foldl (fun m a => Nat.min m a.time) now

/-- The key of a participant's histogram. -/
def Who.key : Who → Nat
  | .tile r => r
  | .port q => 65536 + q

/-- Every arrival of the epoch recorded in its participant's histogram. -/
def Bell.recorded (x : Bell) (b now : Nat) : Bell :=
  if (b = 63 ∨ x.desc.any (·.track)) ∧ !x.mute then
    { x with hist := x.arr.foldl (fun h a =>
        Tab.put h a.who.key (bump (Tab.get (List.replicate 16 0) h a.who.key) (lateBin (a.time - x.first now)) 1)) x.hist }
  else x

/-- The latest arrival of the subtree: job module index and lateness. -/
def Bell.latest (x : Bell) (own now : Nat) : Nat × Nat :=
  x.arr.foldl (fun m a =>
    let here := a.time - x.first now
    let c := match a.who with | .tile _ => (own, here) | .port _ => (a.latest, Nat.max here a.lateness)
    if m.2 < c.2 then c else m) (own, 0)

/-! ### The module's contribution (R217, R220, R395) -/

def Bell.flags (x : Bell) : BitVec 8 := x.arr.foldl (fun f a => f ||| a.flags) 0
def Bell.fails (x : Bell) : Bool := x.arr.any (·.fail)

/-- The tile and record that forced the overflow flag: the lowest logical tile's (R163). -/
def Bell.forced (x : Bell) : Option (Nat × Nat) :=
  x.arr.foldl (fun m a => match m, a.forced with
    | none, f => f
    | some t, some f => if f.1 < t.1 then some f else some t
    | m, none => m) none

/-- The veto's record (R395). -/
def State.vetoLog (s : State) (p b : Nat) : State :=
  if b = 63 ∧ (s.part p).veto then s.partLog p 3 0xFFF [.h 1, .d (s.part p).step] else s

/-- Something for a bell's port: a notice (R268). -/
def State.sendNotice (s : State) (q : Nat) (n : Notice) : State := s.portCell q (.bell n)

/-- A non-root node whose participants have all arrived sends its arrival notice, once (R220, R500). -/
def State.contribute (s : State) (p b : Nat) : State :=
  let x := s.part p
  let e := x.bell b
  match e.desc with
  | some d =>
    if !d.decides && e.complete d x.count && !e.noticeSent && !s.comparing p b then
      let veto := b == 63 && x.veto
      let late := e.latest x.modIndex s.now
      let n : Notice := ⟨false, b, e.fails || veto, 0, false, e.flags, e.epoch, late.1, Nat.min late.2 (2 ^ 32 - 1)⟩
      ((s.vetoLog p b).modBell p b (fun e => { e with noticeSent := true })).sendNotice d.parent n
    else s
  | none => s

/-! ### Recess (R237, R457) -/

/-- A duty tile of the partition whose site the gradebook has condemned, or whose test waits for a recess. -/
def State.tileWork (s : State) (p : Nat) : Bool :=
  (s.part p).tiles.any (fun l => (s.grade 1 (s.seat l).site).state == 1) ||
    s.faults.tests.any (fun t => t.kind == 1 && !t.running && s.partOf t.unit == some p)

/-- Whether recess work is pending for the partition (PT_STATE.RECPEND). -/
def State.recessWork (s : State) (p : Nat) : Bool :=
  let x := s.part p
  x.actions != 0 || s.tileWork p || x.slots.any (fun k => k.state == .released) ||
    (bitsOf x.ports 16).any (fun q => (s.port q).toRetire != 0)

/-! ### Releasing (R217, R218, R224, R227) -/

/-- A release enters the chalkboard, and at a node with children goes on to them in the same ns (R220). -/
def State.deliver (s : State) (p : Nat) (r : Rel) : State :=
  let x := s.part p
  match (x.bell r.bell).desc with
  | some d =>
    let n : Notice := ⟨true, r.bell, r.anyfail, r.status, r.late, r.flags, r.epoch, r.latest, r.lateness⟩
    let s1 := s.modPart p (fun y => { y with rels := y.rels ++ [⟨r, (d.members x.count).map x.logical, true⟩] })
    d.ports.foldl (fun s q => s.sendNotice q n) s1
  | none => s

/-- The epoch is over: arrivals one ahead become those of the next, whose timer starts if there are any (R212, R224). -/
def Bell.advance (x : Bell) (b now : Nat) : Bell :=
  { x.recorded b now with
    epoch := x.epoch + 1, arr := x.ahead, ahead := [], timer := if x.ahead.isEmpty then none else some now, noticeSent := false
    mute := false }

/-- A release of the open epoch takes effect at the unit: held when recess work or a pre-emption waits, else delivered; bell 63 clears
the veto and marks an interval. -/
def State.release (s : State) (p b : Nat) (r : Rel) : State :=
  let x := s.part p
  let e := x.bell b
  let recess := e.desc.any (·.recess)
  let why := if x.state = .preempting || (x.state = .preempted && x.heldBell == b) then some HoldFor.preempt
    else if s.recessWork p then some HoldFor.work else none
  let s1 := s.modPart p (fun y =>
    let y1 := y.setBell b (e.advance b s.now)
    if b = 63 then { y1 with veto := false, rel63 := (s.now :: y1.rel63).take 17 } else y1)
  let s2 := match recess, why with
    | true, some w =>
      s1.modPart p (fun y => { (y.setBell b { y.bell b with held := some (r, w, s.now) }) with recessHolds := y.recessHolds + 1, swapped := [] })
    | _, _ => s1.deliver p r
  s2.contribute p b

/-- BELL_TIMEOUT and its log record (R227). -/
def State.timeoutEvent (s : State) (p b status origin : Nat) : State :=
  let x := s.part p
  let e := x.bell b
  match e.desc with
  | some d =>
    let gone := e.absent d x.count
    let ports := (e.silent d).foldl (fun m q => m + 2 ^ q) 0
    let fs : List Fl := [.h b, .h e.epoch.toNat, .h status, .h origin, .h gone.length, .h (gone.headD 0xFFF), .h ports]
    (s.partEvent p 0x1003 fs).partLog p 2 0xFFF fs
  | none => s

/-- The release this module's arrivals form (R217, R224, R229, R395). -/
def State.formed (s : State) (p b status : Nat) (timer : Bool) : Rel :=
  let x := s.part p
  let e := x.bell b
  let veto := b == 63 && x.veto
  let fail := e.fails || veto
  let late := e.latest x.modIndex s.now
  let late_ := match x.threshold with | some t => b == 63 && decide (t < late.2) | none => false
  ⟨b, e.epoch, e.flags, fail, status, late_, late.1, Nat.min late.2 (2 ^ 32 - 1), e.forced, timer, fail, veto⟩

/-- The recess work that needs no tile moved takes effect at the hold: released slots retire (R339). -/
def State.recessEffects (s : State) (p b : Nat) : State :=
  if ((s.part p).bell b).held.isSome then
    (List.range (s.part p).slots.length).foldl (fun s k =>
      match (s.part p).slots[k]? with
      | some x => if x.state = .released then s.retireSlot p k else s
      | none => s) s
  else s

/-- BELL_RELEASE. -/
def State.bellRelease (s : State) (p b : Nat) : State :=
  let x := s.part p
  let e := x.bell b
  match e.desc with
  | some d =>
    if d.decides && e.complete d x.count && e.held.isNone && !s.comparing p b then
      let status := if b = 63 then (if e.fails || x.veto then 2 else 1) else 0
      ((s.vetoLog p b).release p b (s.formed p b status false)).recessEffects p b
    else s
  | none => s

/-! ### Arrivals (R205, R212, R215, R220, R224) -/

/-- An arrival counted: in the open epoch, one ahead, or for an epoch already released, which is discarded. -/
def Bell.arrive (x : Bell) (e : BitVec 32) (a : Arr) (now : Nat) : Bell :=
  if e = x.epoch then
    if x.has a.who then x else { x with arr := x.arr ++ [a], timer := some (x.timer.getD now) }
  else if e = x.epoch + 1 then
    if x.ahead.any (fun y => y.who == a.who) then x else { x with ahead := x.ahead ++ [a] }
  else x

/-- Whether an item in flight belongs to a tile's writes before its marks (R205). -/
def Tag.before (t : Tag) (a : OnWay) : Bool :=
  t.tile == a.tile && (if t.walker then decide (t.born < a.walkMark) else decide (t.born < a.xcMark))

/-- R205: the writes that hold the arrival have been written. -/
def State.drained (s : State) (p : Nat) (a : OnWay) : Bool :=
  decide (a.xcMark ≤ (s.tile a.tile).xcq.completed) &&
    !(s.net.any (fun k => k.body.vc == 1 && k.tags.any (·.before a))) &&
    !(s.board.reqs.any (fun r => r.tag.before a)) &&
    !(s.board.flight.any (fun f => f.tag.any (·.before a))) &&
    !((s.part p).trees.any (fun n => (n.2.own ++ n.2.qs.flatten).any (fun k => k.tags.any (·.before a))))

/-- BELL_ARRIVAL: the `k`-th arrival on its way leaves its tile and reaches the unit. -/
def State.bellArrival (s : State) (p k : Nat) : State :=
  let x := s.part p
  match x.onWay[k]? with
  | some a =>
    if ((x.onWay.take k).any (fun c => c.tile == a.tile && c.bell == a.bell)) || !s.drained p a then s
    else
      let arr : Arr := ⟨.tile (x.relOf a.tile), s.now, a.flags, a.fail, x.modIndex, 0, a.forced.map (fun r => (a.tile, r))⟩
      let s1 := s.modPart p (fun y =>
        { (y.setBell a.bell ((y.bell a.bell).arrive a.epoch arr s.now)) with onWay := dropNth y.onWay k })
      s1.contribute p a.bell
  | none => s

/-- The `k`-th packet in flight, when no older one of its source, destination and virtual channel is (R255). -/
def State.pick (s : State) (k : Nat) : Option Packet :=
  match s.net[k]? with
  | some x => if (s.net.take k).any (fun y => y.src == x.src && y.dst == x.dst && y.body.vc == x.body.vc) then none else some x
  | none => none

def State.took (s : State) (k : Nat) : State := { s with net := dropNth s.net k }

/-- A discarded notice (R221). -/
def State.dropNotice (s : State) (p : Nat) : State := s.modPart p (fun x => { x with discarded := x.discarded + 1 })

/-- A bell with a valid REMOTE descriptor. -/
def Part.remoteBell (p : Part) (b : Nat) : Option BellDesc :=
  match (p.bell b).desc with
  | some d => if d.remote then some d else none
  | none => none

/-- BELL_ARRIVAL_NOTICE (R213, R215, R220, R221, R228). -/
def State.arrivalNotice (s : State) (k : Nat) : State :=
  match s.pick k with
  | some ⟨.port q, .root, p, _, .ctl (.bell n)⟩ =>
    if n.release then s
    else
      let s0 := s.took k
      let x := s.part p
      match x.remoteBell n.bell with
      | some d =>
        if !d.ports.contains q then s0.dropNotice p
        else
          let e := x.bell n.bell
          if n.epoch = e.epoch || n.epoch = e.epoch + 1 then
            let a : Arr := ⟨.port q, s.now, n.flags, n.anyfail, n.latest, n.lateness, none⟩
            (s0.modBell p n.bell (fun e => e.arrive n.epoch a s.now)).contribute p n.bell
          else if serialLater n.epoch e.epoch then s0.partEvent p 0x1002 [.h q, .h n.bell, .h n.epoch.toNat]
          else s0
      | none => s0.dropNotice p
  | _ => s

/-- BELL_RELEASE_NOTICE (R220, R221, R223, R225, R227). -/
def State.releaseNotice (s : State) (k : Nat) : State :=
  match s.pick k with
  | some ⟨.port q, .root, p, _, .ctl (.bell n)⟩ =>
    if !n.release then s
    else
      let s0 := s.took k
      let x := s.part p
      let e := x.bell n.bell
      match x.remoteBell n.bell with
      | some d =>
        if d.root || q != d.parent || n.epoch != e.epoch || e.held.isSome then s0.dropNotice p
        else
          let veto := n.bell == 63 && x.veto
          let timer := n.status == 3 || n.status == 4 || (n.status == 2 && !n.anyfail)
          let s1 := if timer then s0.timeoutEvent p n.bell n.status 1 else s0
          s1.release p n.bell
            ⟨n.bell, n.epoch, n.flags, n.anyfail, n.status, n.late, n.latest, n.lateness, e.forced, timer, e.fails || veto, veto⟩
      | none => s0.dropNotice p
  | _ => s

/-! ### Timers (R224–R226) -/

/-- The limit of a bell's timer in ns (Table 7.1, R224). -/
def BellDesc.limit (d : BellDesc) (b : Nat) : Nat :=
  if b = 63 then 500000000 else 1000 * (if d.timeout = 0 then 100000 else d.timeout)

/-- BELL_TIMEOUT: the timer of a local bell or of a root runs out. -/
def State.bellTimeout (s : State) (p b : Nat) : State :=
  let x := s.part p
  let e := x.bell b
  match e.desc, e.timer with
  | some d, some t =>
    if d.decides && e.held.isNone && !(e.complete d x.count && !s.comparing p b) then
      let s1 := s.until (t + d.limit b)
      let status := if b = 63 then 2 else 3
      ((s1.timeoutEvent p b status 0).vetoLog p b).release p b (s1.formed p b status true)
    else s
  | _, _ => s

/-- BELL_LOST: a non-root node's timer runs to twice the limit; a pending pre-emption of a recess bell stops the check (R225, R455). -/
def State.bellLost (s : State) (p b : Nat) : State :=
  let x := s.part p
  let e := x.bell b
  match e.desc, e.timer with
  | some d, some t =>
    if !d.decides && !(d.recess && (x.state == .preempting || x.state == .preempted)) then
      let s1 := s.until (t + 2 * d.limit b)
      (s1.timeoutEvent p b 4 0).release p b (s1.formed p b 4 true)
    else s
  | _, _ => s

/-! ### Recess holds end (R237, R457) -/

/-- The held release of a bell goes out. -/
def State.unhold (s : State) (p b : Nat) : State :=
  match ((s.part p).bell b).held with
  | some (r, _, _) => (s.modBell p b (fun e => { e with held := none })).deliver p r
  | none => s

/-- The actions of RECESS that are done: swaps when no tile waits for one, tests when none is due, widening (R457). -/
def State.actionsDone (s : State) (p : Nat) : Nat :=
  let x := s.part p
  let swaps := !(x.tiles.any (fun l => (s.grade 1 (s.seat l).site).state == 1))
  let tests := !(s.faults.tests.any (fun t => t.kind == 1 && !t.running && s.partOf t.unit == some p))
  let wide := (bitsOf x.ports 16).all (fun q => (s.port q).toRetire == 0)
  (if x.actions.testBit 0 && swaps then 1 else 0) + (if x.actions.testBit 1 && tests then 2 else 0) +
    (if x.actions.testBit 2 && wide then 4 else 0)

/-- The RECESS command that asked for the work is answered with the actions completed (R457). -/
def State.answerRecess (s : State) (p : Nat) : State :=
  let x := s.part p
  let done := s.actionsDone p
  match x.asked with
  | some (f, k) =>
    let s1 := s.modPart p (fun y => { y with actions := 0, asked := none })
    (match s1.cmds.find? (fun c => c.func == f && c.slot == k && c.opcode == 0x26 && c.taken) with
     | some c => s1.finish c stOk [BitVec.ofNat 64 (done * 256)] 0
     | none => s1)
  | none => s

/-- RECESS_WORK_DONE: the work is over; a pre-emption that waits takes the hold over, else the release goes out (R237, R456). -/
def State.recessDone (s : State) (p b : Nat) : State :=
  match ((s.part p).bell b).held with
  | some (r, .work, t) =>
    let s1 := s.answerRecess p
    if (s.part p).state = .preempting then s1.modBell p b (fun e => { e with held := some (r, .preempt, t) }) else s1.unhold p b
  | _ => s

/-- RECESS_HOLD_EXPIRE: after 10 ms the release goes out and the work is abandoned (R237). -/
def State.recessExpire (s : State) (p b : Nat) : State :=
  match ((s.part p).bell b).held with
  | some (r, .work, t) =>
    let s1 := s.until (t + 10000000)
    let left := (s.part p).actions - s.actionsDone p
    let s2 := (s1.partLog p 6 0xFFF [.h b, .h r.epoch.toNat, .h left]).answerRecess p
    if (s.part p).state = .preempting then s2.modBell p b (fun e => { e with held := some (r, .preempt, t) }) else s2.unhold p b
  | _ => s

/-! ### The straggler threshold (R229) and the lateness fold (R228) -/

/-- Insertion in rising order, for the median. -/
def insertSorted (a : Nat) : List Nat → List Nat
  | [] => [a]
  | b :: bs => if a ≤ b then a :: b :: bs else b :: insertSorted a bs

/-- LATE_THRESHOLD_UPDATE at the root module. -/
def State.lateThreshold (s : State) (p : Nat) : State :=
  let x := s.part p
  match (x.bell 63).desc with
  | some d =>
    if d.decides && x.rel63.length == 17 && x.tol != 0 then
      let gaps := (List.range 16).map (fun k => nth x.rel63 k 0 - nth x.rel63 (k + 1) 0)
      let sorted := gaps.foldr insertSorted []
      let m := (nth sorted 7 0 + nth sorted 8 0) / 2
      s.setPart p { x with threshold := some (x.tol * m / 1000) }
    else s
  | none => s

/-- LATENESS_FOLD: every bin enters the gradebook record of its tile's site and is subtracted. -/
def State.latenessFold (s : State) (p : Nat) : State :=
  let x := s.part p
  let fold (s : State) (e : Nat × List Nat) : State :=
    if e.1 < 65536 then
      s.modGrade 1 (s.seat (x.logical e.1)).site (fun g =>
        { g with h1 := (List.range 16).map (fun k => Nat.min (nth g.h1 k 0 + nth e.2 k 0) (2 ^ 32 - 1)) })
    else s
  let s1 := (x.bells.map (fun b => b.2.hist)).flatten.foldl fold s
  s1.modPart p (fun y => { y with bells := y.bells.map (fun b => (b.1, { b.2 with hist := [] })) })

/-! ### A release reaches a tile (R218, R163, R227, R229, R398, R495–R497) -/

/-- What the module posts when a release reaches it: NUM_OVF_REPLAY, BELL_LATE, STEP_REPEAT. -/
def State.releaseEvents (s : State) (p : Nat) (r : Rel) : State :=
  let x := s.part p
  let s1 := match r.forced with
    | some (l, rec) => s.partEvent p 0x2001 [.h r.bell, .h r.epoch.toNat, .d x.step, .h l, .h rec]
    | none => s
  let s2 := if r.bell = 63 ∧ r.late then
      s1.partEvent p 0x1001 [.d x.step, .h r.latest, .h r.lateness, .h ((x.threshold).getD 0)]
    else s1
  if r.bell = 63 ∧ (r.status = 2 ∨ r.status = 4) then
    let n := satAdd 16 x.repeats 1
    let cause := if r.status = 4 then 3 else if r.timer then 2 else 1
    (s2.partEvent p 0x1004 [.d x.step, .h r.epoch.toNat, .h r.status, .h cause, .h (if r.ownFail then 1 else 0),
      .h (if r.veto then 1 else 0), .h n]).modPart p (fun y => { y with repeats := n, failPosted := false })
  else if r.bell = 63 ∧ r.status = 1 then
    s2.modPart p (fun y => { y with repeats := 0, failPosted := false, step := y.step + 1 })
  else s2

/-- PT_PROC.N applied takes effect at the partition's next release (R501, R11). -/
def PtCfg.settle (c : PtCfg) : PtCfg :=
  match c.pendingN with
  | some n => { c with n := ⟨n, c.n.shadow⟩, pendingN := none }
  | none => c

/-- N as it acts (Table 16.5). -/
def PtCfg.oneIn (c : PtCfg) : Nat := if c.n.force = 0 then 256 else Nat.min c.n.force 4096

/-- Sites free for the proctor (R496): unassigned substitutes, sites of no partition, sites of a PREEMPTED partition. -/
def State.spare (s : State) (x : Nat) : Bool :=
  !(s.grade 1 x).out && !s.testing x && !(s.faults.samples.any (fun k => k.shadow == x || k.judge == x)) &&
    (match s.seatedAt x with
     | some l => (match s.partOf l with | some p => (s.part p).state == .preempted | none => true)
     | none => true)

/-- The first two free sites, by site id. -/
def State.twoSpare (s : State) : Option (Nat × Nat) :=
  match (List.range 3136).find? s.spare with
  | some a => ((List.range 3136).find? (fun x => x != a && s.spare x)).map (fun b => (a, b))
  | none => none

/-- The sample of a tile that is open ends at this release: eligible (R495), or VOID (R498). -/
def State.endSample (s : State) (l : Nat) : State :=
  let t := s.tile l
  let ok := (match t.core.wait with | some ⟨.bell .., _⟩ => true | _ => false) && t.mxq.waiting.isEmpty && t.mxq.started.isEmpty
  if ok then
    { s with faults := { s.faults with samples := s.faults.samples.map (fun k =>
        if k.tile == l && k.state == .live then { k with state := .ended t.mx.sigCap t.core.instret } else k) } }
  else s.voidSamples (fun k => k.tile == l && k.state == .live)

/-- A tile whose test is long overdue, or that serves on with its site condemned, is sampled on every step (R459). -/
def State.watched (s : State) (l : Nat) : Bool :=
  (s.grade 1 (s.seat l).site).state == 1 ||
    s.faults.tests.any (fun t => t.kind == 1 && !t.passed && t.unit == l && decide (t.due + 336 * 3600000000000 ≤ s.now))

/-- PROCTOR_SAMPLE: the tile-step that begins here is drawn, or must be sampled (R496, R497). -/
def State.sample (s : State) (p l : Nat) : State :=
  let d := s.draw
  let must := s.watched l && !(s.faults.samples.any (fun k => k.tile == l && k.step == (s.part p).step))
  if must || Config.proctorDraw d.1 % (s.part p).proctor.oneIn = 0 then
    let s1 := d.2
    match s1.twoSpare with
    | some (a, b) =>
      let f := s1.faults
      let k : Sample := ⟨f.nextSample, p, l, (s1.seat l).site, a, b, (s1.part p).step, .live⟩
      let t := s1.tile l
      { ((s1.setSiteTile a t).setSiteTile b t) with faults := { f with samples := f.samples ++ [k], nextSample := f.nextSample + 1 } }
    | none => s1.modPart p (fun x => { x with proctor := { x.proctor with skipped := satAdd 32 x.proctor.skipped 1 } })
  else d.2

/-- RELEASE_APPLY: the oldest release of bell `b` that has yet to reach tile `l` reaches it. -/
def State.releaseApply (s : State) (l b : Nat) : State :=
  match s.partOf l with
  | some p =>
    match (s.part p).rels.find? (fun f => f.rel.bell == b && f.left.contains l) with
    | some f =>
      let r := f.rel
      let rcd := releaseRecord r.flags r.anyfail r.status r.late r.epoch
      let s1 := if f.fresh then (s.releaseEvents p r).modPart p (fun y => { y with proctor := y.proctor.settle }) else s
      let reach (g : RelFlight) : RelFlight := if g == f then { g with left := g.left.filter (· != l), fresh := false } else g
      let s2 := s1.modPart p (fun y => { y with rels := (y.rels.map reach).filter (fun g => !g.left.isEmpty) })
      let s3 := s2.runTile p l (fun env t =>
        (t.applyRelease (BitVec.ofNat 6 b) r.epoch r.status rcd).andThen (fun t1 => t1.walkReach env))
      let s4 := if s3.faults.samples.any (fun k => k.tile == l && k.state == .live) then s3.endSample l else s3
      s4.sample p l
    | none => s
  | none => s

/-- WALKER_FIRING_END. -/
def State.walkerFiringEnd (s : State) (l : Nat) : State :=
  s.tileStep l (fun env t => t.firingEnd.andThen (fun t1 => t1.walkReach env))

end Sys2Proof.Machine
end

