-- ==== Sys2Proof/Machine/Mesh.lean ====
section
/-! DEFINITION. Deliveries in the package: remote writes, channel items, failure notices, flows and announces, reduction merges, the
chalkboard, chart words (`03_scratchpad.md` R84–R91, `07` R232–R236, `08_package_mesh.md`, `09_message_channels.md`). -/

namespace Sys2Proof.Machine

/-! ### Arriving at a tile (R255, R256) -/

/-- A tile with one flit more ejected to it. -/
def Tile.ejected (t : Tile) : Tile := { t with xc := { t.xc with ej := t.xc.ej + 1 } }

/-- A packet discarded for a foreign partition (R256). -/
def Tile.foreigner (t : Tile) : Tile := { t with xc := { t.xc with foreign := t.xc.foreign + 1 } }

/-- The `k`-th packet when it can be delivered to a tile now: its turn, its tile not held (R274), its partition not refused
(R491). -/
def State.atTile (s : State) (k : Nat) : Option (Packet × Nat) :=
  match s.pick k with
  | some x =>
    match x.dst with
    | .tile l => if (s.seat l).hold || ((s.part x.part).refused && s.partOf l == some x.part) then none else some (x, l)
    | _ => none
  | none => none

/-- The packet delivered to its tile, unless it is of another partition or the tile is being wiped. -/
def State.deliverTo (s : State) (k : Nat) (x : Packet) (l : Nat) (f : Env → Tile → TRes) : State :=
  let s1 := s.took k
  if s.partOf l != some x.part || (s.tile l).pad.wiping then s1.setTile l (s.tile l).foreigner
  else s1.mirror x.part l (fun env t => f env t.ejected)

/-- The port an item came in by. -/
def Place.asPort : Place → Option Nat
  | .port q => some q
  | _ => none

/-- A refusal told to the writer, here or across the port the packet came in by (R306). -/
def State.tellWriter (s : State) (x : Packet) (w : WriteBody) (ftile reason : Nat) : State :=
  match x.src, w.writer with
  | .port q, some r => s.portCell q (.writeFail r ftile 1 reason)
  | _, _ => s.refuseWrite x.dst x.part w ftile reason

/-! ### Flows and announces (R233–R236) -/

/-- An announce leaves its home: a counted write to one tile, or a count word to all (R234, R267). -/
def State.announceOut (s : State) (p home : Nat) (a : Announce) : State :=
  if a.dtile = 0xFFF then
    { s with board := { s.board with flight := s.board.flight ++ [⟨p, .counter a.ctr, none, (s.part p).tiles⟩] } }
  else
    let dst : Place := .tile ((s.part p).logical a.dtile)
    match a.word with
    | some w => s.inject ⟨.port home, dst, p, [], .write ⟨a.dsth, a.dstoff, leBytes 8 w.toNat, some a.ctr, true, none, none⟩⟩
    | none => s.inject ⟨.port home, dst, p, [], .ctl (.announce none a.ctr 0 a.dtile a.count 0 0)⟩

/-- Announces at the head whose bytes have all been written go out, in order. -/
def State.flowGo (s : State) (p f : Nat) : Nat → State
  | 0 => s
  | n + 1 =>
    match Tab.find? (s.part p).flows f with
    | some x =>
      match x.waiting with
      | a :: rest =>
        if a.count ≤ x.bytes then
          ((s.modPart p (fun y => { y with flows := Tab.put y.flows f { x with bytes := x.bytes - a.count, waiting := rest } })).announceOut
            p x.home a).flowGo p f n
        else s
      | [] => s
    | none => s

/-- COUNT_UPDATE (R233). -/
def State.countUpdate (s : State) (k : Nat) : State :=
  match s.pick k with
  | some ⟨_, .port _, p, _, .count f n⟩ =>
    let s1 := s.took k
    match Tab.find? (s.part p).flows f with
    | some x => (s1.modPart p (fun y => { y with flows := Tab.put y.flows f { x with bytes := x.bytes + n } })).flowGo p f 4
    | none => s1
  | _ => s

/-- ANNOUNCE_RECEIVE (R234, R235). -/
def State.announceReceive (s : State) (k : Nat) : State :=
  match s.pick k with
  | some ⟨_, .port _, p, _, .ctl (.announce word ctr f dtile count dsth dstoff)⟩ =>
    let s1 := s.took k
    match Tab.find? (s.part p).flows f with
    | some x =>
      if 4 ≤ x.waiting.length then s1.partLog p 4 0xFFF [.h f, .h count]
      else
        let x1 := { x with waiting := x.waiting ++ [⟨word, ctr, dtile, count, dsth, dstoff, s.now⟩] }
        (s1.modPart p (fun y => { y with flows := Tab.put y.flows f x1 })).flowGo p f 4
    | none => s1.modPart p (fun y => { y with unknownFlow := y.unknownFlow + 1 })
  | _ => s

/-- ANNOUNCE_EXPIRED (R236). -/
def State.announceExpired (s : State) (p f : Nat) : State :=
  match Tab.find? (s.part p).flows f with
  | some x =>
    match x.waiting with
    | a :: rest =>
      let s1 := s.until (a.since + 1000 * (if x.hold = 0 then 100000 else x.hold))
      let s2 := s1.modPart p (fun y => { y with flows := Tab.put y.flows f { x with bytes := 0, waiting := rest } })
      (s2.partLog p 5 0xFFF [.h f, .h a.count, .d x.bytes]).flowGo p f 4
    | [] => s
  | none => s

/-! ### Remote writes (R84, R91, R278, R306) -/

/-- An uncorrectable error on the mesh: the packet is gone, and its partition is reset (R278). -/
def State.meshError (s : State) (k : Nat) (x : Packet) (l : Nat) : State :=
  (s.took k).classD (some x.part) 1 (s.seat l).site 0

/-- A write that has landed counts toward its flow (R232, R233). -/
def State.flowCount (s : State) (p l : Nat) (w : WriteBody) : State :=
  match w.flow with
  | some f =>
    match Tab.find? (s.part p).flows f with
    | some x => s.inject ⟨.tile l, .port x.home, p, [], .count f w.data.length⟩
    | none => s.modPart p (fun y => { y with unknownFlow := y.unknownFlow + 1 })
  | none => s

/-- REMOTE_WRITE_DELIVER; `bad` when the mesh met an uncorrectable error in it. -/
def State.writeDeliver (s : State) (k : Nat) (bad : Bool) : State :=
  match s.atTile k with
  | some (x, l) =>
    match x.body with
    | .write w =>
      if bad then s.meshError k x l
      else
        let s1 := s.deliverTo k x l (fun _ t => (t.land w).1)
        if s.partOf l != some x.part || (s.tile l).pad.wiping then s1.tellWriter x w ((s.part x.part).relOf l) 5
        else
          match ((s.tile l).land w).2 with
          | some r => s1.tellWriter x w ((s.part x.part).relOf l) r
          | none => s1.flowCount x.part l w
    | .ctl (.announce _ ctr _ _ _ _ _) => if bad then s.meshError k x l else s.deliverTo k x l (fun _ t => .quiet (t.count (some ctr)))
    | _ => s
  | none => s

/-- A control item delivered to a tile. -/
def State.ctlDeliver (s : State) (k : Nat) (f : Option Nat → Ctl → Option (Env → Tile → TRes)) : State :=
  match s.atTile k with
  | some (x, l) =>
    match x.body with
    | .ctl c =>
      match f x.src.asPort c with
      | some g => s.deliverTo k x l g
      | none => s
    | _ => s
  | none => s

/-- Whether an endpoint is bound to the peer that an item names. -/
def Endpoint.boundTo (e : Endpoint) (port : Option Nat) (n : Ends) : Bool :=
  e.peerep.toNat == n.sep && e.peertile.toNat == n.srctile && e.remote == port.isSome &&
    (match port with | some q => e.port.toNat == q | none => true)

/-- WRITE_FAILURE_NOTICE. -/
def State.writeFailure (s : State) (k : Nat) : State :=
  s.ctlDeliver k fun _ c => match c with
    | .writeFail _ ft kd r => some (fun _ t => .quiet (t.writeFailed ft kd r))
    | _ => none

/-- OPEN_REQUEST. -/
def State.openRequest (s : State) (k : Nat) : State :=
  s.ctlDeliver k fun q c => match c with
    | .openReq e => some (fun env t => t.openRequest env.now q e)
    | _ => none

/-- OPEN_REPLY. -/
def State.openReply (s : State) (k : Nat) : State :=
  s.ctlDeliver k fun _ c => match c with
    | .openRep e r u => some (fun _ t => t.openReply e r u)
    | _ => none

/-- HALL_PASS_RETURN. -/
def State.hallPass (s : State) (k : Nat) : State :=
  s.ctlDeliver k fun _ c => match c with
    | .passes sep _ u => some (fun _ t => t.hallPass sep u)
    | _ => none

/-- TRUNCATION_NOTICE. -/
def State.truncNotice (s : State) (k : Nat) : State :=
  s.ctlDeliver k fun q c => match c with
    | .truncNotice e n => some (fun _ t => if (t.epAt e.dep).boundTo q e then t.truncNotice e.dep n else .quiet t)
    | _ => none

/-- CLOSE_NOTICE. -/
def State.closeNotice (s : State) (k : Nat) : State :=
  s.ctlDeliver k fun q c => match c with
    | .closeNotice e => some (fun _ t => if !(t.epAt e.dep).boundTo q e then .quiet t else if (t.epAt e.dep).send then t.closeNotice e.dep
      else t.closeMarker e.dep)
    | _ => none

/-- MESSAGE_FLIT. -/
def State.messageFlit (s : State) (k : Nat) : State :=
  match s.atTile k with
  | some (x, l) =>
    match x.body with
    | .flit f => s.deliverTo k x l (fun env t => t.messageFlit env x.src.asPort f)
    | _ => s
  | none => s

/-- CHANNEL_CLOSE_MARKER. -/
def State.closeMarker (s : State) (k : Nat) : State :=
  match s.atTile k with
  | some (x, l) =>
    match x.body with
    | .marker e => s.deliverTo k x l (fun _ t => if (t.epAt e.dep).boundTo x.src.asPort e then t.closeMarker e.dep else .quiet t)
    | _ => s
  | none => s

/-- OPEN_REQUEST_TIMEOUT: a request held 10 ms (R288). -/
def State.openTimeout (s : State) (l k : Nat) : State :=
  match s.partOf l, ((s.tile l).epAt k).held with
  | some p, some a => (s.until (a.since + 10000000)).runTile p l (fun _ t => t.openRequestTimeout k)
  | _, _ => s

/-- PARTIAL_MESSAGE_TIMEOUT: PTMO µs after a message's first flit; 0 selects 50 (R297). -/
def State.partialTimeout (s : State) (l k : Nat) : State :=
  let e := (s.tile l).epAt k
  match s.partOf l, e.asm with
  | some p, some a =>
    (s.until (a.since + 1000 * (if e.ptmo = 0 then 50 else e.ptmo))).runTile p l (fun env t => t.partialTimeout env k)
  | _, _ => s

/-! ### Reductions (R261) -/

/-- Elements of a packet in a tree's format. -/
def redElems (bf16 : Bool) (bs : List Byte) : List Nat :=
  let n := if bf16 then 2 else 4
  (List.range (64 / n)).map (fun i => leVal ((bs.drop (n * i)).take n))

/-- The exact sum of one element's inputs, rounded once. -/
def redSum (bf16 : Bool) (xs : List Nat) : List Byte :=
  let f := if bf16 then Fmt.bf16 else Fmt.fp32
  leBytes (if bf16 then 2 else 4) (f.ofNum (Num.sum (xs.map f.decode))).1

/-- The merge of the packets at the heads. -/
def redMerge (bf16 : Bool) (ps : List RedPkt) : List Byte :=
  let es := ps.map (fun k => redElems bf16 k.data)
  ((List.range (if bf16 then 32 else 16)).map (fun i => redSum bf16 (es.map (fun e => nth e i 0)))).flatten

/-- REDUCE_MERGE at a node: one packet from each queue; the result to the parent's queue when it has room, or to the root's own tile. -/
def State.reduceMerge (s : State) (p tree node : Nat) : State :=
  let x := s.part p
  match Tab.find? x.trees (treeKey tree node) with
  | some n =>
    match n.own with
    | o :: own =>
      if n.qs.any (·.isEmpty) || x.refused then s
      else
        let heads := o :: n.qs.filterMap (·.head?)
        let data := redMerge n.bf16 heads
        let tags := (heads.map (·.tags)).flatten
        let trees := Tab.put x.trees (treeKey tree node) { n with own := own, qs := n.qs.map (fun q => q.drop 1) }
        match n.parent with
        | none =>
          let l : Place := .tile (x.logical node)
          (match o.out with
           | some w => (s.setPart p { x with trees := trees }).inject ⟨l, l, p, tags, .write { w with data := data }⟩
           | none => s.setPart p { x with trees := trees })
        | some up =>
          (match Tab.find? trees (treeKey tree up) with
           | some u =>
             let i := u.kids.findIdx (· == node)
             let q := nth u.qs i []
             if 4 ≤ q.length then s
             else s.setPart p { x with trees := Tab.put trees (treeKey tree up) { u with qs := u.qs.set i (q ++ [⟨data, none, tags⟩]) } }
           | none => s)
    | [] => s
  | none => s

/-! ### Chalkboard (R264–R269) -/

/-- Data beats of an item. -/
def Chalk.beats : Chalk → Nat
  | .data _ _ bs _ _ => ceilDiv bs.length 256
  | _ => 0

/-- The beats a tile has yet to write. -/
def Board.backlog (b : Board) (l : Nat) : Nat :=
  ((b.flight.filter (fun f => f.left.contains l)).map (fun f => f.item.beats)).foldl (· + ·) 0

/-- The partition granted next: in rotation after the last, one with a write pending (R266). -/
def Board.nextPart (b : Board) : Option Nat :=
  ((List.range 8).map (fun i => (b.turn + 1 + i) % 8)).find? (fun p => b.reqs.any (fun r => r.part == p))

/-- CHALKBOARD_GRANT: the oldest write of the partition whose turn it is; a ns of data hold while a tile's buffer holds 12 beats
(R266, R269). -/
def State.chalkGrant (s : State) : State :=
  match s.board.nextPart with
  | some p =>
    let i := s.board.reqs.findIdx (fun r => r.part == p)
    match s.board.reqs[i]? with
    | some r =>
      let ls := (s.part p).tiles
      if r.item.beats != 0 && ls.any (fun l => 12 ≤ s.board.backlog l) then
        { s.until (s.now + 1) with board := { s.board with hold := s.board.hold + 1 } }
      else
        let items : List Chalk := match r.item with
          | .data g off [] _ count => if count then [.groupCount g off] else []
          | c => [c]
        { s with board := { s.board with
            reqs := dropNth s.board.reqs i, turn := p, flight := s.board.flight ++ items.map (fun c => ⟨p, c, some r.tag, ls⟩) } }
    | none => s
  | none => s

/-- The oldest item on its way to a tile. -/
def Board.first (b : Board) (l : Nat) : Option ChalkFlight := b.flight.find? (fun f => f.left.contains l)

/-- An item has reached a tile. -/
def Board.reached (b : Board) (f : ChalkFlight) (l : Nat) : Board :=
  let i := b.flight.findIdx (· == f)
  let g := { f with left := f.left.filter (· != l) }
  { b with flight := if g.left.isEmpty then dropNth b.flight i else b.flight.set i g }

/-- CHALKBOARD_DELIVER: a write's data at one tile; `bad` when its beats met an uncorrectable error (R265, R278). -/
def State.chalkDeliver (s : State) (l : Nat) (bad : Bool) : State :=
  match s.board.first l with
  | some f =>
    match f.item with
    | .data g off bs full count =>
      let s1 := { s with board := s.board.reached f l }
      if bad then s1.classD (some f.part) 1 (s.seat l).site 0
      else if s.partOf l == some f.part then s1.mirror f.part l (fun _ t => t.chalkLand g off bs full count)
      else s1
    | _ => s
  | none => s

/-- COUNT_WORD_APPLY: a count word after every beat before it (R267). -/
def State.countWord (s : State) (l : Nat) : State :=
  match s.board.first l with
  | some f =>
    let s1 := { s with board := s.board.reached f l }
    match f.item with
    | .groupCount g off => if s.partOf l == some f.part then s1.mirror f.part l (fun _ t => t.chalkLand g off [] false true) else s1
    | .counter c =>
      if s.partOf l == some f.part && !(s.tile l).pad.wiping then s1.mirror f.part l (fun _ t => .quiet (t.count (some c))) else s1
    | _ => s
  | none => s

/-- CHART_WORD: firmware's chart entry takes effect in every router (R267, R272). -/
def State.chartWord (s : State) (l : Nat) (e : Seat) : State := s.setSeat l e

end Sys2Proof.Machine
end

