-- ==== Sys2Proof/Machine/Dma.lean ====
section
/-! DEFINITION. DMA streams at work, translation faults, the regulator, BAR2, the memory blocks' commands, patrol scrub and refresh
(`10_memory_tiers.md` R314–R347, `15_power_and_thermal.md` R481). -/

namespace Sys2Proof.Machine

/-! ### Streams -/

def Tile.stream (t : Tile) (k : Nat) : Stream := nth t.xc.streams.toList k .reset
def Tile.setStream (t : Tile) (k : Nat) (x : Stream) : Tile :=
  if h : k < 4 then { t with xc := { t.xc with streams := t.xc.streams.set k x } } else t
def State.modStream (s : State) (l k : Nat) (f : Stream → Stream) : State :=
  s.setTile l ((s.tile l).setStream k (f ((s.tile l).stream k)))

/-- The bytes a descriptor moves in all (R320, R324). -/
def DmaDesc.total (d : DmaDesc) : Nat :=
  if d.rows = 0 || d.len = 0 then 0 else if d.op = 3 || d.op = 6 || d.op = 7 then d.len else d.rows * d.len

/-- The regulator's tokens for `n` bytes, in bytes; with RATE 0 there is no limit (R328). -/
def State.spend (s : State) (p n : Nat) : Option State :=
  let r := (s.part p).reg
  if r.rate.force = 0 then some s
  else if n ≤ r.tokens then some (s.modPart p (fun x => { x with reg := { x.reg with tokens := x.reg.tokens - n } }))
  else none

/-- Whether the stack that a DVA leads to makes requests wait (R481). -/
def State.stackWaits (s : State) (p dva : Nat) (write : Bool) : Bool :=
  match (s.translate p dva write).2 with
  | .found pa _ => (nth s.hbm.heat.toList (pa / 2 ^ 36) ⟨0, 1, 0, false, false⟩).hot
  | _ => false

/-- What one piece of a transfer comes to: bytes moved, units left unwritten for poison, a translation fault, a wait, an end. -/
inductive Piece where
  | moved (n : Nat)
  | spoiled (n : Nat)
  | ranged (n : Nat)
  | fault (reason addr : Nat) (write : Bool)
  | wait
  | ends (status : Nat)
  deriving DecidableEq, Repr

/-- Bytes of the tile's own buffer. -/
def State.localGet (s : State) (p l : Nat) (h : Word) (off n : Nat) : State × Option (List Byte) :=
  match (s.tile l).pad.fetch h off n with
  | (pad, .ok bs) => (s.setTile l { s.tile l with pad := pad }, some bs)
  | (pad, .error b) => ((s.setTile l { s.tile l with pad := pad }).act p l (padFault b), none)

/-- A piece out of the tile into HBM. -/
def State.pieceOut (s : State) (p l : Nat) (d : DmaDesc) (off dva n : Nat) : State × Piece :=
  let a := dva % 2 ^ 48
  if s.stackWaits p a true then (s, .wait)
  else
    match s.spend p 64 with
    | none => (s, .wait)
    | some s1 =>
      match s1.localGet p l d.lh off n with
      | (s2, none) => (s2, .ends stDenied)
      | (s2, some bs) =>
        match s2.dvaPut p a bs with
        | (s3, .done _) => (s3, .moved n)
        | (s3, .fault r) => (s3, .fault r a true)
        | (s3, .poisoned) => (s3, .spoiled n)
        | (s3, .dead) => (s3, .ends stDenied)

/-- A piece out of HBM into the tile. -/
def State.pieceIn (s : State) (p l : Nat) (d : DmaDesc) (off dva n : Nat) : State × Piece :=
  let a := dva % 2 ^ 48
  if s.stackWaits p a false then (s, .wait)
  else
    match s.spend p 64 with
    | none => (s, .wait)
    | some s1 =>
      match s1.dvaGet p a n with
      | (s2, .done bs) => (s2.mirror p l (fun _ t => t.landBytes d.lh off bs d.setfull), .moved n)
      | (s2, .fault r) => (s2, .fault r a false)
      | (s2, .poisoned) => (s2, .spoiled n)
      | (s2, .dead) => (s2, .ends stDenied)

/-- A unit from one DVA to another, or to or from the locker. -/
def State.pieceCopy (s : State) (p src dst : Nat) : State × Piece :=
  if s.stackWaits p src false || s.stackWaits p dst true then (s, .wait)
  else
    match s.spend p 128 with
    | none => (s, .wait)
    | some s1 =>
      match s1.dvaGet p src 64 with
      | (s2, .done bs) =>
        (match s2.dvaPut p dst bs with
         | (s3, .fault r) => (s3, .fault r dst true)
         | (s3, .dead) => (s3, .ends stDenied)
         | (s3, _) => (s3, .moved 64))
      | (s2, .fault r) => (s2, .fault r src false)
      | (s2, .poisoned) => (s2, .spoiled 64)
      | (s2, .dead) => (s2, .ends stDenied)

def State.pieceSave (s : State) (p dva lk : Nat) : State × Piece :=
  if s.stackWaits p dva false then (s, .wait)
  else
    match s.spend p 64 with
    | none => (s, .wait)
    | some s1 =>
      match s1.dvaGet p dva 64 with
      | (s2, .done bs) => (s2.lockerPut (s2.part p) lk bs, .moved 64)
      | (s2, .fault r) => (s2, .fault r dva false)
      | (s2, .poisoned) => (s2, .spoiled 64)
      | (s2, .dead) => (s2, .ends stDenied)

def State.pieceLoad (s : State) (p dva lk : Nat) : State × Piece :=
  if s.stackWaits p dva true then (s, .wait)
  else
    match s.spend p 64 with
    | none => (s, .wait)
    | some s1 =>
      match s1.lockerGet (s1.part p) lk with
      | (s2, none) => (s2, .spoiled 64)
      | (s2, some bs) =>
        match s2.dvaPut p dva bs with
        | (s3, .fault r) => (s3, .fault r dva true)
        | (s3, .dead) => (s3, .ends stDenied)
        | (s3, _) => (s3, .moved 64)

/-- A row-lookup's row counted (MM_LOOKUPS). -/
def State.lookup (s : State) (p : Nat) : State := s.modPart p (fun x => { x with mm := { x.mm with lookups := x.mm.lookups + 1 } })

/-- The piece of a GATHER or SCATTER at byte `c` of row `r` (R330). -/
def State.pieceRow (s : State) (p l : Nat) (d : DmaDesc) (r c : Nat) : State × Piece :=
  match s.localGet p l d.ih (d.off6 % 2 ^ 20 + 4 * r) 4 with
  | (s1, none) => (s1, .ends stDenied)
  | (s1, some ix) =>
    let x := leVal ix
    let s2 := if c = 0 then s1.lookup p else s1
    let off := d.loff + r * d.lstride + c
    if d.aux ≤ x then
      if d.op = 4 then
        (s2.mirror p l (fun _ t => t.landBytes d.lh off (List.replicate (d.len - c) 0) d.setfull), .ranged (d.len - c))
      else (s2, .ranged (d.len - c))
    else
      let a := d.dva + x * d.dstride + c
      if d.op = 4 then s2.pieceIn p l d off a (toUnitEnd a (d.len - c)) else s2.pieceOut p l d off a (toUnitEnd a (d.len - c))

/-- The piece at byte `m` of a descriptor's transfer (Table 10.5). -/
def State.piece (s : State) (p l : Nat) (d : DmaDesc) (m : Nat) : State × Piece :=
  let r := m / d.len
  let c := m % d.len
  let x := s.part p
  if x.refused then (s, .ends stDenied)
  else
    match d.op with
    | 1 => let a := d.dva + r * d.dstride + c; s.pieceOut p l d (d.loff + r * d.lstride + c) a (toUnitEnd a (d.len - c))
    | 2 => let a := d.dva + r * d.dstride + c; s.pieceIn p l d (d.loff + r * d.lstride + c) a (toUnitEnd a (d.len - c))
    | 3 => s.pieceCopy p ((d.dva + m) % 2 ^ 48) ((d.aux + m) % 2 ^ 48)
    | 4 => s.pieceRow p l d r c
    | 5 => s.pieceRow p l d r c
    | 6 => s.pieceSave p ((d.dva + m) % 2 ^ 48) (x.lkBase + d.off6 + m)
    | _ => s.pieceLoad p ((d.dva + m) % 2 ^ 48) (x.lkBase + d.off6 + m)

/-- MM_TRANSLATION_FAULT: the stream stops at the byte it could not move (R325). -/
def State.streamFault (s : State) (p l k m reason addr : Nat) (write : Bool) : State :=
  let x := s.part p
  let s1 := s.modStream l k (fun y => { y with fault := some s.now, moved := m })
  (s1.modPart p (fun y => { y with mm := { y.mm with faults := y.mm.faults + 1 } })).partEvent p 0x4001
    [.h (4 * x.relOf l + k), .h l, .d addr, .h reason, .h (if write then 1 else 0), .h m]

/-- The head descriptor of a stream goes on from byte `m` until it is done, faults, or waits. -/
def State.dmaGo (s : State) (p l k : Nat) (d : DmaDesc) : Nat → Nat → State
  | 0, m => s.modStream l k (fun y => { y with moved := m })
  | fuel + 1, m =>
    if d.total ≤ m then s.modStream l k (fun y => { y with moved := m, status := some (if y.spoiled then 0x0B else stOk) })
    else
      match s.piece p l d m with
      | (s1, .moved n) => (s1.modStream l k (fun y => { y with bytes := y.bytes + n })).dmaGo p l k d fuel (m + n)
      | (s1, .spoiled n) => (s1.modStream l k (fun y => { y with spoiled := true })).dmaGo p l k d fuel (m + n)
      | (s1, .ranged n) => (s1.modStream l k (fun y => { y with range := true })).dmaGo p l k d fuel (m + n)
      | (s1, .fault r a w) => s1.streamFault p l k m r a w
      | (s1, .wait) => s1.modStream l k (fun y => { y with moved := m })
      | (s1, .ends st) => s1.modStream l k (fun y => { y with moved := m, status := some st })

/-- What a CK operation meets before it moves anything (R342). -/
def State.ckRefusal (s : State) (p : Nat) (d : DmaDesc) : Option Nat :=
  if (d.op = 6 || d.op = 7) && d.total != 0 then
    if !s.up.ready.getLsbD 29 then some stBusy
    else if (s.part p).lkSize < d.off6 + d.len then some 5
    else none
  else none

/-- A DMA operation's row: the head descriptor of stream `k` of tile `l`, of operation `op`. -/
def State.dmaRun (s : State) (l k op : Nat) : State :=
  match s.partOf l with
  | some p =>
    let x := (s.tile l).stream k
    match x.queue with
    | d :: _ =>
      if d.op != op || x.fault.isSome || x.status.isSome then s
      else
        match s.ckRefusal p d with
        | some st => s.modStream l k (fun y => { y with status := some st })
        | none => s.dmaGo p l k d (d.rows * (d.len / 64 + 2) + d.len / 64 + 2) x.moved
    | [] => s
  | none => s

/-- A stream's descriptor completes with a status (R322). -/
def Tile.dmaFinish (t : Tile) (k st : Nat) (ctr : Option Nat) : Tile :=
  let x := t.stream k
  let y := { x with queue := x.queue.drop 1, moved := 0, status := none, fault := none, spoiled := false, last := BitVec.ofNat 8 st
                    err := x.err || st != stOk, descs := x.descs + 1 }
  (t.setStream k y).count ctr

/-- DMA_COMPLETE. -/
def State.dmaComplete (s : State) (l k : Nat) : State :=
  match s.partOf l, (s.tile l).stream k with
  | some p, x =>
    match x.status, x.queue with
    | some st, d :: _ => s.mirror p l (fun _ t => .quiet (t.dmaFinish k st (if d.cnt then some d.ctr else none)))
    | _, _ => s
  | none, _ => s

/-! ### Faults ended (R326, R327) -/

/-- The tile and stream of a fault ID, when that stream is FAULTED. -/
def State.faulted (s : State) (p id : Nat) : Option (Nat × Nat) :=
  let x := s.part p
  if id / 4 < x.count then
    let l := x.logical (id / 4)
    if ((s.tile l).stream (id % 4)).fault.isSome then some (l, id % 4) else none
  else none

def State.stray (s : State) (p : Nat) : State := s.modPart p (fun x => { x with mm := { x.mm with stray := true } })

/-- MM_FRESUME_RESUME. -/
def State.faultResume (s : State) (p id : Nat) : State :=
  match s.faulted p id with
  | some (l, k) => s.modStream l k (fun y => { y with fault := none })
  | none => s.stray p

/-- MM_FRESUME_ABORT. -/
def State.faultAbort (s : State) (p id : Nat) : State :=
  match s.faulted p id with
  | some (l, k) => s.modStream l k (fun y => { y with fault := none, status := some 6 })
  | none => s.stray p

/-- TRANSLATION_FAULT_TIMEOUT. -/
def State.faultTimeout (s : State) (l k : Nat) : State :=
  match s.partOf l, ((s.tile l).stream k).fault with
  | some p, some t =>
    let ms := if (s.part p).mm.ftmo = 0 then 1000 else (s.part p).mm.ftmo
    ((s.until (t + 1000000 * ms)).modStream l k (fun y => { y with fault := none, status := some 6 })).modPart p
      (fun x => { x with mm := { x.mm with timedout := true } })
  | _, _ => s

/-! ### The memory blocks' commands (R316, R329, R339, R344) -/

def State.modMm (s : State) (p : Nat) (f : MmBlock → MmBlock) : State := s.modPart p (fun x => { x with mm := f x.mm })

/-- MM_INVAL.GO. -/
def State.mmInval (s : State) (p : Nat) : State := s.modMm p (fun m => { m with invalBusy := true })

/-- INVALIDATION_COMPLETE. -/
def State.invalDone (s : State) (p : Nat) : State := s.modMm p (fun m => if m.invalBusy then { m with invalBusy := false, tlb := [] } else m)

/-- MM_APPLY. -/
def State.mmApply (s : State) (p : Nat) : State :=
  s.modMm p (fun m => { m with valid := m.valid.apply, root := m.root.apply, invalBusy := true })

/-- MM_CHREL: the owner has moved its pages off a RETIRING slot. -/
def State.chRelease (s : State) (p k : Nat) : State :=
  match (s.part p).slots[k]? with
  | some x =>
    if x.state = .retiring then
      if (s.part p).state = .running || (s.part p).state = .preempting then s.setSlot p k .released else s.retireSlot p k
    else s
  | none => s

/-- BURST in bytes (Table 10.12). -/
def Regulator.cap (r : Regulator) : Nat := 1024 * (if r.burst.force = 0 then 64 else r.burst.force)

/-- MM_REG_APPLY. -/
def State.regApply (s : State) (p : Nat) : State :=
  s.modPart p (fun x =>
    let r := { x.reg with rate := x.reg.rate.apply, burst := x.reg.burst.apply }
    { x with reg := { r with tokens := Nat.min r.tokens r.cap } })

/-- Whether some request of a partition waits for tokens. -/
def State.regWaits (s : State) (p : Nat) : Bool :=
  decide ((s.part p).reg.tokens < 128) && (s.part p).tiles.any (fun l =>
    (s.tile l).xc.streams.any (fun x => !x.queue.isEmpty && x.fault.isNone && x.status.isNone))

/-- REGULATOR_REFILL: RATE × 0.1 GB/s over 10 ns is RATE bytes (R328). -/
def State.regRefill (s : State) (p : Nat) : State :=
  let w := s.regWaits p
  (s.until (s.now + 10)).modPart p (fun x =>
    if x.reg.rate.force = 0 then x
    else { x with reg := { x.reg with tokens := Nat.min (x.reg.tokens + x.reg.rate.force) x.reg.cap
                                      wait := if w then x.reg.wait + 10 else x.reg.wait } })

/-! ### BAR2 (R317, R335, R338) -/

/-- The partition a function owns. -/
def State.owned (s : State) (f : Nat) : Option Nat := (List.range 8).find? (fun p => (s.part p).exists_ && (s.part p).func == f)

/-- Where the BAR2 window puts an offset: a DVA, or with MODE 1 a PPA. -/
def MmBlock.window (m : MmBlock) (off : Nat) : Nat :=
  if m.apMode then m.apBase % 8 * 2 ^ 36 + off % 2 ^ 36 else m.apBase * 2 ^ 36 + off % 2 ^ 36

def State.aperr (s : State) (p : Nat) : State := s.modMm p (fun m => { m with aperr := true })

/-- A PPA-mode access of at most one unit, under the retain key. -/
def State.ppaGet (s : State) (p ppa n : Nat) : State × HbmEnd :=
  match (s.part p).placeFault ppa with
  | some r => (s, .fault r)
  | none => let r := s.hbmGet p (s.part p).keyRet (((s.part p).physOf ppa).getD 0) n; (r.1, r.2.ended)

def State.ppaPut (s : State) (p ppa : Nat) (bs : List Byte) : State × HbmEnd :=
  match (s.part p).placeFault ppa with
  | some r => (s, .fault r)
  | none => let r := s.hbmPut p (s.part p).keyRet (((s.part p).physOf ppa).getD 0) bs; (r.1, r.2.ended)

/-- BAR2 bytes written, unit by unit; a unit that fails is discarded with APERR. -/
def State.barWrite (s : State) (p : Nat) : Nat → Nat → List Byte → State
  | 0, _, _ => s
  | fuel + 1, off, bs =>
    if bs.isEmpty then s
    else
      let m := (s.part p).mm
      let a := m.window off
      let k := toUnitEnd a bs.length
      let r := if m.apMode then s.ppaPut p a (bs.take k) else s.dvaPut p a (bs.take k)
      let s1 := match r.2 with | .done _ => r.1 | _ => r.1.aperr p
      s1.barWrite p fuel (off + k) (bs.drop k)

/-- BAR2 bytes read; the whole read fails with its first unit that does. -/
def State.barRead (s : State) (p : Nat) : Nat → Nat → Nat → List Byte → State × Option (List Byte)
  | 0, _, _, acc => (s, some acc)
  | fuel + 1, off, n, acc =>
    if n = 0 then (s, some acc)
    else
      let m := (s.part p).mm
      let a := m.window off
      let k := toUnitEnd a n
      match (if m.apMode then s.ppaGet p a k else s.dvaGet p a k) with
      | (s1, .done bs) => s1.barRead p fuel (off + k) (n - k) (acc ++ bs)
      | (s1, _) => (s1.aperr p, none)

/-- BAR2_WRITE. -/
def State.bar2Write (s : State) (f off : Nat) (bs : List Byte) : State :=
  match s.owned f with
  | some p =>
    if (s.part p).refused then s
    else
      match s.spend p (64 * ceilDiv bs.length 64) with
      | some s1 => s1.barWrite p (bs.length + 1) off bs
      | none => s
  | none => s

/-- BAR2_READ: its completion stands in the function's answer, a Completer Abort as none. -/
def State.bar2Read (s : State) (f off n : Nat) : State :=
  let ones := List.replicate n (0xFF : Byte)
  let answer (s : State) (a : Option (List Byte)) : State := s.modFn f (fun x => { x with answer := a })
  match s.owned f with
  | some p =>
    if (s.part p).refused then answer s none
    else
      match s.spend p (64 * ceilDiv n 64) with
      | some s1 => let r := s1.barRead p (n + 1) off n []; answer r.1 (some (r.2.getD ones))
      | none => s
  | none => answer s (some ones)

/-! ### Patrol scrub and refresh (R337, R340, R481) -/

/-- PATROL_SCRUB of one unit, by module physical address / 64. -/
def State.patrol (s : State) (u : Nat) : State :=
  let c := u / 2 ^ 25
  if s.hbm.bad.contains u then
    let s1 := { s with hbm := s.hbm.spoil u }
    match s1.pcOwner c with
    | some (p, k) => (s1.flashGrade 3 c).partEvent p 0x4003 [.d (k * 2 ^ 31 + u * 64 % 2 ^ 31)]
    | none => s1.flashGrade 3 c
  else if s.hbm.weak.contains u then
    ({ s with hbm := { s.hbm with weak := s.hbm.weak.filter (· != u) } }).correctGrade 3 c 1
  else s

/-- The refresh multiplier after a reading (R340). -/
def Stack.refresh (k : Stack) (t : Nat) : Stack :=
  let want := if 95 < t then 4 else if 85 < t then 2 else 1
  if k.mult < want then { k with mult := want, cool := 0 }
  else if 1 < k.mult ∧ t + 3 ≤ (if k.mult = 4 then 95 else 85) then
    if k.cool + 1 = 10 then { k with mult := k.mult / 2, cool := 0 } else { k with cool := k.cool + 1 }
  else { k with cool := 0 }

/-- HBM_TEMP_READ. -/
def State.tempRead (s : State) (h t : Nat) : State :=
  if hh : h < 8 then
    let k := s.hbm.heat[h]
    let k1 := { k.refresh t with
      temp := t, half := if 100 ≤ t then true else k.half && decide (97 ≤ t)
      hot := if 105 ≤ t then true else k.hot && decide (102 ≤ t) }
    let s1 := { s with hbm := { s.hbm with heat := s.hbm.heat.set h k1 } }
    if k1.half && !k.half then s1.modEvent 0x3006 [.h h, .h t] else s1
  else s

end Sys2Proof.Machine
end

