-- ==== Sys2Proof/Machine/Fec.lean ====
section
/-! DEFINITION. The frame's codes: CRC-32C and the interleaved Reed-Solomon codes RS(136, 132) (`11_ranov_links.md` R354, R355). The
first byte of a codeword is its highest coefficient, and the CRC's bytes go low byte first (assumption 31). -/

namespace Sys2Proof.Machine

/-! ### CRC-32C -/

/-- One bit of the reflected division. -/
def crcBit (c : BitVec 32) : BitVec 32 := if c.getLsbD 0 then (c >>> 1) ^^^ 0x82F63B78#32 else c >>> 1

def crcByte (c : BitVec 32) (b : Byte) : BitVec 32 :=
  crcBit (crcBit (crcBit (crcBit (crcBit (crcBit (crcBit (crcBit (c ^^^ b.setWidth 32))))))))

def crc32c (bs : List Byte) : BitVec 32 := (bs.foldl crcByte 0xFFFFFFFF#32) ^^^ 0xFFFFFFFF#32

/-! ### GF(2⁸) with x⁸ + x⁴ + x³ + x² + 1 -/

def gfDouble (a : Nat) : Nat := if a < 128 then 2 * a else (2 * a) ^^^ 0x11D

def gfMulBits (b : Nat) : Nat → Nat → Nat
  | 0, _ => 0
  | n + 1, a => (if b.testBit (7 - n) then a else 0) ^^^ gfMulBits b n (gfDouble a)

/-- The product: bits of `b` from the lowest up. -/
def gfMul (a b : Nat) : Nat := gfMulBits b 8 a

def gfPow (a : Nat) : Nat → Nat
  | 0 => 1
  | n + 1 => gfMul a (gfPow a n)

/-- a⁻¹ = a²⁵⁴. -/
def gfInv (a : Nat) : Nat := gfPow a 254

/-! ### RS(136, 132) -/

/-- Coefficients of the generator below x⁴, from x³ down: (x − 1)(x − α)(x − α²)(x − α³). -/
def rsGen : List Nat :=
  let mulBy (p : List Nat) (r : Nat) : List Nat := List.zipWith (· ^^^ ·) (p ++ [0]) (0 :: p.map (gfMul r))
  ((((mulBy [1] 1 |> (mulBy · 2)) |> (mulBy · 4)) |> (mulBy · 8))).drop 1

/-- The four parity bytes of 132 data bytes. -/
def rsParity (data : List Nat) : List Nat :=
  data.foldl (fun r d =>
    let k := d ^^^ r.headD 0
    List.zipWith (· ^^^ ·) (r.drop 1 ++ [0]) (rsGen.map (gfMul k))) [0, 0, 0, 0]

/-- The syndrome of a codeword at α^k. -/
def rsSyndrome (word : List Nat) (k : Nat) : Nat :=
  let x := gfPow 2 k
  word.foldl (fun a d => gfMul a x ^^^ d) 0

/-- The locator of a position. -/
def rsLoc (i : Nat) : Nat := gfPow 2 (135 - i)

/-- A single error that explains the syndromes. -/
def rsOne (s0 s1 s2 s3 : Nat) : Option (Nat × Nat) :=
  (List.range 136).findSome? fun i =>
    let a := rsLoc i
    if gfMul s0 a = s1 ∧ gfMul s1 a = s2 ∧ gfMul s2 a = s3 then some (i, s0) else none

/-- Two errors that explain the syndromes. -/
def rsTwo (s0 s1 s2 s3 : Nat) : Option ((Nat × Nat) × (Nat × Nat)) :=
  (List.range 136).findSome? fun i =>
    (List.range i).findSome? fun j =>
      let a := rsLoc i
      let b := rsLoc j
      let f := gfMul (s1 ^^^ gfMul a s0) (gfInv (a ^^^ b))
      let e := s0 ^^^ f
      if e ≠ 0 ∧ f ≠ 0 ∧ gfMul e (gfMul a a) ^^^ gfMul f (gfMul b b) = s2 ∧
          gfMul e (gfMul a (gfMul a a)) ^^^ gfMul f (gfMul b (gfMul b b)) = s3 then some ((i, e), (j, f)) else none

/-- A codeword decoded, with the positions corrected; none when more than two bytes are in error. -/
def rsDecode (word : List Nat) : Option (List Nat × List Nat) :=
  let s0 := rsSyndrome word 0
  let s1 := rsSyndrome word 1
  let s2 := rsSyndrome word 2
  let s3 := rsSyndrome word 3
  if s0 = 0 ∧ s1 = 0 ∧ s2 = 0 ∧ s3 = 0 then some (word, [])
  else
    match rsOne s0 s1 s2 s3 with
    | some (i, e) => some (word.set i (nth word i 0 ^^^ e), [i])
    | none =>
      match rsTwo s0 s1 s2 s3 with
      | some ((i, e), (j, f)) => some ((word.set i (nth word i 0 ^^^ e)).set j (nth word j 0 ^^^ f), [i, j])
      | none => none

/-! ### Frames (Table 11.4) -/

/-- The frame positions of a codeword's bytes: 0 for A, 1 for B. -/
def cwPlaces (c : Nat) : List Nat := (List.range 132).map (fun i => 2 * i + c) ++ (List.range 4).map (fun i => 264 + 4 * c + i)

/-- A frame of a link word and a body. -/
def frameOf (link : Nat) (body : List Byte) : List Byte :=
  let head := leBytes 4 link ++ body
  let data := head ++ leBytes 4 (crc32c head).toNat
  let half (c : Nat) : List Nat := (List.range 132).map (fun i => (nth data (2 * i + c) 0).toNat)
  data ++ (rsParity (half 0) ++ rsParity (half 1)).map (BitVec.ofNat 8)

/-- What a receiver makes of a frame. -/
inductive Decoded where
  /-- good: link word, body, and the frame positions corrected -/
  | good (link : Nat) (body : List Byte) (fixed : List Nat)
  | badFec
  | badCrc (fixed : List Nat)
  deriving DecidableEq, Repr

def decodeFrame (frame : List Byte) : Decoded :=
  let word (c : Nat) : List Nat := (cwPlaces c).map (fun i => (nth frame i 0).toNat)
  match rsDecode (word 0), rsDecode (word 1) with
  | some (a, fa), some (b, fb) =>
    let data := (List.range 264).map (fun i => BitVec.ofNat 8 (nth (if i % 2 = 0 then a else b) (i / 2) 0))
    let fixed := fa.map (fun i => nth (cwPlaces 0) i 0) ++ fb.map (fun i => nth (cwPlaces 1) i 0)
    if (crc32c (data.take 260)).toNat = leVal (data.drop 260) then .good (leVal (data.take 4)) ((data.drop 4).take 256) fixed
    else .badCrc fixed
  | _, _ => .badFec

end Sys2Proof.Machine
end

