-- ==== Sys2Proof/Machine/Link.lean ====
section
/-! DEFINITION. Ranov ports: states, negotiation, lane retirement and loss, the two directions of frames, contexts and cells, time
(`11_ranov_links.md`). -/

namespace Sys2Proof.Machine

/-! ### Lanes and states (R350, R351, R367–R369) -/

def State.modPort (s : State) (q : Nat) (f : Port → Port) : State := s.setPort q (f (s.port q))

/-- An event of a port: to the physical function, and to the owner's (R376). -/
def State.portEvent (s : State) (q code : Nat) (fs : List Fl) : State := s.bothEvent (s.port q).owner code fs

/-- A port in a state from now on. -/
def Port.enter (x : Port) (st : PortState) (now : Nat) : Port := { x with state := st, since := now }

/-- The lanes that can carry traffic. -/
def Port.usable (x : Port) : List Nat := (List.range 4).filter (fun k => x.admitted.testBit k && !x.retired.testBit k)
/-- The lanes in use: the lowest-numbered (R351). -/
def Port.lanes (x : Port) : List Nat := x.usable.take x.width

/-- The width that `n` lanes carry under a major version (R351, Table 11.3). -/
def widthOf (n maj : Nat) : Nat := if n = 3 ∧ maj < 4 then 2 else n

/-- R350's narrowing: the next width below. -/
def narrower (w maj : Nat) : Nat := if w = 4 then widthOf 3 maj else w - 1

/-- A port's queues emptied: a WRITE not yet sent is answered with REASON 5 (R369). -/
def State.flushPort (s : State) (q : Nat) : State :=
  let x := s.port q
  let s1 := s.setPort q { x with cells := [], ctx1 := [], ctx3 := [], txOpen := none, retry := [], resendAt := 0, resends := 0
                                 rxOpen := none, rxCtx := [], nak := false, fails := 0 }
  (x.ctx1 ++ x.ctx3).foldl (fun s c =>
    match c, x.owner with
    | .write w d _, some p => s.refuseWrite (.port q) p w d 5
    | _, _ => s) s1

/-- Every channel over a port closes as for a peer that has gone (R302, R369). -/
def State.closeOver (s : State) (q : Nat) : State :=
  match (s.port q).owner with
  | some p =>
    (s.part p).tiles.foldl (fun s l =>
      (List.range 16).foldl (fun s k =>
        let e := (s.tile l).epAt k
        if e.remote && e.port.toNat == q && e.state == .isOpen then
          s.runTile p l (fun _ t => if e.send then t.closeNotice k else t.closeMarker k)
        else s) s) s
  | none => s

/-- A port enters DOWN: 1 WIDTH, 2 PROTOCOL, 3 RETRAIN, 4 VERSION (R369). -/
def State.portDown (s : State) (q cause : Nat) : State :=
  let s1 := (s.flushPort q).modPort q (fun x => { x.enter .down s.now with width := 0, downs := x.downs + 1, tvalid := false })
  (s1.portEvent q 0x5003 [.h q, .h cause]).closeOver q

/-- LK_PORT_UP (R350). -/
def State.portUp (s : State) (q : Nat) : State :=
  let s1 := s.modPort q (fun x => { x.enter .active s.now with txDue := s.now * 300 })
  let x := s1.port q
  s1.portEvent q 0x5004 [.h q, .d x.peer.toNat, .h x.peerPort, .h x.width, .h (16 * x.vmaj + x.vmin)]

/-- A lane leaves service: narrowing by a RETRAIN, or DOWN below MINW. Causes: 1 retry limit, 2 loss of signal, 3 gradebook
(R367–R369); the gradebook holds it retired (R505). -/
def State.loseLane (s : State) (q lane cause : Nat) : State :=
  let x := s.port q
  if x.retired.testBit lane then s
  else
    let used := x.lanes.contains lane
    let y := { x with retired := x.retired ||| 2 ^ lane, toRetire := x.toRetire &&& (15 - 2 ^ lane) }
    let w := if used then Nat.min y.usable.length (narrower x.width x.vmaj) else x.width
    let s1 := s.setPort q y
    let s2 := if cause = 1 then s1.countGrade 4 (4 * q + lane) 0 false else s1
    let s3 := (s2.retired 4 (4 * q + lane) w).portEvent q 0x5001 [.h q, .h lane, .h w, .h cause]
    if !used then s3
    else if w = 0 || w < x.minw.force then s3.portDown q 1
    else s3.modPort q (fun z => { z.enter .retrain s.now with toWidth := w })

/-- The lane with the most bytes corrected in the last 1 ms, the lower number at a tie (R367). -/
def Port.worst (x : Port) : Option Nat :=
  x.lanes.foldl (fun m k => match m with
    | none => some k
    | some b => if nth x.corrWin.toList b 0 < nth x.corrWin.toList k 0 then some k else some b) none

/-- A frame's retries are used up. -/
def State.retryLimit (s : State) (q : Nat) : State :=
  match (s.port q).worst with
  | some k => s.loseLane q k 1
  | none => s

/-- A protocol violation: the fourth within 1 s sends the port DOWN, another starts a RETRAIN (R369). -/
def State.violation (s : State) (q : Nat) : State :=
  let x := s.port q
  let vs := x.violations.filter (fun t => s.now < t + 1000000000) ++ [s.now]
  let s1 := s.setPort q { x with proterr := x.proterr + 1, violations := vs }
  if 4 ≤ vs.length then s1.portDown q 2
  else if x.state = .active then s1.modPort q (fun y => { y.enter .retrain s.now with toWidth := y.width })
  else s1

/-- PORT_DETECT_PULSE. -/
def State.detectPulse (s : State) (q : Nat) : State :=
  let x := s.port q
  if x.state = .detect || x.state = .down then (s.until (s.now + 100000000)).setPort q { x with pulses := x.pulses + 1 } else s

/-- PARTNER_DETECTED. -/
def State.partnerFound (s : State) (q : Nat) : State :=
  let x := s.port q
  if x.state = .detect || x.state = .down then s.setPort q (x.enter .train s.now) else s

/-- This module's capability record (R352, R353, R364). -/
def Port.ownCap (x : Port) (q : Nat) : CapRec := ⟨Config.serial, q, 4, 1, 3, 0, x.usable.foldl (fun m k => m + 2 ^ k) 0, [64, 448, 16, 496]⟩

/-- TRAIN_COMPLETE: the lanes that reached frame lock within the error rate (R351). -/
def State.trained (s : State) (q lanes : Nat) : State :=
  let x := s.port q
  if x.state = .train then
    let y := { x with admitted := lanes % 16 }
    let n := y.usable.length
    if n = 0 then s.setPort q (y.enter .detect s.now)
    else
      s.setPort q { y.enter .negotiate s.now with
        width := if n = 3 then 2 else n, partner := none, capSent := false, peerValid := false, rxSeq := 0xFF, txSeq := 0, retry := []
        resendAt := 0, resends := 0, nak := false, fails := 0, rxOpen := none, rxCtx := [], txOpen := none, sinceNull := 0
        given := #v[64, 448, 16, 496], returns := Vector.replicate 4 0, credits := #v[64, 0, 0, 0], txDue := s.now * 300 }
  else s

/-- TRAIN_TIMEOUT, NEGOTIATE_TIMEOUT, RETRAIN_TIMEOUT (Table 11.2). -/
def State.trainTimeout (s : State) (q : Nat) : State :=
  let x := s.port q
  if x.state = .train then
    let s1 := s.until (x.since + 300000000)
    s1.setPort q (x.enter .detect s1.now)
  else s

def State.negotiateTimeout (s : State) (q : Nat) : State :=
  let x := s.port q
  if x.state = .negotiate then
    let s1 := s.until (x.since + 1000000)
    s1.setPort q (x.enter .detect s1.now)
  else s

def State.retrainTimeout (s : State) (q : Nat) : State :=
  let x := s.port q
  if x.state = .retrain then (s.until (x.since + 10000)).portDown q 3 else s

/-- RETRAIN_COMPLETE: frames are locked again; the retry buffer goes out from ACK + 1 (R367). -/
def State.retrained (s : State) (q : Nat) : State :=
  let x := s.port q
  if x.state = .retrain then
    let s1 := s.setPort q { x with width := x.toWidth, resendAt := 0, resends := if x.retry.isEmpty then 0 else 1, nak := false, fails := 0 }
    if x.peerValid then s1.modPort q (fun y => { y.enter .active s.now with txDue := s.now * 300 })
    else (s1.modPort q (fun y => { y with peerValid := true })).portUp q
  else s

/-! ### Negotiation (R351–R353) -/

/-- The highest version in both ranges, as 16 × major + minor. -/
def pickVersion (hi lo hi2 lo2 : Nat) : Option Nat :=
  let v := Nat.min hi hi2
  if Nat.max lo lo2 ≤ v then some v else none

/-- CAPABILITY_RECORD: both records are exchanged. -/
def State.capability (s : State) (q : Nat) : State :=
  let x := s.port q
  match x.state, x.partner with
  | .negotiate, some c =>
    if nth c.credits 0 0 < 16 then s.portDown q 2
    else if !x.capSent then s
    else
      match pickVersion 0x41 0x30 (16 * c.hiMaj + c.hiMin) (16 * c.loMaj + c.loMin) with
      | none => s.portDown q 4
      | some v =>
        let y := { x with
          vmaj := v / 16, vmin := v % 16, peer := c.serial, peerPort := c.port, cells := x.cells.filter (fun k => match k with | .cap _ => false | _ => true)
          credits := Vector.ofFn (fun (i : Fin 4) => nth c.credits i.val 0) }
        let s1 := s.setPort q y
        let s2 := if v < 0x41 then s1.portEvent q 0x5002 [.h q, .h v, .h 0x41, .h (16 * c.hiMaj + c.hiMin)] else s1
        if 4 ≤ v / 16 ∧ y.usable.length = 3 ∧ 3 ≤ popUpTo c.lanes 4 then
          s2.modPort q (fun z => { z.enter .retrain s.now with toWidth := 3 })
        else (s2.modPort q (fun z => { z with peerValid := true })).portUp q
  | _, _ => s

/-! ### Control cells (Table 11.7) -/

def cell (w0 w1 : Nat) : List Byte := leBytes 8 w0 ++ leBytes 8 w1

/-- Fields placed at their bits. -/
def bitsAt (fs : List (Nat × Nat)) : Nat := fs.foldl (fun a f => a + f.1 * 2 ^ f.2) 0

def Ends.at (e : Ends) : Nat := bitsAt [(e.dep % 16, 8), (e.sep % 16, 12), (e.dtile % 4096, 16), (e.srctile % 4096, 28)]

/-- A control item as one or two cells; a TIME item takes the module time now (R371). -/
def Ctl.cells (c : Ctl) (now : Nat) : List (List Byte) :=
  match c with
  | .bell n =>
    [cell (bitsAt [(if n.release then 2 else 1, 0), (n.bell % 64, 4), (if n.anyfail then 1 else 0, 10), (n.status % 8, 12),
        (if n.late then 1 else 0, 15), (n.flags.toNat, 16), (n.epoch.toNat, 32)])
      (bitsAt [(n.latest % 4096, 0), (n.lateness % 2 ^ 32, 32)])]
  | .announce w ctr flow dtile count dsth dstoff =>
    cell (bitsAt [(3, 0), (if w.isSome then 1 else 0, 4), (ctr % 16, 8), (flow % 256, 12), (dtile % 4096, 20), (count % 2 ^ 32, 32)])
      (bitsAt [(dsth % 64, 0), (dstoff % 2 ^ 20, 8)]) :: (match w with | some v => [cell 4 v.toNat] | none => [])
  | .passes sep dtile units => [cell (bitsAt [(5, 0), (sep % 16, 8), (dtile % 4096, 16), (units % 2 ^ 32, 32)]) 0]
  | .openReq e => [cell (6 + e.at) 0]
  | .openRep e r u => [cell (bitsAt [(7, 0), (r % 256, 40)] + e.at) (u % 2 ^ 32)]
  | .closeNotice e => [cell (8 + e.at) 0]
  | .truncNotice e n => [cell (9 + e.at) n.toNat]
  | .writeFail d f k r => [cell (bitsAt [(10, 0), (d % 4096, 16), (f % 4096, 28), (k % 16, 40), (r % 16, 48)]) 0]
  | .throttle o r h => [cell (bitsAt [(11, 0), (o % 4096, 16), (r % 32, 32), (h % 16, 40)]) 0]
  | .timeReq _ _ => [cell 12 now]
  | .timeRep _ t2 at_ => [cell (bitsAt [(12 + 16, 0), ((now - at_) % 2 ^ 32, 32)]) t2]
  | .cap c =>
    [cell (bitsAt [(14, 0), (c.port % 16, 8), (c.hiMaj % 16, 16), (c.hiMin % 16, 20), (c.loMaj % 16, 24), (c.loMin % 16, 28),
        (c.lanes % 16, 32)]) c.serial.toNat,
      cell (bitsAt [(14, 0), (1, 4)]) (bitsAt ((List.range 4).map (fun i => (nth c.credits i 0 % 65536, 16 * i))))]

/-- What a cell pair spells, with whether it took both; none for a reserved KIND (R362). An empty cell is `some none`. -/
def readCell (a b : List Byte) (now : Nat) : Option (Option Ctl × Bool) :=
  let w := wordAt a 0
  let v := wordAt a 8
  let ends : Ends := ⟨fld w 8 4, fld w 12 4, fld w 16 12, fld w 28 12⟩
  let one (c : Ctl) : Option (Option Ctl × Bool) := some (some c, false)
  let notice (rel : Bool) : Notice :=
    ⟨rel, fld w 4 6, bit w 10, fld w 12 3, bit w 15, BitVec.ofNat 8 (fld w 16 8), BitVec.ofNat 32 (fld w 32 32), fld v 0 12, fld v 32 32⟩
  match fld w 0 4 with
  | 0 => some (none, false)
  | 1 => one (.bell (notice false))
  | 2 => one (.bell (notice true))
  | 3 =>
    let word := if bit w 4 then some (wordAt b 8) else none
    if bit w 4 && fld (wordAt b 0) 0 4 != 4 then none
    else some (some (.announce word (fld w 8 4) (fld w 12 8) (fld w 20 12) (fld w 32 32) (fld v 0 6) (fld v 8 20)), bit w 4)
  | 5 => one (.passes (fld w 8 4) (fld w 16 12) (fld w 32 32))
  | 6 => one (.openReq ends)
  | 7 => one (.openRep ends (fld w 40 8) (fld v 0 32))
  | 8 => one (.closeNotice ends)
  | 9 => one (.truncNotice ends (BitVec.ofNat 32 (fld v 0 32)))
  | 10 => one (.writeFail (fld w 16 12) (fld w 28 12) (fld w 40 4) (fld w 48 4))
  | 11 => one (.throttle (fld w 16 12) (fld w 32 5) (fld w 40 4))
  | 12 => one (if bit w 4 then .timeRep (fld w 32 32) v.toNat now else .timeReq v.toNat now)
  | 14 =>
    let x := wordAt b 8
    if fld (wordAt b 0) 0 4 != 14 then none
    else some (some (.cap ⟨v, fld w 8 4, fld w 16 4, fld w 20 4, fld w 24 4, fld w 28 4, fld w 32 4,
      (List.range 4).map (fun i => fld x (16 * i) 16)⟩), true)
  | _ => none

/-! ### Contexts (Table 11.6) -/

/-- A context's header, data and class. -/
def Ctx.wire (c : Ctx) (maj : Nat) : List Byte × List Byte × Nat :=
  match c with
  | .write w d r =>
    let cls := if maj ≠ 3 ∧ w.flow.any (fun f => 128 ≤ f) then 3 else 1
    (cell (bitsAt [(1, 0), (cls, 4), (if w.setfull then 1 else 0, 6), (if w.ctr.isSome then 1 else 0, 7), (w.ctr.getD 0 % 16, 8),
        (d % 4096, 16), (r % 4096, 28), (w.handle % 64, 40), (if w.flow.isSome then 1 else 0, 46), (w.flow.getD 0 % 256, 48)])
      (bitsAt [(w.off % 2 ^ 20, 0), (w.data.length % 2 ^ 15, 32)]), w.data, cls)
  | .msg e len seq tag data => (cell (bitsAt [(2, 0), (1, 4), (len % 2 ^ 24, 40)] + e.at) (seq.toNat + tag.toNat * 2 ^ 32), data, 1)
  | .msgc e off seq data => (cell (bitsAt [(3, 0), (1, 4), (off % 2 ^ 24, 40)] + e.at) seq.toNat, data, 1)
  | .pad e seq units => (cell (bitsAt [(4, 0), (1, 4)] + e.at) (seq.toNat + units % 2 ^ 32 * 2 ^ 32), [], 1)
  | .close e => (cell (bitsAt [(5, 0), (1, 4)] + e.at) 0, [], 1)

/-- A context in slots: HDR (2), then DATA (3). -/
def Ctx.slots (c : Ctx) (maj : Nat) : List (Nat × List Byte) × Nat :=
  let w := c.wire maj
  let padTo (bs : List Byte) : List Byte := bs ++ List.replicate (64 - bs.length) 0
  let more := w.2.1.drop 48
  ((2, padTo (w.1 ++ w.2.1.take 48)) ::
    (List.range (ceilDiv more.length 64)).map (fun i => (3, padTo ((more.drop (64 * i)).take 64))), w.2.2)

/-- The data bytes a header announces: none for a reserved TYPE or a length R358 or R360 does not allow. A MSGC's depend on the
message in assembly, whose length `whole` is. -/
def ctxLen (head : List Byte) (whole : Nat) : Option Nat :=
  let w := wordAt head 0
  match fld w 0 4 with
  | 1 => let n := fld (wordAt head 8) 32 15; if n ≤ 16384 then some n else none
  | 2 => some (Nat.min (fld w 40 24) 16384)
  | 3 => let off := fld w 40 24; if off % 16384 = 0 ∧ off ≠ 0 ∧ off < whole then some (Nat.min (whole - off) 16384) else none
  | 4 => some 0
  | 5 => some 0
  | _ => none

/-- A whole context. -/
def readCtx (head data : List Byte) : Ctx :=
  let w := wordAt head 0
  let v := wordAt head 8
  let e : Ends := ⟨fld w 8 4, fld w 12 4, fld w 16 12, fld w 28 12⟩
  let seq := BitVec.ofNat 32 (fld v 0 32)
  match fld w 0 4 with
  | 1 =>
    .write ⟨fld w 40 6, fld v 0 20, data, if bit w 7 then some (fld w 8 4) else none, bit w 6,
      if bit w 46 then some (fld w 48 8) else none, some (fld w 28 12)⟩ (fld w 16 12) (fld w 28 12)
  | 2 => .msg e (fld w 40 24) seq (BitVec.ofNat 32 (fld v 32 32)) data
  | 3 => .msgc e (fld w 40 24) seq data
  | 4 => .pad e seq (fld v 32 32)
  | _ => .close e

/-- A vector with one place changed. -/
def setAt (v : Vector Nat 4) (k n : Nat) : Vector Nat 4 := if h : k < 4 then v.set k n else v

/-- Slots of a class leave the buffer: credits to return (R364). -/
def Port.giveBack (x : Port) (cls n : Nat) : Port := { x with returns := setAt x.returns cls (nth x.returns.toList cls 0 + n) }

/-! ### Receiving (R356–R370) -/

/-- Whether a port's owner takes traffic for a partition-relative tile (R370). -/
def State.takes (s : State) (q dtile : Nat) : Option Nat :=
  match (s.port q).owner with
  | some p => if (s.part p).state != .ending && decide (dtile < (s.part p).count) then some p else none
  | none => none

def State.discard (s : State) (q : Nat) : State := s.modPort q (fun x => { x with discard := x.discard + 1 })

/-- A cell acts, or is refused (R363, R370). -/
def State.cellIn (s : State) (q : Nat) (c : Ctl) : State :=
  let toTile (t : Nat) : State :=
    match s.takes q t with
    | some p => s.inject ⟨.port q, .tile ((s.part p).logical t), p, [], .ctl c⟩
    | none => s.discard q
  let toRoot (s : State) : State :=
    match s.takes q 0 with
    | some p => s.inject ⟨.port q, .root, p, [], .ctl c⟩
    | none => s.discard q
  match c with
  | .bell n =>
    (match (s.port q).owner with
     | some p => toRoot (if ((s.part p).remoteBell n.bell).isSome then s else s.discard q)
     | none => s.discard q)
  | .announce _ _ f t _ _ _ =>
    (match s.takes q (if t = 0xFFF then 0 else t) with
     | some p =>
       let home := match Tab.find? (s.part p).flows f with | some x => x.home | none => q
       s.inject ⟨.port q, .port home, p, [], .ctl c⟩
     | none => s.discard q)
  | .passes _ t _ => toTile t
  | .openReq e => toTile e.dtile
  | .openRep e _ _ => toTile e.dtile
  | .closeNotice e => toTile e.dtile
  | .truncNotice e _ => toTile e.dtile
  | .writeFail t _ _ _ => toTile t
  | .throttle .. => toRoot s
  | .timeReq .. => s.inject ⟨.port q, .port q, 0, [], .ctl c⟩
  | .timeRep .. => s.inject ⟨.port q, .port q, 0, [], .ctl c⟩
  | .cap r => if (s.port q).state = .negotiate then s.modPort q (fun x => { x with partner := some r }) else s.discard q

/-- The four cells of a CTRL slot, in order. -/
def State.cellsIn (s : State) (q : Nat) : List (List Byte) → State × Bool
  | [] => (s, true)
  | a :: rest =>
    match readCell a (rest.headD []) s.now with
    | none => (s, false)
    | some (none, _) => s.cellsIn q rest
    | some (some c, false) => (s.cellIn q c).cellsIn q rest
    | some (some c, true) =>
      match rest with
      | _ :: rest2 => (s.cellIn q c).cellsIn q rest2
      | [] => (s, false)

/-- A slot spends a credit the partner holds; without one it breaks the protocol (R364, R369). -/
def Port.spendGiven (x : Port) (cls : Nat) : Option Port :=
  if nth x.given.toList cls 0 = 0 then none else some { x with given := setAt x.given cls (nth x.given.toList cls 0 - 1) }

/-- A context that may be whole now (R358). -/
def State.ctxStep (s : State) (q : Nat) (o : RxOpen) : State :=
  if o.data.length < o.len then s.modPort q (fun x => { x with rxOpen := some o })
  else if o.cls = 2 then (s.discard q).modPort q (fun x => ({ x with rxOpen := none }).giveBack 2 o.slots)
  else s.modPort q (fun x => { x with rxOpen := none, rxCtx := x.rxCtx ++ [(readCtx o.head (o.data.take o.len), o.slots, o.cls)] })

/-- The length of the message whose MSG context the endpoint last had, for its MSGC contexts: kept by the contexts waiting, or by the
endpoint in reassembly. -/
def State.wholeLen (s : State) (q : Nat) (head : List Byte) : Nat :=
  let w := wordAt head 0
  let seq := BitVec.ofNat 32 (fld (wordAt head 8) 0 32)
  let dep := fld w 8 4
  let dtile := fld w 16 12
  match (s.port q).rxCtx.reverse.findSome? (fun c => match c.1 with
      | .msg e len n _ _ => if e.dep = dep ∧ e.dtile = dtile ∧ n = seq then some len else none
      | _ => none) with
  | some n => n
  | none =>
    match (s.port q).owner with
    | some p =>
      match s.net.findSome? (fun k => match k.body with
          | .flit f => if f.ends.dep = dep ∧ f.ends.dtile = dtile ∧ f.seq = seq ∧ k.src = .port q then some f.len else none
          | _ => none) with
      | some n => n
      | none => (((s.tile ((s.part p).logical dtile)).epAt dep).asm.map (·.len)).getD 0
    | none => 2 ^ 24

/-- One slot of a frame; false when it breaks the protocol. -/
def State.slotIn (s : State) (q kind : Nat) (bs : List Byte) : State × Bool :=
  let x := s.port q
  match kind with
  | 0 => (s, true)
  | 1 =>
    match x.spendGiven 0 with
    | none => (s, false)
    | some y =>
      (s.setPort q (y.giveBack 0 1)).cellsIn q ((List.range 4).map (fun i => (bs.drop (16 * i)).take 16))
  | 2 =>
    let head := bs.take 16
    let cls := fld (wordAt head 0) 4 2
    match x.rxOpen, x.spendGiven cls, ctxLen head (s.wholeLen q head) with
    | none, some y, some n => if cls = 0 then (s, false) else ((s.setPort q y).ctxStep q ⟨head, bs.drop 16, n, 1, cls⟩, true)
    | _, _, _ => (s, false)
  | _ =>
    match x.rxOpen with
    | some o =>
      match x.spendGiven o.cls with
      | some y => ((s.setPort q y).ctxStep q { o with data := o.data ++ bs, slots := o.slots + 1 }, true)
      | none => (s, false)
    | none => (s, false)

/-- A frame's slots, in order, up to a violation. -/
def State.slotsIn (s : State) (q : Nat) : List (Nat × List Byte) → State
  | [] => s
  | (k, bs) :: rest =>
    match s.slotIn q k bs with
    | (s1, true) => s1.slotsIn q rest
    | (s1, false) => s1.violation q

/-- Corrected bytes counted on their lanes (R354, LK_LANECORR). -/
def Port.corrected (x : Port) (places : List Nat) (now : Nat) : Port :=
  let y := if x.winStart + 1000000 ≤ now then { x with corrWin := Vector.replicate 4 0, winStart := now } else x
  let lane (i : Nat) : Nat := nth y.lanes (i % Nat.max 1 y.lanes.length) 0
  { y with feccorr := y.feccorr + places.length
           lanecorr := places.foldl (fun v i => setAt v (lane i) (nth v.toList (lane i) 0 + 1)) y.lanecorr
           corrWin := places.foldl (fun v i => setAt v (lane i) (nth v.toList (lane i) 0 + 1)) y.corrWin }

/-- The partner's ACK: frames up to it leave the retry buffer; none when it names no frame outstanding. -/
def Port.acked (x : Port) (a : BitVec 8) : Option Port :=
  if a = x.txSeq - BitVec.ofNat 8 (x.retry.length + 1) then some x
  else
    let i := x.retry.findIdx (fun r => r.1 == a)
    if i < x.retry.length then
      some { x with retry := x.retry.drop (i + 1), resends := 0, resendAt := x.resendAt - (i + 1), capSent := true }
    else none

/-- A frame that cannot be used: NAK from now on; after the original and 16 resends a lane goes (R366, R367). -/
def State.frameBad (s : State) (q : Nat) : State :=
  let s1 := s.modPort q (fun x => { x with nak := true, fails := x.fails + 1 })
  if 17 ≤ (s1.port q).fails then s1.retryLimit q else s1

/-- A good frame: credits and acknowledgement, then its slots when it is the next in order (R356, R357, R366). -/
def State.frameGood (s : State) (q link : Nat) (body : List Byte) : State :=
  let w : Word := BitVec.ofNat 64 link
  let seq := BitVec.ofNat 8 (fld w 0 8)
  let x := s.port q
  match x.acked (BitVec.ofNat 8 (fld w 8 8)) with
  | none => s.violation q
  | some y =>
    let resend := bit w 24 && !y.retry.isEmpty
    if resend && decide (16 ≤ y.resends) && decide (y.retry.length ≤ y.resendAt) then (s.setPort q y).retryLimit q
    else
      let y1 := if resend && (y.resends == 0 || decide (y.retry.length ≤ y.resendAt)) then { y with resendAt := 0, resends := y.resends + 1 } else y
      if bit w 30 then s.setPort q y1
      else if seq = y1.rxSeq + 1 then
        let cls := fld w 25 2
        let y2 := { y1 with rxSeq := seq, nak := false, fails := 0, rxflits := y1.rxflits + 1
                            credits := setAt y1.credits cls (nth y1.credits.toList cls 0 + fld w 27 3) }
        (s.setPort q y2).slotsIn q ((List.range 4).map (fun i => (fld w (16 + 2 * i) 2, (body.drop (64 * i)).take 64)))
      else s.setPort q (if (seq - (y1.rxSeq + 1)).toNat < 128 then { y1 with nak := true } else y1)

/-- FRAME_RECEIVE. -/
def State.frameIn (s : State) (q : Nat) (frame : List Byte) : State :=
  let x := s.port q
  if x.state = .active || x.state = .negotiate then
    match decodeFrame frame with
    | .good link body fixed => (s.setPort q (x.corrected fixed s.now)).frameGood q link body
    | .badFec => (s.setPort q { x with fecunc := x.fecunc + 1 }).frameBad q
    | .badCrc fixed => (s.setPort q { x.corrected fixed s.now with crcerr := x.crcerr + 1 }).frameBad q
  else s

/-- LANE_LOSS_OF_SIGNAL. -/
def State.laneLost (s : State) (q lane : Nat) : State :=
  let x := s.port q
  if (x.state = .active || x.state = .retrain || x.state = .negotiate) && x.lanes.contains lane then s.loseLane q lane 2 else s

/-! ### Received contexts (R359–R361, R370, R453) -/

/-- The oldest received context leaves the buffer. -/
def State.ctxTaken (s : State) (q : Nat) : State :=
  s.modPort q (fun x => match x.rxCtx with | (_, n, cls) :: rest => ({ x with rxCtx := rest }).giveBack cls n | [] => x)

/-- Whether a pre-emption refuses what arrives (R453). -/
def Part.away (p : Part) : Bool := p.state == .preempted

/-- WRITE_CONTEXT. -/
def State.writeCtx (s : State) (q : Nat) : State :=
  match (s.port q).rxCtx.head? with
  | some (.write w d r, _, _) =>
    let s1 := s.ctxTaken q
    match s.takes q d with
    | some p =>
      if (s.part p).away then (s1.discard q).portCell q (.writeFail r d 1 5)
      else
        let n := Nat.max 1 (ceilDiv w.data.length 64)
        (List.range n).foldl (fun s i =>
          s.inject ⟨.port q, .tile ((s.part p).logical d), p, [],
            .write { w with off := w.off + 64 * i, data := (w.data.drop (64 * i)).take 64 }⟩) s1
    | none => (s1.discard q).portCell q (.writeFail r d 1 5)
  | _ => s

/-- The answer to refused channel data (R370). -/
def State.refuseMsg (s : State) (q : Nat) (e : Ends) : State :=
  (s.discard q).portCell q (.closeNotice ⟨e.sep, e.dep, e.srctile, e.dtile⟩)

/-- The flits of a segment, from its first flit's place in the message. -/
def segFlits (e : Ends) (seq : BitVec 32) (len : Nat) (tag : BitVec 32) (i0 : Nat) (bs : List Byte) : List Flit :=
  let ps := pieces (bs.length / 64) bs
  (List.range ps.length).map (fun i => ⟨e, seq, len, tag, unitsOf len, false, i0 + i, nth ps i []⟩)

/-- MSG_CONTEXT: MSG, MSGC, PAD and CLOSE. -/
def State.msgCtx (s : State) (q : Nat) : State :=
  let go (e : Ends) (bodies : List Body) (refusal : State → State) : State :=
    let s1 := s.ctxTaken q
    match s.takes q e.dtile with
    | some p =>
      if (s.part p).away then refusal s1
      else bodies.foldl (fun s b => s.inject ⟨.port q, .tile ((s.part p).logical e.dtile), p, [], b⟩) s1
    | none => refusal s1
  match (s.port q).rxCtx.head? with
  | some (.msg e len seq tag bs, _, _) => go e ((segFlits e seq len tag 0 bs).map .flit) (fun s => s.refuseMsg q e)
  | some (.msgc e off seq bs, _, _) =>
    let len := s.wholeLen q (cell (3 + e.at) seq.toNat)
    go e ((segFlits e seq len 0 (off / 64) bs).map .flit) (fun s => s.refuseMsg q e)
  | some (.pad e seq units, _, _) => go e [.flit ⟨e, seq, 0, 0, units, true, 0, []⟩] (fun s => s.refuseMsg q e)
  | some (.close e, _, _) => go e [.marker e] (fun s => s.discard q)
  | _ => s

/-! ### Sending (R357, R364–R366) -/

/-- The cells of one CTRL slot: as many whole items as four cells hold. -/
def packCells (now : Nat) : List Ctl → List (List Byte) → List (List Byte) × List Ctl
  | [], acc => (acc, [])
  | c :: cs, acc =>
    let k := c.cells now
    if acc.length + k.length ≤ 4 then packCells now cs (acc ++ k) else (acc, c :: cs)

/-- The class that opens a context next: in rotation after the last, with something ready and a credit. -/
def Port.nextCls (x : Port) : Option Nat :=
  ((List.range 3).map (fun i => (x.turn + i) % 3 + 1)).find? (fun c =>
    ((c == 1 && !x.ctx1.isEmpty) || (c == 3 && !x.ctx3.isEmpty)) && decide (0 < nth x.credits.toList c 0))

def Port.spend (x : Port) (cls : Nat) : Port := { x with credits := setAt x.credits cls (nth x.credits.toList cls 0 - 1) }

/-- The next slot to send: its kind and bytes, 0 for IDLE (R365). -/
def Port.nextSlot (x : Port) (now : Nat) : Port × Nat × List Byte :=
  let idle : List Byte := List.replicate 64 0
  if !x.cells.isEmpty && decide (0 < nth x.credits.toList 0 0) && decide (popUpTo x.share.toNat 128 < 16) then
    let r := packCells now x.cells []
    let t1 := if x.cells.any (fun c => match c with | .timeReq .. => true | _ => false) then some now else x.timeT1
    ({ x.spend 0 with cells := r.2, share := (x.share <<< 1) ||| 1, timeT1 := t1 }, 1,
      (r.1.flatten ++ idle).take 64)
  else
    let y := { x with share := x.share <<< 1 }
    match x.txOpen with
    | some ((k, bs) :: rest, cls) =>
      if nth x.credits.toList cls 0 = 0 then (y, 0, idle)
      else ({ y.spend cls with txOpen := if rest.isEmpty then none else some (rest, cls) }, k, bs)
    | _ =>
      match x.nextCls with
      | some cls =>
        let c := if cls = 1 then x.ctx1.head? else x.ctx3.head?
        (match c.map (fun c => (c.slots x.vmaj).1) with
         | some ((k, bs) :: rest) =>
           let z := if cls = 1 then { y with ctx1 := y.ctx1.drop 1 } else { y with ctx3 := y.ctx3.drop 1 }
           ({ z.spend cls with turn := cls, txOpen := if rest.isEmpty then none else some (rest, cls) }, k, bs)
         | _ => (y, 0, idle))
      | none => (y, 0, idle)

def Port.slotsOut (now : Nat) : Nat → Port → Port × List (Nat × List Byte)
  | 0, x => (x, [])
  | n + 1, x =>
    let r := x.nextSlot now
    let t := Port.slotsOut now n r.1
    (t.1, (r.2.1, r.2.2) :: t.2)

/-- The class whose credits go back next: 0 first, then the class with the most pending (R364). -/
def Port.returnCls (x : Port) : Option Nat :=
  if 0 < nth x.returns.toList 0 0 then some 0
  else [1, 2, 3].foldl (fun m k =>
    let n := nth x.returns.toList k 0
    match m with
    | some b => if nth x.returns.toList b 0 < n then some k else some b
    | none => if 0 < n then some k else none) none

/-- Whether the port has something to send in a sequenced frame. -/
def Port.busy (x : Port) : Bool :=
  !x.cells.isEmpty || !x.ctx1.isEmpty || !x.ctx3.isEmpty || x.txOpen.isSome || x.returnCls.isSome

/-- The link word's ACK and NAK. -/
def Port.ackBits (x : Port) : Nat := x.rxSeq.toNat * 256 + (if x.nak then 2 ^ 24 else 0)

/-- One frame leaves: a resend, a null frame, or the next sequenced frame (R357, R366). -/
def Port.send (x : Port) (q now : Nat) : Port :=
  let nullFrame : Port := { x with wire := frameOf (x.ackBits + 2 ^ 30) (List.replicate 256 0), sinceNull := 0 }
  if x.resends ≠ 0 ∧ x.resendAt < x.retry.length then
    match x.retry[x.resendAt]? with
    | some (seq, bits, body) =>
      { x with wire := frameOf (seq.toNat + x.ackBits + bits) body, resendAt := x.resendAt + 1, retries := x.retries + 1
               sinceNull := x.sinceNull + 1 }
    | none => nullFrame
  else if 128 ≤ x.retry.length || 8191 ≤ x.sinceNull then nullFrame
  else
    let x0 := if x.state = .negotiate then { x with cells := [.cap (x.ownCap q)] } else x
    if !x0.busy then nullFrame
    else
      let r := Port.slotsOut now 4 x0
      let y := r.1
      let kinds := bitsAt ((List.range 4).map (fun i => ((nth r.2 i (0, [])).1, 16 + 2 * i)))
      let back := match y.returnCls with
        | some c => let n := Nat.min 7 (nth y.returns.toList c 0); (c, n)
        | none => (0, 0)
      let bits := kinds + back.1 * 2 ^ 25 + back.2 * 2 ^ 27
      let body := (r.2.map (·.2)).flatten
      { y with
        wire := frameOf (y.txSeq.toNat + y.ackBits + bits) body, retry := y.retry ++ [(y.txSeq, bits, body)], resendAt := y.retry.length + 1
        txSeq := y.txSeq + 1, txflits := y.txflits + 1, sinceNull := y.sinceNull + 1
        returns := setAt y.returns back.1 (nth y.returns.toList back.1 0 - back.2)
        given := setAt y.given back.1 (nth y.given.toList back.1 0 + back.2) }

/-- The flit interval in 1/300 ns (R354). -/
def flitTime (w : Nat) : Nat := if w = 4 then 768 else if w = 3 then 1024 else if w = 2 then 1536 else 3072

/-- A ns of waiting for credit (LK_CSTALL). -/
def Port.stalls (x : Port) : Bool :=
  match x.txOpen with
  | some (_, cls) => nth x.credits.toList cls 0 == 0
  | none => (!x.ctx1.isEmpty && nth x.credits.toList 1 0 == 0) || (!x.ctx3.isEmpty && nth x.credits.toList 3 0 == 0)

/-- A port as the ns before `now` passes: a frame that falls due leaves. -/
def Port.tick (x : Port) (q now : Nat) : Port :=
  if x.state = .active || x.state = .negotiate then
    let y := if x.stalls then { x with cstall := x.cstall + 1 } else x
    if y.txDue ≤ now * 300 then { y.send q now with txDue := y.txDue + flitTime y.width } else y
  else x

/-! ### Time (R371) -/

/-- TIME_REQUEST_SEND. -/
def State.timeSend (s : State) (q : Nat) : State :=
  let x := s.port q
  if x.state = .active ∧ x.vmaj = 4 ∧ x.vmin = 1 then
    let s1 := s.until (x.timeLast + 1000000)
    (s1.portCell q (.timeReq s1.now s1.now)).modPort q (fun y => { y with timeLast := s1.now, timeT1 := some s1.now })
  else s

/-- TIME_REQUEST: the partner's request is answered. -/
def State.timeRequest (s : State) (k : Nat) : State :=
  match s.pick k with
  | some ⟨_, .port q, _, _, .ctl (.timeReq _ t2)⟩ => (s.took k).portCell q (.timeRep 0 t2 t2)
  | _ => s

/-- TIME_REPLY: LK_TOFF = T2 − T1 − (T4 − T1 − TURN) / 2. -/
def State.timeReply (s : State) (k : Nat) : State :=
  match s.pick k with
  | some ⟨_, .port q, _, _, .ctl (.timeRep turn t2 t4)⟩ =>
    let s1 := s.took k
    (match (s.port q).timeT1 with
     | some t1 =>
       let off : Int := (t2 : Int) - t1 - ((t4 : Int) - t1 - turn) / 2
       s1.modPort q (fun x => { x with toff := BitVec.ofInt 64 off, tvalid := true, timeT1 := none })
     | none => s1)
  | _ => s

/-! ### LK_APPLY (R374) -/

/-- LK_APPLY. -/
def State.lkApply (s : State) (q : Nat) : State :=
  let x := s.port q
  let y := { x with en := x.en.apply, minw := x.minw.apply }
  if !y.en.force then (s.setPort q y).flushPort q |>.modPort q (fun z => { z.enter .disabled s.now with width := 0 })
  else if x.state = .disabled then s.setPort q (y.enter .detect s.now)
  else if (x.state = .active || x.state = .retrain) ∧ x.width < y.minw.force then (s.setPort q y).portDown q 1
  else s.setPort q y

end Sys2Proof.Machine
end

