-- ==== Sys2Proof/Machine/Host.lean ====
section
/-! DEFINITION. The command board: slots, order and checks of commands, replies, rings, events, resets of functions, and the commands that
negotiate, query, read logs, move host memory and work the links (`13_host_interface_and_commands.md`). -/

namespace Sys2Proof.Machine

def stBadOp : Nat := 0x01
def stNoSpace : Nat := 0x05
def stFault : Nat := 0x06
def stVersion : Nat := 0x09
def stAborted : Nat := 0x0A
def stIntegrity : Nat := 0x0B

/-! ### Submission (R412–R415, R537) -/

/-- A refused write: CB_REFUSED, and its bit of CB_ERR with the slot that first set it. -/
def Fn.refuse (x : Fn) (b k : Nat) : Fn :=
  { x with refused := x.refused + 1, errSlot := if x.pErr.getLsbD b then x.errSlot else k, pErr := x.pErr ||| BitVec.ofNat 3 (2 ^ b) }

/-- The command that a header write submits, with TAG and parameters as they stand. -/
def State.cmdOf (s : State) (f k : Nat) (w : Word) : Cmd where
  func := f
  slot := k
  opcode := fld w 56 8
  noint := bit w 48
  order := bit w 49
  flagsBad := fld w 50 6 != 0
  plen := fld w 32 16
  seq := BitVec.ofNat 32 (fld w 0 32)
  tag := wordAt (Mem.readN (s.fn f).slots (256 * k + 8) 8) 0
  params := Mem.readN (s.fn f).slots (256 * k + 16) 240
  at_ := s.now
  taken := false
  deferred := false
  dup := s.cmds.any (fun c => c.func == f && c.seq == BitVec.ofNat 32 (fld w 0 32))
  silent := false
  moved := 0

/-- Parameter word `k` of a command. -/
def Cmd.arg (c : Cmd) (k : Nat) : Word := wordAt c.params (8 * k)

/-- SLOT_PARAMETER_WRITE: bytes 8–255 of a slot. -/
def State.slotWrite (s : State) (f k off : Nat) (bs : List Byte) : State :=
  let x := s.fn f
  if (Tab.find? x.full k).isSome then s.setFn f (x.refuse 0 k)
  else s.setFn f { x with slots := Mem.writeN x.slots (256 * k + off) (bs.take (256 - off)) }

/-! ### The order of commands (R416, R417) -/

def moduleOp (op : Nat) : Bool := [0x10, 0x11, 0x40, 0x50, 0x51, 0x80, 0x81, 0x90, 0xA0].contains op
def partOp (op : Nat) : Bool := [0x20, 0x21, 0x22, 0x24, 0x25, 0x26].contains op
def killOp (op : Nat) : Bool := [0x11, 0x12, 0x23].contains op

/-- The partition a command acts on (R426). -/
def Cmd.part (c : Cmd) : Option Nat :=
  if partOp c.opcode || killOp c.opcode || c.opcode = 0x30 then some (fld (c.arg 0) 0 3)
  else if c.opcode = 0x02 then some (fld (c.arg 0) 8 3)
  else if c.opcode = 0x70 ∧ !bit (c.arg 0) 8 then some (fld (c.arg 0) 0 3)
  else none

def Cmd.same (c d : Cmd) : Bool := c.func == d.func && c.slot == d.slot && c.at_ == d.at_ && c.seq == d.seq

/-- Outstanding commands that came before. -/
def State.before (s : State) (c : Cmd) : List Cmd := s.cmds.takeWhile (fun d => !c.same d)

/-- Whether a waiting command may start: a kill, reset or destroy at once; the others by their classes. -/
def State.mayStart (s : State) (c : Cmd) : Bool :=
  let old := s.before c
  let fn := s.fn c.func
  let early := fn.neg && decide (fn.uver < 0x30)
  let transient := match c.part with
    | some p => (s.part p).state == .preempting || (s.part p).state == .ending
    | none => false
  killOp c.opcode ||
    (!((early || c.order) && old.any (fun d => d.func == c.func)) &&
      !(moduleOp c.opcode && old.any (fun d => moduleOp d.opcode)) &&
      !(partOp c.opcode && (transient || old.any (fun d => partOp d.opcode && d.part == c.part))) &&
      !(c.part.isSome && old.any (fun d => killOp d.opcode && d.part == c.part)) &&
      !(c.opcode == 0x30 && decide (8 ≤ (s.cmds.filter (fun d => d.func == c.func && d.opcode == 0x30 && d.taken)).length)))

/-! ### The checks (R423–R426) -/

/-- A row of Table 13.10: opcode, length, the bits its parameter words define, its fields out of range by byte offset within the
parameters, who may issue it, and the first version that has it. -/
structure Form where
  code : Nat
  len : Nat
  masks : List Word
  bad : Cmd → List (Nat × Bool)
  pfOnly : Bool
  since : Nat

def Form.any (code len : Nat) (masks : List Word) (bad : Cmd → List (Nat × Bool)) : Form := ⟨code, len, masks, bad, false, 0x20⟩
def Form.pf (code len : Nat) (masks : List Word) (bad : Cmd → List (Nat × Bool)) : Form := ⟨code, len, masks, bad, true, 0x20⟩

/-- The offset within a word of its lowest byte with a bit outside a mask. -/
def lowFault (w m : Word) : Option Nat := (List.range 8).find? (fun i => fld (w &&& ~~~m) (8 * i) 8 != 0)

/-- The byte offsets of the fields at fault. -/
def Form.faults (fm : Form) (c : Cmd) : List Nat :=
  (if c.dup then [0] else []) ++ (if c.plen != fm.len then [4] else []) ++ (if c.flagsBad then [6] else []) ++
    (List.range fm.masks.length).filterMap (fun k => (lowFault (c.arg k) (nth fm.masks k 0)).map (fun i => 16 + 8 * k + i)) ++
    ((fm.bad c).filter (·.2)).map (fun e => 16 + e.1)

/-- Whether a function may issue the command for the partition it names. -/
def State.mayIssue (s : State) (fm : Form) (c : Cmd) : Bool :=
  c.func == 0 || (!fm.pfOnly && (match c.part with | some p => (s.part p).exists_ && (s.part p).func == c.func | none => true))

/-- The first check that fails: its status and DETAIL. -/
def State.verdict (s : State) (fm : Form) (c : Cmd) : Option (Nat × Nat) :=
  let fn := s.fn c.func
  if !fn.neg && fm.code ≠ 0x01 && fm.code ≠ 0x02 then some (stVersion, 0)
  else if fn.neg && fn.uver < fm.since then some (stBadOp, 0)
  else
    match fm.faults c with
    | a :: as => some (stBadArg, as.foldl Nat.min a)
    | [] => if s.mayIssue fm c then none else some (stDenied, 0)

/-- BADARG for the field at a byte offset of the slot. -/
def State.badArg (s : State) (c : Cmd) (off : Nat) : State := s.finish c stBadArg [] off

/-- The outstanding command of a slot that is still to be taken, when it is of an opcode and may start. -/
def State.toTake (s : State) (f k op : Nat) : Option Cmd :=
  match s.cmds.find? (fun c => c.func == f && c.slot == k && !c.deferred && !c.taken) with
  | some c => if c.opcode = op && s.mayStart c then some c else none
  | none => none

/-- A command taken: answered at once when a check fails, else executed. -/
def State.command (s : State) (f k : Nat) (fm : Form) (mine : Cmd → Bool) (go : State → Cmd → State) : State :=
  match s.toTake f k fm.code with
  | some c =>
    if mine c then
      match s.verdict fm c with
      | some (st, off) => s.finish c st [] off
      | none => go s c
    else s
  | none => s

/-- A command that goes on running. -/
def State.running (s : State) (c : Cmd) : State := s.setCmd c { c with taken := true }

/-- The opcodes of Table 13.10. -/
def knownOp (op : Nat) : Bool :=
  moduleOp op || partOp op || killOp op || [0x01, 0x02, 0x30, 0x41, 0x60, 0x70, 0x71].contains op

/-- A command of an opcode that no row has is answered as soon as it may start. -/
def State.sweep (s : State) : State :=
  s.cmds.foldl (fun s c =>
    if !knownOp c.opcode && s.mayStart c then s.finish c (if (s.fn c.func).neg then stBadOp else stVersion) [] 0 else s) s

/-- COMMAND_SUBMIT: a header write, and whether it is one aligned 8-byte write. -/
def State.submit (s : State) (f k : Nat) (w : Word) (whole : Bool) : State :=
  let x := s.fn f
  if (Tab.find? x.full k).isSome then s.setFn f (x.refuse 0 k)
  else if !whole then s.setFn f (x.refuse 1 k)
  else if !x.rr.en.force || !s.up.ready.getLsbD 0 then s.setFn f (x.refuse 2 k)
  else
    let s1 := { s with cmds := s.cmds ++ [s.cmdOf f k w] }
    (s1.setFn f { x with full := Tab.put x.full k w, submitted := x.submitted + 1 }).sweep

/-! ### Replies, CMD_DONE, events (R418, R419, R431, R432) -/

/-- CMD_TIMEOUT. -/
def State.cmdTimeout (s : State) (f k : Nat) : State :=
  match s.cmds.find? (fun c => c.func == f && c.slot == k && !c.deferred && !c.taken) with
  | some c => ((s.until (c.at_ + 1000000000)).finish c stTimeout [] 0).modFn f (fun x => { x with timeouts := x.timeouts + 1 })
  | none => s

/-- CMD_DEFERRED: its reply is OK with DEFERRED, and the work goes on. -/
def State.cmdDefer (s : State) (f k : Nat) : State :=
  match s.cmds.find? (fun c => c.func == f && c.slot == k && !c.deferred && c.taken) with
  | some c =>
    let s1 := (s.until (c.at_ + 1000000000)).setCmd c { c with deferred := true }
    if c.silent then s1
    else s1.modFn f (fun x => { x with replies := x.replies ++ [⟨c.slot, stOk, c.opcode, true, c.seq, c.tag, [], 0, c.noint⟩] })
  | none => s

/-- CMD_DONE: the oldest deferred command that has ended. -/
def State.cmdDone (s : State) (f : Nat) : State :=
  match (s.fn f).dones with
  | r :: rs =>
    (s.modFn f (fun x => { x with dones := rs })).sendEvent f 0x9004 none
      ([.h r.opcode, .h r.seq.toNat, .d r.tag.toNat, .h r.status] ++ (if r.opcode = 0x30 then [.d (nth r.result 0 0).toNat] else []))
  | [] => s

/-- REPLY_WRITE: the oldest reply goes to the ring, its slot becomes empty, and vector 0 is told. -/
def State.replyWrite (s : State) (f : Nat) : State :=
  let x := s.fn f
  match x.replies with
  | r :: rs =>
    if x.rr.free then
      let y := { x with
        replies := rs, rr := x.rr.next, full := Tab.erase x.full r.slot, lastSeq := r.seq }
      ((s.hostWrite x.rr.addr (r.bytes (if x.neg then x.uver else 0x32) x.rr.phase)).setFn f (if r.noint then y else y.notify 0 s.now)).sweep
    else s
  | [] => s

/-- EVENT_RING_WRITE: a held event, or EV_LOST once none is held. -/
def State.eventRingWrite (s : State) (f : Nat) : State :=
  let x := s.fn f
  if !x.ev.free then s
  else
    match x.held, x.gap with
    | e :: es, _ => (s.setFn f { x with held := es }).writeEvent f e
    | [], some (n, q) =>
      let e : Event := ⟨0x9003, none, x.nextSeq, s.now, packHalves [.h n, .d q]⟩
      let s1 := (s.setFn f { x with gap := none, nextSeq := x.nextSeq + 1 }).alert 0x9003 [.h n, .d q]
      if x.classes.force.testBit 8 then s1.writeEvent f e else s1
    | [], none => s

/-- INTERRUPT_MODERATION_EXPIRE. -/
def State.moderation (s : State) (f v : Nat) : State :=
  let x := s.fn f
  if h : v < 2 then
    match x.msix[v].first with
    | some t =>
      if x.imodDelay = 0 then s
      else (s.until (t + 1000 * x.imodDelay)).setFn f { x with msix := x.msix.set v (x.msix[v].fire) }
    | none => s
  else s

/-- CB_APPLY, EV_APPLY. -/
def Ring.applied (r : Ring) (lo : Nat) : Ring :=
  let n := r.log2.shadow
  ⟨r.base.apply, Rwa.of (if lo ≤ n ∧ n ≤ 16 then n else Config.ringLog2 n), r.en.apply, 0, 0, true⟩
def State.cbApply (s : State) (f : Nat) : State := s.modFn f (fun x => { x with rr := x.rr.applied 10 })
def State.evApply (s : State) (f : Nat) : State := s.modFn f (fun x => { x with ev := x.ev.applied 6, classes := x.classes.apply })

/-! ### Resets of functions (R404) -/

/-- A function's host interface after a reset; the slots' bytes and the vectors' masks stay. -/
def Fn.flr (x : Fn) : Fn :=
  { Fn.reset with slots := x.slots, msix := x.msix.map (fun v => { v with gathered := 0, first := none }), answer := x.answer }

/-- FUNCTION_LEVEL_RESET. -/
def State.flr (s : State) (f : Nat) : State :=
  { s.modFn f Fn.flr with cmds := s.cmds.map (fun c => if c.func = f then { c with silent := true } else c) }

/-- HOT_RESET: the same for every function. -/
def State.hotReset (s : State) : State :=
  { s with fns := s.fns.map Fn.flr, cmds := s.cmds.map (fun c => { c with silent := true }) }

/-! ### NEGOTIATE, QUERY, POWER_QUERY (R423, R426, R429) -/

def formNegotiate : Form := .any 0x01 8 [0xFFFF] (fun _ => [])

def State.cmdNegotiate (s : State) (f k : Nat) : State :=
  s.command f k formNegotiate (fun _ => true) fun s c =>
    if s.cmds.any (fun d => d.func == f && !c.same d) then s.finish c stBusy [] 0
    else
      let hi := fld (c.arg 0) 0 8
      match pickVersion 0x32 0x20 hi (fld (c.arg 0) 8 8) with
      | some v =>
        let s1 := s.modFn f (fun x => { x with uver := v, neg := true })
        let s2 := if v < 0x32 then s1.sendEvent f 0x9002 none [.h v, .h 0x32, .h hi] else s1
        s2.finish c stOk [place v 0 8 ||| place 0x32 8 8 ||| place 0x20 16 8] 0
      | none => (s.modFn f (fun x => { x with uver := 0, neg := false })).finish c stVersion [] 0

/-- A result for host memory: written whole when it fits in HLEN, else NOSPACE with the bytes it needs (R426). -/
def State.deliverResult (s : State) (c : Cmd) (haddr hlen : Nat) (bs : List Byte) : State :=
  if hlen < bs.length then s.finish c stNoSpace [0, BitVec.ofNat 64 bs.length] 0
  else (s.hostWrite haddr bs).finish c stOk [BitVec.ofNat 64 bs.length] 0

def formQuery : Form :=
  .any 0x02 32 [0x7FF, 0xFFFFFFFFFFFFFFFF, 0xFFFFFFFFFFFFFFFF, 0xFFFFFFFF] fun c =>
    [(0, fld (c.arg 0) 0 8 == 0 || decide (3 < fld (c.arg 0) 0 8)), (8, fld (c.arg 0) 0 8 == 2 && decide (63 < (c.arg 1).toNat)),
      (16, (c.arg 2).toNat % 64 != 0), (24, fld (c.arg 3) 0 32 % 64 != 0)]

/-- A partition's block registers at 0x00–0x38 (Table 14.7). -/
def State.ptReg (s : State) (p off : Nat) : Word :=
  let x := s.part p
  match off with
  | 0x00 =>
    place x.state.code 0 3 ||| place x.lastEnd 8 8 ||| placeB x.keep 16 ||| placeB x.pace 17 ||| placeB (x.exists_ && s.recessWork p) 18
  | 0x08 =>
    place x.bx 0 3 ||| place x.by_ 4 3 ||| place x.bw 8 3 ||| place x.bh 12 3 ||| place x.func 16 4 ||| place x.count 32 12
  | 0x10 => place x.ports 0 16 ||| place x.slots.length 16 9
  | 0x18 => place x.heldBell 0 6 ||| place x.heldEpoch.toNat 32 32
  | 0x20 => BitVec.ofNat 64 x.jobs
  | 0x28 => BitVec.ofNat 64 x.swaps
  | 0x30 => BitVec.ofNat 64 x.preempts
  | 0x38 => BitVec.ofNat 64 x.tests
  | _ => 0

/-- QUERY: an item of a partition that exists, or BADARG. -/
def State.query (s : State) (f k : Nat) (mine : Nat → Bool) (item : State → Nat → Cmd → Option (List Byte)) : State :=
  s.command f k formQuery (fun c => mine (fld (c.arg 0) 0 8)) fun s c =>
    let p := fld (c.arg 0) 8 3
    if !(s.part p).exists_ then s.badArg c 17
    else
      match item s p c with
      | some bs => s.deliverResult c (c.arg 2).toNat (fld (c.arg 3) 0 32) bs
      | none => s.badArg c 24

/-- QUERY_PARTITION, which also answers a WHAT that has no item. -/
def State.queryPartition (s : State) (f k : Nat) : State :=
  s.query f k (fun w => w != 2 && w != 3) fun s p _ =>
    some (((List.range 8).map (fun i => leBytes 8 (s.ptReg p (8 * i)).toNat)).flatten)

/-- QUERY_BELL_LATENESS: the bins of each participant. -/
def State.queryLateness (s : State) (f k : Nat) : State :=
  s.query f k (fun w => w == 2) fun s p c =>
    let e := (s.part p).bell (fld (c.arg 1) 0 6)
    e.desc.map (fun d =>
      let keys := d.members (s.part p).count ++ d.ports.map (65536 + ·)
      (keys.map (fun w => ((Tab.get (List.replicate 16 0) e.hist w).map (leBytes 4)).flatten)).flatten)

/-- QUERY_PARTITION_COUNTS. -/
def State.queryCounts (s : State) (f k : Nat) : State :=
  s.query f k (fun w => w == 3) fun s p _ =>
    let x := s.part p
    some (([x.discarded, x.unknownFlow, x.recessHolds, x.log.next, 0, 0, 0, 0].map (leBytes 8)).flatten)

/-- The row of Table 13.10 for opcode 0x41. -/
def formPower : Form :=
  .any 0x41 0 [] (fun _ => [])

/-- POWER_QUERY. -/
def State.powerQuery (s : State) (f k : Nat) : State :=
  s.command f k formPower (fun _ => true) fun s c =>
    s.finish c stOk
      [place s.power.host 0 16 ||| place s.power.mgmt 16 16 ||| place s.power.inForce 32 16, place s.power.mw 0 32,
        BitVec.ofNat 64 (s.power.energy / 100)] 0

/-! ### Logs and the gradebook (R493, R503) -/

def formLog : Form :=
  .any 0x70 32 [0x107, 0xFFFFFFFFFFFFFFFF, 0xFFFFFFFFFFFFFFFF, 0xFFFFFFFFFFFFFFFF] fun c =>
    [(16, (c.arg 2).toNat % 64 != 0), (24, (c.arg 3).toNat % 64 != 0)]

/-- Records from a number on, as many as fit, the number after the last, and NOSPACE when none of them fits. -/
def State.giveRecords (s : State) (c : Cmd) (size first : Nat) (bs : List (List Byte)) : State :=
  let room := (c.arg 3).toNat / size
  if room = 0 ∧ !bs.isEmpty then s.finish c stNoSpace [0, BitVec.ofNat 64 size] 0
  else
    let out := bs.take room
    (s.hostWrite (c.arg 2).toNat out.flatten).finish c stOk [BitVec.ofNat 64 out.length, BitVec.ofNat 64 (first + out.length)] 0

def State.giveLog (s : State) (c : Cmd) (g : Log) : State :=
  let old := match g.recs with | r :: _ => r.num | [] => g.next
  let from_ := Nat.max old (c.arg 1).toNat
  s.giveRecords c 64 from_ ((g.recs.drop (from_ - old)).map LogRec.bytes)

/-- LOG_READ. -/
def State.logRead (s : State) (f k : Nat) : State :=
  s.command f k formLog (fun c => !bit (c.arg 0) 8) fun s c =>
    let p := fld (c.arg 0) 0 3
    if (s.part p).exists_ then s.giveLog c (s.part p).log else s.badArg c 16

/-- LOG_READ_MODULE, for the physical function alone. -/
def State.logReadModule (s : State) (f k : Nat) : State :=
  s.command f k { formLog with pfOnly := true } (fun c => bit (c.arg 0) 8) fun s c => s.giveLog c s.faults.modLog

/-- How many units a gradebook class has (Table 16.7). -/
def State.classSize (s : State) (cls : Nat) : Nat :=
  match cls with
  | 1 => 3136
  | 2 => 50176
  | 3 => 256
  | 4 => 64
  | 5 => 12
  | 6 => 4
  | 7 => 8
  | 8 => s.faults.powerFails
  | _ => 0

/-- A record's 256 bytes (Table 16.8). -/
def Grade.bytes (g : Grade) (cls unit life : Nat) : List Byte :=
  let w0 := cls % 16 + g.state % 16 * 16 + unit % 65536 * 65536
  if cls = 8 then
    (([w0, g.first, g.last, nth g.extra 0 0, nth g.extra 1 0, nth g.extra 2 0].map (leBytes 8)).flatten) ++ List.replicate 208 0
  else
    (([w0, g.first, g.last, g.corrected, g.contained, g.proctor, Nat.min (g.window life) 65535 + g.notes % 65536 * 2 ^ 32,
        g.lastAddr].map (leBytes 8)).flatten) ++
      ((List.range 16).map (fun k => leBytes 4 (nth g.h1 k 0))).flatten ++ ((List.range 16).map (fun k => leBytes 4 (nth g.h2 k 0))).flatten ++
      List.replicate 64 0

/-- The row of Table 13.10 for opcode 0x71. -/
def formGrade : Form :=
  .pf 0x71 32 [0xF, 0xFFFFFFFFFFFFFFFF, 0xFFFFFFFFFFFFFFFF, 0xFFFFFFFFFFFFFFFF] fun c =>
    [(0, fld (c.arg 0) 0 4 == 0 || decide (8 < fld (c.arg 0) 0 4)), (16, (c.arg 2).toNat % 64 != 0), (24, (c.arg 3).toNat % 64 != 0)]

/-- GRADEBOOK_READ. -/
def State.gradeRead (s : State) (f k : Nat) : State :=
  s.command f k formGrade
    (fun _ => true) fun s c =>
      let cls := fld (c.arg 0) 0 4
      let from_ := (c.arg 1).toNat
      let n := Nat.min (s.classSize cls - from_) ((c.arg 3).toNat / 256 + 1)
      s.giveRecords c 256 from_ ((List.range n).map (fun i => (s.grade cls (from_ + i)).bytes cls (from_ + i) s.life))

/-! ### DMA_HOST (R405, R427) -/

/-- How a transfer stands: all moved, out of tokens, or ended with a status. -/
inductive HostEnd where
  | done
  | waits
  | ends (status : Nat)
  deriving DecidableEq, Repr

/-- One unit between host memory and the DVA space. -/
def State.hostPiece (s : State) (p : Nat) (out : Bool) (h dva n : Nat) : State × HostEnd :=
  let a := dva % 2 ^ 48
  if s.stackWaits p a (!out) then (s, .waits)
  else
    match s.spend p 64 with
    | none => (s, .waits)
    | some s1 =>
      let r := if out then s1.dvaGet p a n else s1.dvaPut p a (Mem.readN s1.host h n)
      match r with
      | (s2, .done bs) => (if out then s2.hostWrite h bs else s2, .done)
      | (s2, .fault _) => (s2.modPart p (fun x => { x with mm := { x.mm with faults := x.mm.faults + 1 } }), .ends stFault)
      | (s2, .poisoned) => (s2, .ends stIntegrity)
      | (s2, .dead) => (s2, .ends stDenied)

/-- The transfer from where it stands; with it, the bytes moved in all. -/
def State.hostMove (s : State) (p : Nat) (out : Bool) (h dva len : Nat) : Nat → Nat → State × HostEnd × Nat
  | 0, m => (s, .waits, m)
  | fuel + 1, m =>
    if len ≤ m then (s, .done, m)
    else
      let n := toUnitEnd (dva + m) (len - m)
      match s.hostPiece p out (h + m) (dva + m) n with
      | (s1, .done) => s1.hostMove p out h dva len fuel (m + n)
      | (s1, e) => (s1, e, m)

/-- A DMA_HOST goes on, up to `upto` bytes in all. -/
def State.hostGo (s : State) (c : Cmd) (upto : Nat) : State :=
  let p := fld (c.arg 0) 0 3
  if (s.part p).refused then s.finish c stDenied [] 0
  else
    let r := s.hostMove p (bit (c.arg 0) 8) (c.arg 1).toNat (fld (c.arg 2) 0 48) (Nat.min upto (fld (c.arg 3) 0 40)) (fld (c.arg 3) 0 40 + 1) c.moved
    match r with
    | (s1, .done, m) => s1.finish c stOk [BitVec.ofNat 64 m] 0
    | (s1, .waits, m) => s1.setCmd c { c with taken := true, moved := m }
    | (s1, .ends st, _) => s1.finish c st [] 0

def formDma : Form :=
  .any 0x30 32 [0x107, 0xFFFFFFFFFFFFFFFF, 0xFFFFFFFFFFFF, 0xFFFFFFFFFF] fun c =>
    [(8, (c.arg 1).toNat % 4 != 0), (16, (c.arg 2).toNat % 4 != 0), (24, (c.arg 3).toNat % 4 != 0)]

/-- DMA_HOST_TO_DVA (`out` false) and DMA_HOST_FROM_DVA: one that waits goes on, else the slot's command starts. -/
def State.dmaHost (s : State) (f k : Nat) (out : Bool) : State :=
  match s.cmds.find? (fun c => c.func == f && c.slot == k && c.opcode == 0x30 && c.taken && bit (c.arg 0) 8 == out) with
  | some c => s.hostGo c (2 ^ 40)
  | none =>
    s.command f k formDma (fun c => bit (c.arg 0) 8 == out) fun s c =>
      if (s.part (fld (c.arg 0) 0 3)).exists_ then s.hostGo c (2 ^ 40) else s.badArg c 16

/-- COMPLETION_TIMEOUT: a command that reads host memory gets no completion, or a poisoned one, and ends with FAULT; a transfer to the DVA
space has moved its first `moved` bytes by then. -/
def State.completionTimeout (s : State) (f k moved : Nat) (poisoned : Bool) : State :=
  match s.cmds.find? (fun c => c.func == f && c.slot == k && ([0x10, 0x50, 0xA0].contains c.opcode || (c.opcode == 0x30 && !bit (c.arg 0) 8)) &&
      (c.taken || (!c.deferred && s.mayStart c))) with
  | some c =>
    let s1 := if c.opcode = 0x30 ∧ !(s.part (fld (c.arg 0) 0 3)).refused then
        (s.hostMove (fld (c.arg 0) 0 3) false (c.arg 1).toNat (fld (c.arg 2) 0 48) (Nat.min moved (fld (c.arg 3) 0 40)) (moved + 1) c.moved).1
      else s
    (if poisoned then s1 else s1.until (s1.now + 50000000)).finish c stFault [] 0
  | none => s

/-! ### Links (R368, R372, R426, R428) -/

/-- LK_PSTAT (Table 11.10). -/
def Port.stat (x : Port) : Word :=
  place x.state.code 0 3 ||| place x.width 4 3 ||| place (x.lanes.foldl (fun m k => m + 2 ^ k) 0) 8 4 ||| place x.retired 12 4 |||
    place x.vmaj 16 4 ||| place x.vmin 20 4 ||| placeB x.owner.isSome 24 ||| place (x.owner.getD 0) 25 3 ||| placeB x.tvalid 28

def formLink : Form := .pf 0x80 8 [0x30F0F] fun c => [(1, fld (c.arg 0) 8 4 == 0 || decide (3 < fld (c.arg 0) 8 4))]

/-- LINK_CTRL on a port that is not in TEST. -/
def State.linkCtrl (s : State) (f k : Nat) (mine : Nat → Bool) (go : State → Nat → Nat → State) : State :=
  s.command f k formLink (fun c => mine (fld (c.arg 0) 8 4)) fun s c =>
    let q := fld (c.arg 0) 0 4
    if (s.port q).state = .test then s.finish c stBusy [] 0
    else
      let s1 := go s q (fld (c.arg 0) 16 2)
      s1.finish c stOk [(s1.port q).stat] 0

/-- The lanes that the gradebook has released return to service, and an ACTIVE port widens over all its usable lanes. -/
def State.widen (s : State) (q : Nat) : State :=
  let x := s.port q
  let back := (bitsOf x.retired 4).filter (fun k => (s.grade 4 (4 * q + k)).state == 3)
  let y := { x with retired := back.foldl (fun m k => m &&& (15 - 2 ^ k)) x.retired, admitted := back.foldl (fun m k => m ||| 2 ^ k) x.admitted }
  let w := widthOf y.usable.length y.vmaj
  if y.state = .active ∧ y.width < w then s.setPort q { y.enter .retrain s.now with toWidth := w } else s.setPort q y

def State.linkWiden (s : State) (f k : Nat) : State := s.linkCtrl f k (fun a => a == 1) (fun s q _ => s.widen q)

/-- LINK_RETRAIN, which also answers an ACTION that has no meaning. -/
def State.linkRetrain (s : State) (f k : Nat) : State :=
  s.linkCtrl f k (fun a => a != 1 && a != 3) fun s q _ =>
    if (s.port q).state = .active then s.modPort q (fun x => { x.enter .retrain s.now with toWidth := x.width }) else s

def State.linkRetire (s : State) (f k : Nat) : State := s.linkCtrl f k (fun a => a == 3) (fun s q lane => s.loseLane q lane 3)

/-- A lane's 32 bytes of a LINK_TEST result (R428). -/
def laneBytes (r : LaneReport) : List Byte :=
  leBytes 8 r.bits ++ leBytes 8 r.symbols ++ leBytes 8 r.ns ++ leBytes 8 ((if r.locked then 1 else 0) + r.rate % 2 ^ 56 * 256)

/-- A lane's test passes: locked, with an error rate within Table 11.1. -/
def lanePasses (r : LaneReport) : Bool := r.locked && decide (r.rate ≤ 1000000000)

/-- A unit that was retired once is released by a test that passes at least 24 h later (R506). -/
def State.releaseUnit (s : State) (cls unit : Nat) : State :=
  let g := s.grade cls unit
  if g.state = 2 ∧ g.retiredAt + 86400 ≤ s.life then
    ((s.setGrade cls unit { g with state := 3, events := [] }).flashGrade cls unit).modEvent 0x6009 [.h cls, .h unit]
  else s

/-- The test of a port ends: 32 bytes a lane go to the host, lanes are judged, and the port trains. -/
def State.linkTestEnd (s : State) (q : Nat) (t : LinkTest) (rs : List LaneReport) : State :=
  let none_ : LaneReport := ⟨0, 0, 0, false, 0⟩
  let s1 := s.until (t.began + 1000000 * t.ms)
  let s2 := (bitsOf t.lanes 4).foldl (fun s k =>
    let r := nth rs k none_
    let s' := s.modGrade 4 (4 * q + k) (fun g => { g with corrected := g.corrected + r.bits })
    if lanePasses r then s'.releaseUnit 4 (4 * q + k) else s') s1
  let s3 := s2.modPort q (fun x => { x.enter .train s2.now with test := none })
  match s3.cmds.find? (fun c => c.func == t.func && c.slot == t.slot && c.opcode == 0x81 && c.taken) with
  | some c =>
    let bs := ((List.range 4).map (fun k => laneBytes (if t.lanes.testBit k then nth rs k none_ else none_))).flatten
    (s3.hostWrite (c.arg 1).toNat bs).finish c stOk [128] 0
  | none => s3

/-- A job runs in the partition. -/
def Part.busy (x : Part) : Bool := x.state == .running || x.state == .preempting

/-- The row of Table 13.10 for opcode 0x81. -/
def formLinkTest : Form :=
  .pf 0x81 16 [0xFFFFFFFF00070F0F, 0xFFFFFFFFFFFFFFFF] fun c =>
    [(2, fld (c.arg 0) 16 3 == 0 || decide (4 < fld (c.arg 0) 16 3)),
    (4, fld (c.arg 0) 32 32 == 0 || decide (60000 < fld (c.arg 0) 32 32)), (8, (c.arg 1).toNat % 64 != 0)]

/-- LINK_TEST: the command puts its port in TEST; its end, with what the checkers counted, is the same row's. -/
def State.linkTest (s : State) (f k : Nat) (rs : List LaneReport) : State :=
  match (List.range 16).find? (fun q => (s.port q).test.any (fun t => t.func == f && t.slot == k)) with
  | some q =>
    (match (s.port q).test with
     | some t => s.linkTestEnd q t rs
     | none => s)
  | none =>
    s.command f k formLinkTest
      (fun _ => true) fun s c =>
        let q := fld (c.arg 0) 0 4
        let x := s.port q
        if x.state = .test || x.owner.any (fun p => (s.part p).busy) then s.finish c stBusy [] 0
        else
          (s.setPort q { x.enter .test s.now with
            before := x.state, test := some ⟨f, k, fld (c.arg 0) 8 4, fld (c.arg 0) 16 3, s.now, fld (c.arg 0) 32 32⟩ }).running c

end Sys2Proof.Machine
end

