-- ==== Sys2Proof/Machine/Image.lean ====
section
/-! DEFINITION. What LOAD_IMAGE and BIND_TIMETABLE read and check: job image, tree table, timetable (`14_partitions_and_jobs.md` R443, R444;
`08_package_mesh.md` R258, R259; `07_bells_and_timetables.md` R207–R209, R232, R238, R239). -/

namespace Sys2Proof.Machine

/-! ### The job image (Table 14.3, R444) -/

/-- A section entry: source offset, local address, length, FULL. -/
structure Section_ where
  off : Nat
  loc : Nat
  len : Nat
  full : Bool
  deriving DecidableEq, Repr

/-- What a directory entry describes. -/
structure TileImage where
  handles : Vector Word 64
  recs : Vector SRec 64
  secs : List Section_
  deriving DecidableEq, Repr

/-- A section entry, when it breaks no rule of its own. -/
def readSection (img : List Byte) (off : Nat) : Option Section_ :=
  let w0 := wordAt img off
  let w1 := wordAt img (off + 8)
  let x : Section_ := ⟨fld w0 0 40, fld w1 0 20, fld w1 32 21, bit w1 63⟩
  if outside w0 0xFFFFFFFFFF || outside w1 0x801FFFFF000FFFFF || x.loc % 64 != 0 || x.len % 8 != 0 ||
      decide (img.length < x.off + x.len) || decide (1048576 < x.loc + x.len) then none
  else some x

/-- Two sections share a byte. -/
def Section_.meets (a b : Section_) : Bool := decide (a.loc < b.loc + b.len) && decide (b.loc < a.loc + a.len)

/-- No two of a list overlap. -/
def sectionsApart : List Section_ → Bool
  | [] => true
  | a :: as => !(as.any a.meets) && sectionsApart as

/-- All of a list's options, or none. -/
def allSome {α : Type} : List (Option α) → Option (List α)
  | [] => some []
  | a :: as => match a, allSome as with | some x, some xs => some (x :: xs) | _, _ => none

/-- Handle entries pass R81, with no reserved bit and no OWN; h0 may be fetched from. -/
def handlesOk (hs : Vector Word 64) : Bool :=
  (List.range 64).all (fun n =>
    let w := nth hs.toList n 0
    !outside w 0x00007FFFFFFFFF1F && (!hValid w || (hShapeOk w && hSkewOk hs n w))) && hValid hs[0] && hX hs[0]

/-- Directory entry `t` of an image of `n` bytes. -/
def readTile (img : List Byte) (dir t : Nat) : Option TileImage :=
  let at_ (k : Nat) : Word := wordAt img (dir + 32 * t + 8 * k)
  let hoff := fld (at_ 0) 0 40
  let sroff := fld (at_ 1) 0 40
  let secoff := fld (at_ 2) 0 40
  let secn := fld (at_ 2) 48 16
  let n := img.length
  if outside (at_ 0) 0xFFFFFFFFFF || outside (at_ 1) 0xFFFFFFFFFF || outside (at_ 2) 0xFFFF00FFFFFFFFFF || at_ 3 != 0 ||
      decide (n < hoff + 512) || (sroff != 0 && decide (n < sroff + 4096)) || decide (n < secoff + 16 * secn) then none
  else
    let hs : Vector Word 64 := Vector.ofFn (fun i => wordAt img (hoff + 8 * i.val))
    let rec_ (i : Nat) : Option SRec := SRec.ofWords ((List.range 8).map (fun k => wordAt img (sroff + 64 * i + 8 * k)))
    let recs : Option (List SRec) := if sroff = 0 then some [] else allSome ((List.range 64).map rec_)
    match recs, allSome ((List.range secn).map (fun i => readSection img (secoff + 16 * i))) with
    | some rs, some ss =>
      if handlesOk hs && sectionsApart ss then some ⟨hs, Vector.ofFn (fun i => nth rs i.val .reset), ss⟩ else none
    | _, _ => none

/-! ### The tree table (R258, R259) -/

/-- An entry of the tree table. -/
structure TreeRow where
  tree : Nat
  bf16 : Bool
  node : Nat
  parent : Nat
  kids : List Nat
  deriving DecidableEq, Repr

/-- An entry, when it holds no reserved value and lists its children without a gap. -/
def readTree (img : List Byte) (off : Nat) : Option TreeRow :=
  let w0 := wordAt img off
  let w1 := wordAt img (off + 8)
  let cs := [fld w1 0 12, fld w1 16 12, fld w1 32 12, fld w1 48 12]
  let kids := cs.takeWhile (· != 0xFFF)
  if outside w0 0x00000FFF0FFFF3FF || outside w1 0x0FFF0FFF0FFF0FFF || wordAt img (off + 16) != 0 || wordAt img (off + 24) != 0 ||
      decide (1 < fld w0 12 4) || (cs.drop kids.length).any (· != 0xFFF) then none
  else some ⟨fld w0 0 10, fld w0 12 4 == 1, fld w0 16 12, fld w0 32 12, kids⟩

/-- The entry of a node of a tree. -/
def treeAt (rows : List TreeRow) (tree node : Nat) : Option TreeRow := rows.find? (fun r => r.tree == tree && r.node == node)

/-- Whether a node reaches a root within `n` steps. -/
def climbs (rows : List TreeRow) (tree : Nat) : Nat → Nat → Bool
  | 0, _ => false
  | n + 1, node =>
    match treeAt rows tree node with
    | some r => r.parent == 0xFFF || climbs rows tree n r.parent
    | none => false

/-- The table breaks no rule of R259 for a partition of `count` tiles. -/
def treesOk (rows : List TreeRow) (count : Nat) : Bool :=
  rows.all (fun r =>
    decide (r.node < count) && (r.parent == 0xFFF || decide (r.parent < count)) && r.kids.all (fun c => decide (c < count)) &&
      decide ((rows.filter (fun x => x.tree == r.tree && x.node == r.node)).length = 1) &&
      r.kids.all (fun c => (treeAt rows r.tree c).any (fun x => x.parent == r.node)) &&
      (r.parent == 0xFFF || (treeAt rows r.tree r.parent).any (fun x => x.kids.contains r.node)) &&
      decide ((rows.filter (fun x => x.tree == r.tree && x.parent == 0xFFF)).length = 1) &&
      climbs rows r.tree rows.length r.node && decide ((rows.filter (fun x => x.node == r.node)).length ≤ 32))

def TreeRow.entry (r : TreeRow) : TreeNode := ⟨r.bf16, if r.parent = 0xFFF then none else some r.parent, r.kids, [], r.kids.map (fun _ => [])⟩

/-! ### The whole image (R443) -/

/-- A checked image. -/
structure JobImage where
  tiles : List TileImage
  trees : List TreeRow
  deriving DecidableEq, Repr

/-- R443's checks in order: the image, or the status of the first that fails. -/
def readImage (img : List Byte) (len count : Nat) : Except Nat JobImage :=
  let at_ (k : Nat) : Word := wordAt img (8 * k)
  if fld (at_ 0) 0 32 ≠ 0x4D495847 then .error stBadArg
  else if fld (at_ 0) 32 8 ≠ 1 then .error stVersion
  else if (img.drop 32).take 48 ≠ Config.sha384 (img.drop 128) then .error stIntegrity
  else
    let tileOff := fld (at_ 2) 0 40
    let treeOff := fld (at_ 3) 0 40
    let nTrees := fld (at_ 1) 16 16
    if outside (at_ 0) 0xFFFFFFFFFF || outside (at_ 1) 0xFFFF0FFF || outside (at_ 2) 0xFFFFFFFFFF || outside (at_ 3) 0xFFFFFFFFFF ||
        outside (at_ 10) 0xFFFFFFFFFF || (List.range 5).any (fun k => at_ (11 + k) != 0) || fld (at_ 1) 0 12 != count ||
        fld (at_ 10) 0 40 != len || len % 64 != 0 || decide (len < tileOff + 32 * count) || decide (len < treeOff + 32 * nTrees) then
      .error stBadArg
    else
      match allSome ((List.range count).map (readTile img tileOff)), allSome ((List.range nTrees).map (fun k => readTree img (treeOff + 32 * k))) with
      | some ts, some rs => if treesOk rs count then .ok ⟨ts, rs⟩ else .error stBadArg
      | _, _ => .error stBadArg

/-- The rotation of a local address: that of the valid handle whose buffer covers its 1 KiB block (R444). -/
def skewAt (hs : List Word) (a : Nat) : Nat :=
  match hs.find? (fun w => hValid w && decide (0 < hLen w) && decide (hBase w / 1024 ≤ a / 1024) &&
      decide (a / 1024 ≤ (hBase w + hLen w - 1) / 1024)) with
  | some w => hSkew w
  | none => 0

/-- A section's bytes in the scratchpad; its words full when it is marked FULL (R90). -/
def Tile.putSection (t : Tile) (hs : List Word) (img : List Byte) (x : Section_) : Tile :=
  let places := (List.range x.len).map (fun i => placeOf (skewAt hs (x.loc + i)) (x.loc + i))
  let mem := (places.zip ((img.drop x.off).take x.len)).foldl (fun m c => Mem.write m c.1 c.2) t.pad.mem
  let full := if x.full then (wordsOf places).foldl (fun m w => Tab.set false m w true) t.pad.full else t.pad.full
  { t with pad := { t.pad with mem := mem, full := full } }

/-- A tile as LOAD_IMAGE leaves it: sections, then handles and scale records, over a wiped tile. -/
def Tile.loaded (t : Tile) (img : List Byte) (x : TileImage) : Tile :=
  let t0 := { Tile.wiped with pad := { Pad.reset with failedBanks := t.pad.failedBanks } }
  let t1 := x.secs.foldl (fun t k => t.putSection x.handles.toList img k) t0
  { t1 with pad := { t1.pad with h := x.handles }, sr := { t1.sr with recs := x.recs, opened := x.recs } }

/-! ### The timetable (Tables 7.1, 7.7, 7.8) -/

/-- A flow descriptor: flow, home, hold in µs. -/
structure FlowRow where
  flow : Nat
  home : Nat
  hold : Nat
  deriving DecidableEq, Repr

/-- The bits that a bell mask sets. -/
def maskOf (bs : List Byte) : Nat := leVal bs

/-- A bell descriptor: none for one that breaks a rule, `some none` for no bell. -/
def readBell (img : List Byte) (off count ports : Nat) : Option (Option (Nat × BellDesc)) :=
  let w0 := wordAt img off
  let w1 := wordAt img (off + 8)
  let id := fld w0 0 6
  let mask := maskOf ((img.drop (off + 64)).take 384)
  let d : BellDesc := ⟨bit w0 8, bit w0 9, fld w0 32 32, bit w1 0, bit w1 1, fld w1 4 4, fld w1 16 16, mask⟩
  if outside w0 0xFFFFFFFF000003BF || outside w1 0xFFFF00F3 || (List.range 6).any (fun k => wordAt img (off + 16 + 8 * k) != 0) then none
  else if !bit w0 7 then some none
  else if (mask == 0 && d.children == 0) || decide (2 ^ count ≤ mask) || (id == 63 && mask != 2 ^ count - 1) ||
      (!d.remote && (d.root || d.parent != 0 || d.children != 0)) || (d.remote && !d.root && !ports.testBit d.parent) ||
      (bitsOf d.children 16).any (fun q => !ports.testBit q) || (id != 63 && decide (10000000 < d.timeout)) then none
  else some (some (id, d))

/-- A flow descriptor likewise. -/
def readFlow (img : List Byte) (off ports : Nat) : Option (Option FlowRow) :=
  let w0 := wordAt img off
  let x : FlowRow := ⟨fld w0 0 8, fld w0 16 4, fld w0 32 32⟩
  if outside w0 0xFFFFFFFF000F80FF || wordAt img (off + 8) != 0 then none
  else if !bit w0 15 then some none
  else if !ports.testBit x.home || decide (10000000 < x.hold) then none
  else some (some x)

/-- A tile's section: offset, length, START. -/
structure TileSec where
  off : Nat
  len : Nat
  start : Nat
  deriving DecidableEq, Repr

/-- A checked timetable. -/
structure Timetable where
  bells : List (Nat × BellDesc)
  flows : List FlowRow
  secs : List TileSec
  deriving DecidableEq, Repr

/-- A directory entry of the timetable. -/
def readSec (img : List Byte) (off : Nat) : Option TileSec :=
  let w0 := wordAt img off
  let w1 := wordAt img (off + 8)
  let x : TileSec := ⟨fld w0 0 32, fld w0 32 32, fld w1 0 20⟩
  if outside w1 0xFFFFF || x.len % 32 != 0 || decide (img.length < x.off + x.len) then none else some x

/-- R238's checks in order: the timetable, or the status of the first that fails; h1 of each tile is checked with its section (R239). -/
def readTimetable (img : List Byte) (len count ports : Nat) (h1 : Nat → Word) : Except Nat Timetable :=
  let at_ (k : Nat) : Word := wordAt img (8 * k)
  if fld (at_ 0) 0 32 ≠ 0x35545447 then .error stBadArg
  else if fld (at_ 0) 32 8 ≠ 5 then .error stVersion
  else
    let nBells := fld (at_ 1) 16 7
    let nFlows := fld (at_ 1) 32 9
    let bellOff := fld (at_ 2) 0 32
    let flowOff := fld (at_ 2) 32 32
    let tileOff := fld (at_ 3) 0 32
    if fld (at_ 3) 32 32 != len || fld (at_ 1) 0 12 != count || outside (at_ 0) 0xFFFFFFFFFF || outside (at_ 1) 0x000001FF007F0FFF ||
        (List.range 4).any (fun k => at_ (4 + k) != 0) || decide (64 < nBells) || decide (256 < nFlows) ||
        decide (len < bellOff + 448 * nBells) || decide (len < flowOff + 16 * nFlows) || decide (len < tileOff + 16 * count) then
      .error stBadArg
    else
      match allSome ((List.range nBells).map (fun k => readBell img (bellOff + 448 * k) count ports)),
          allSome ((List.range nFlows).map (fun k => readFlow img (flowOff + 16 * k) ports)),
          allSome ((List.range count).map (fun t => readSec img (tileOff + 16 * t))) with
      | some bs, some fs, some ss =>
        let bells := bs.filterMap id
        let flows := fs.filterMap id
        let bad := (List.range count).any (fun t =>
          let x := nth ss t ⟨0, 0, 0⟩
          x.len != 0 && (!hValid (h1 t) || !hR (h1 t) || decide (hLen (h1 t) < x.len)))
        if bells.any (fun b => decide (1 < (bells.filter (fun c => c.1 == b.1)).length)) ||
            flows.any (fun g => decide (1 < (flows.filter (fun c => c.flow == g.flow)).length)) ||
            decide (4 < (bells.filter (fun b => b.2.track)).length) || bad then .error stBadArg
        else .ok ⟨bells, flows, ss⟩
      | _, _, _ => .error stBadArg

/-- A section copied to offset 0 of the tile's h1. -/
def Tile.bindSection (t : Tile) (img : List Byte) (x : TileSec) : Tile :=
  let cells := hCells (t.pad.h[1]) 0 ((img.drop x.off).take x.len)
  { t with pad := { t.pad with mem := cells.foldl (fun m c => Mem.write m c.1 c.2) t.pad.mem } }

end Sys2Proof.Machine
end

