-- ==== Sys2Proof/Machine/Jobs.lean ====
section
/-! DEFINITION. Partitions and jobs: creation, images, start, ends and wipes, pre-emption, recess work, tests, debug reads
(`14_partitions_and_jobs.md`; `10_memory_tiers.md` R334, R335; `08_package_mesh.md` R273, R274, R279; `16` R506, R508). -/

namespace Sys2Proof.Machine

/-! ### Keys (R333, R334, Table 10.9) -/

/-- A new key's generation. -/
def State.newKey (s : State) : Nat × State := (s.sec.keys + 1, { s with sec := { s.sec with keys := s.sec.keys + 1 } })

/-- The working key, the retain key destroyed and replaced; without its retain key a partition's translation is off. -/
def State.rekey (s : State) (p : Nat) (work retain : Bool) : State :=
  let s1 := if work then let k := s.newKey; k.2.modPart p (fun x => { x with keyWork := k.1 }) else s
  if retain then
    let k := s1.newKey
    k.2.modPart p (fun x => { x with keyRet := k.1, mm := { x.mm with valid := .of false, tlb := [] } })
  else s1

/-! ### Countersigning (R508) -/

/-- A disagreement: the module log and COUNTERSIGN_FAIL carry the decision kind, by its row of Table 16.11, and both values. -/
def State.disagree (s : State) (kind a b : Nat) : State :=
  (s.modLog 9 0xFFF 0 [.h kind, .d a, .d b]).modEvent 0x600B [.h kind, .d a, .d b]

/-! ### Wipes and drains (R102–R104, R279, R302) -/

/-- A tile wiped whole. -/
def Tile.cleared (t : Tile) : Tile := t.wipe.wipeDone []

/-- The banks whose read-back failed in a wipe enter the gradebook (R103). -/
def State.failBanks (s : State) (x : Nat) (banks : List Nat) : State :=
  banks.foldl (fun s b => s.condemn 2 (16 * x + b)) (s.setSiteTile x ((s.siteTile x).wipeDone banks))

/-- WIPE_COMPLETE. -/
def State.wipeComplete (s : State) (x : Nat) (banks : List Nat) : State :=
  if (s.siteTile x).pad.wiping then s.failBanks x banks else s

/-- The partition's tiles wiped; `failed` names banks whose read-back failed, by site. -/
def State.wipePart (s : State) (p : Nat) (failed : List (Nat × Nat)) : State :=
  let s1 := s.eachTile p (fun _ t => t.cleared)
  (s1.part p).tiles.foldl (fun s l =>
    let bs := (failed.filter (fun e => e.1 == (s.seat l).site)).map (·.2)
    if bs.isEmpty then s else s.failBanks (s.seat l).site bs) s1

/-- What a port holds for its owner is discarded; a context half sent goes to its end, and received slots give their credits back. -/
def Port.drained (x : Port) : Port :=
  let y := x.rxCtx.foldl (fun x e => x.giveBack e.2.2 e.2.1) x
  { y with
    rxCtx := [], ctx1 := [], ctx3 := []
    cells := x.cells.filter (fun c => match c with | .timeReq .. => true | .timeRep .. => true | .cap _ => true | _ => false) }

/-- The partition's packets, chalkboard writes and port queues discarded, and its tree entries cleared. -/
def State.drain (s : State) (p : Nat) : State :=
  let timed (k : Packet) : Bool := match k.body with | .ctl (.timeReq ..) => true | .ctl (.timeRep ..) => true | _ => false
  let b := s.board
  let s1 := { s with net := s.net.filter (fun k => k.part != p || timed k)
                     board := { b with reqs := b.reqs.filter (fun r => r.part != p), flight := b.flight.filter (fun r => r.part != p) } }
  (bitsOf (s.part p).ports 16).foldl (fun s q => s.modPort q Port.drained) s1

/-- Peers on other modules get a close notice from each channel's end. -/
def State.closePeers (s : State) (p : Nat) : State :=
  (s.part p).tiles.foldl (fun s l =>
    (List.range 16).foldl (fun s k =>
      let e := (s.tile l).epAt k
      if e.remote && (e.state == .isOpen || e.state == .opening) then
        s.portCell e.port.toNat (.closeNotice ⟨e.peerep.toNat, k, e.peertile.toNat, (s.part p).relOf l⟩)
      else s) s) s

/-- A held tile: its endpoints have closed. -/
def Tile.epsClosed (t : Tile) : Tile :=
  { t with xc := { t.xc with
      ep := t.xc.ep.map (fun e => if e.state = .idle then e else { e with state := .closed, credits := 0, asm := none, held := none }) } }

/-- A partition without its job, image and timetable. -/
def Part.cleared (x : Part) : Part :=
  { x with bells := [], onWay := [], rels := [], flows := [], trees := [], timetable := none, imaged := false, actions := 0, asked := none
           swapped := [], saved := none, rel63 := [], threshold := none, veto := false, repeats := 0, failPosted := false, ending := none
           refused := false }

/-- What a reset of the partition returns to its reset value (R13, R344). -/
def Part.regsReset (x : Part) : Part :=
  { x with dbgAddr := 0, dbgDenied := false, heldBell := 0, heldEpoch := 0
           mm := { x.mm with stray := false, aperr := false, timedout := false, invalBusy := false }
           proctor := { x.proctor with n := .of 0x100, pendingN := none } }

/-- The partition becomes EMPTY, its tiles wiped. -/
def State.empty (s : State) (p : Nat) (failed : List (Nat × Nat)) : State :=
  let s1 := (s.wipePart p failed).modPart p (fun x => { x.cleared with state := .empty })
  { s1 with sec := { s1.sec with
      imageDigest := if h : p < 8 then s1.sec.imageDigest.set p [] else s1.sec.imageDigest
      tableDigest := if h : p < 8 then s1.sec.tableDigest.set p [] else s1.sec.tableDigest } }

/-! ### The end of a job (R446–R450) -/

/-- The end status, and JOB_END's cause for a FAULT. -/
def EndCause.status : EndCause → Nat
  | .ok => stOk | .halt => stFault | .classD => stFault | .killed => stAborted | .reset => stFault | .destroyed => stFault
def EndCause.cause : EndCause → Nat
  | .ok => 0 | .halt => 1 | .classD => 2 | .killed => 0 | .reset => 3 | .destroyed => 4

/-- LASTEND and JOB_END; the partition's throttle notices go (R484). -/
def State.postEnd (s : State) (p : Nat) (c : EndCause) : State :=
  let s1 := (s.modPart p (fun x => { x with lastEnd := c.status })).partEvent p 0x6004 [.h c.status, .d (s.part p).step, .h c.cause]
  { s1 with power := { s1.power with notices := s1.power.notices.filter (fun n => n.part != p) } }

/-- The keys that an end destroys (Table 10.9). -/
def EndCause.keys (c : EndCause) (keep : Bool) : Bool × Bool :=
  match c with
  | .ok => (false, false)
  | .halt => (true, false)
  | .classD => (true, false)
  | .reset => (true, false)
  | .killed => (!keep, !keep)
  | .destroyed => (true, true)

/-- Commands of a partition that its end leaves without a job. -/
def State.strandedCmds (s : State) (p : Nat) (c : EndCause) : State :=
  s.cmds.foldl (fun s d =>
    if d.part = some p ∧ d.taken then
      if d.opcode = 0x24 ∨ d.opcode = 0x26 then
        if c = .classD then s.finish d stAborted [] 0 else s.badArg d 16
      else if d.opcode = 0x30 ∧ c = .classD then s.finish d stDenied [] 0
      else s
    else s) s

/-- The partition taken away (R441). -/
def State.destroy (s : State) (p : Nat) : State :=
  let x := s.part p
  let s1 := (List.range x.slots.length).foldl (fun s k =>
    match (s.part p).slots[k]? with
    | some y => if y.state = .retiring || y.state = .released then s.retireSlot p k else s
    | none => s) s
  let s2 := x.tiles.foldl (fun s l => s.setSeat l ⟨(s.seat l).site, 0, false, false⟩) (s1.rekey p true true)
  let s3 := (bitsOf x.ports 16).foldl (fun s q => s.modPort q (fun y => { y with owner := none })) s2
  let s4 := { s3 with locker := { s3.locker with
      cells := Tab.clear s3.locker.cells x.lkBase x.lkSize, keys := Tab.clear s3.locker.keys (x.lkBase / 64) (x.lkSize / 64)
      poison := s3.locker.poison.filter (fun u => u < x.lkBase / 64 || (x.lkBase + x.lkSize) / 64 ≤ u) } }
  (s4.setPart p { Part.reset with log := x.log })

/-- A kill, reset or destroy acts on a partition without a running job (Table 14.2). -/
def State.applyKill (s : State) (p : Nat) (c : Cmd) : State :=
  let x := s.part p
  let lost (e : EndCause) (s : State) : State := if x.state = .preempted then s.postEnd p e else s
  if c.opcode = 0x23 then
    match x.state with
    | .loaded => (s.empty p []).finish c stOk [] 0
    | .preempted => ((lost .killed (s.empty p [])).rekey p true true).finish c stOk [] 0
    | _ => s.finish c stOk [] 0
  else if !x.exists_ then s.badArg c 16
  else if c.opcode = 0x12 then
    (((lost .reset (s.empty p [])).rekey p true (x.state == .held)).modPart p Part.regsReset).finish c stOk [] 0
  else ((lost .destroyed (s.empty p [])).destroy p).finish c stOk [] 0

/-- Every other outstanding command of the partition ends ABORTED (R417). -/
def State.abortOthers (s : State) (p : Nat) (c : Cmd) : State :=
  (s.cmds.foldl (fun s d => if d.part = some p ∧ !c.same d then s.finish d stAborted [] 0 else s) s).modPart p
    (fun x => { x with actions := 0, asked := none })

/-- JOB_KILL, PART_RESET, PART_DESTROY: a running job ends, and the reply waits for PARTITION_END. -/
def State.endByCommand (s : State) (p : Nat) (c : Cmd) (cause : EndCause) : State :=
  let s1 := s.abortOthers p c
  match (s1.part p).state with
  | .running => (s1.jobEnd p cause).running c
  | .preempting => (s1.jobEnd p cause).running c
  | .ending => s1.running c
  | _ => s1.applyKill p c

/-- The row of Table 13.10 for opcode 0x23. -/
def formKill : Form :=
  .any 0x23 8 [7] (fun _ => [])

def State.jobKill (s : State) (f k : Nat) : State :=
  s.command f k formKill (fun _ => true) fun s c => s.endByCommand (fld (c.arg 0) 0 3) c .killed

/-- The row of Table 13.10 for opcode 0x12. -/
def formReset : Form :=
  .any 0x12 8 [7] (fun _ => [])

/-- PART_RESET and PART_DESTROY are countersigned: `second` is the other core's value when it differs. -/
def State.partReset (s : State) (f k : Nat) (second : Option Nat) : State :=
  s.command f k formReset (fun _ => true) fun s c =>
    let p := fld (c.arg 0) 0 3
    if !(s.part p).exists_ then s.badArg c 16
    else
      match second with
      | some v => (s.disagree 3 p v).finish c stFault [] 0
      | none => s.endByCommand p c .reset

/-- The row of Table 13.10 for opcode 0x11. -/
def formDestroy : Form :=
  .pf 0x11 8 [7] (fun _ => [])

def State.partDestroy (s : State) (f k : Nat) (second : Option Nat) : State :=
  s.command f k formDestroy (fun _ => true) fun s c =>
    let p := fld (c.arg 0) 0 3
    if !(s.part p).exists_ then s.badArg c 16
    else
      match second with
      | some v => (s.disagree 3 p v).finish c stFault [] 0
      | none => s.endByCommand p c .destroyed

/-- PARTITION_END: drain, closes, wipe or hold, keys, JOB_END, and the commands that waited for it. -/
def State.partitionEnd (s : State) (p : Nat) (failed : List (Nat × Nat)) : State :=
  let x := s.part p
  match x.state, x.ending with
  | .ending, some cause =>
    let keep := x.keep && (cause == .ok || cause == .halt || cause == .killed)
    let s1 := (s.drain p).closePeers p
    let s2 := if keep then
        (s1.eachTile p (fun _ t => t.epsClosed)).modPart p (fun y => { y.cleared with state := .held })
      else s1.empty p failed
    let ks := cause.keys keep
    let s3 := s2.rekey p ks.1 ks.2
    let s4 := if cause = .classD ∨ cause = .reset then s3.modPart p Part.regsReset else s3
    let s5 := (s4.postEnd p cause).strandedCmds p cause
    s5.cmds.foldl (fun s d => if d.part = some p ∧ d.taken ∧ killOp d.opcode then s.applyKill p d else s) s5
  | _, _ => s

/-! ### PART_CREATE (R439, R440, R536) -/

def formCreate : Form :=
  .pf 0x10 40 [0xF77777, 0xFFFF, 0xFFFF, 0x1FF, 0xFFFFFFFFFFFFFFFF] fun c =>
    let w := c.arg 0
    [(0, decide (7 < fld w 0 3 + fld w 8 3)), (0, decide (7 < fld w 4 3 + fld w 12 3)), (1, fld w 8 3 == 0), (1, fld w 12 3 == 0),
      (2, decide (8 < fld w 20 4)), (24, fld (c.arg 3) 0 9 == 0 || decide (256 < fld (c.arg 3) 0 9)), (32, (c.arg 4).toNat % 64 != 0)]

/-- The blocks of a rectangle by their readiness bits. -/
def Part.blocks (x : Part) : List Nat :=
  ((List.range x.bh).map (fun j => (List.range x.bw).map (fun i => 7 * (x.by_ + j) + x.bx + i))).flatten

/-- Two rectangles share a block. -/
def Part.overlaps (x y : Part) : Bool := x.blocks.any (fun b => y.blocks.contains b)

/-- A unit's readiness bits: not yet ready, and failed (R536). -/
def Bringup.pends (u : Bringup) (b : Nat) : Bool := !u.ready.getLsbD b && !u.failed.getLsbD b
def Bringup.pendsBlk (u : Bringup) (b : Nat) : Bool := !u.blocks.getLsbD b && !u.failBlocks.getLsbD b

/-- Each tile seated: on its own site, or where the gradebook has retired that, on its substitute; none when one has neither. -/
def State.seatAll (s : State) (p : Nat) : List Nat → Option State
  | [] => some s
  | l :: ls =>
    let here := (s.seat l).site
    let home := ownSite l
    let bad (x : Nat) : Bool := (s.grade 1 x).out || (s.grade 1 x).state == 1
    let site := if here != home && (s.grade 1 home).state == 3 then some home
      else if !bad here then some here else s.substitute (some p) l
    match site with
    | some x => (s.setSeat l ⟨x, p, true, false⟩).seatAll p ls
    | none => none

/-- PART_CREATE. -/
def State.partCreate (s : State) (f k : Nat) : State :=
  s.command f k formCreate (fun _ => true) fun s c =>
    let w := c.arg 0
    let p := fld w 16 3
    let n := fld (c.arg 3) 0 9
    let raw := Mem.readN s.host (c.arg 4).toNat (2 * n)
    let entry (i : Nat) : Nat := leVal ((raw.drop (2 * i)).take 2)
    let pcs := (List.range n).map (fun i => 32 * (entry i % 8) + entry i / 256 % 32)
    let lk := fld (c.arg 2) 0 16 * 2 ^ 26
    let x : Part := { Part.reset with
      state := .empty, bx := fld w 0 3, by_ := fld w 4 3, bw := fld w 8 3, bh := fld w 12 3, func := fld w 20 4, ports := fld (c.arg 1) 0 16
      slots := pcs.map (fun u => ⟨u / 32, u % 32, .active⟩), lkBase := p * 2 ^ 37, lkSize := lk }
    let ports := bitsOf x.ports 16
    let others := (List.range 8).filter (fun q => (s.part q).exists_)
    let hs := pcs.map (· / 32)
    let busy := others.contains p || others.any (fun q => (s.part q).func == x.func) || x.blocks.any s.up.pendsBlk ||
      hs.any (fun h => s.up.pends (5 + h)) || ports.any (fun q => s.up.pends (13 + q)) || (lk != 0 && s.up.pends 29)
    let full := others.any (fun q => (s.part q).overlaps x) || x.blocks.any (fun b => s.up.failBlocks.getLsbD b) ||
      pcs.any (fun u => s.hbm.retired.contains u || (s.pcOwner u).isSome || s.up.failed.getLsbD (5 + u / 32)) ||
      ports.any (fun q => (s.port q).owner.isSome || s.up.failed.getLsbD (13 + q)) || (lk != 0 && s.up.failed.getLsbD 29) ||
      decide (112 * 2 ^ 30 < others.foldl (fun a q => a + (s.part q).lkSize) lk)
    if s.sec.otp.state = 0 ∨ s.sec.otp.state = 4 then s.finish c stDenied [] 0
    else if (List.range n).any (fun i => entry i % 256 ≥ 8 || 32 ≤ entry i / 256) || pcs.eraseDups.length != n then s.badArg c 48
    else if busy then s.finish c stBusy [] 0
    else if full then s.finish c stNoSpace [] 0
    else
      let count := ((List.range (8 * x.bh)).map (fun j => rowSites (8 * x.bx) (8 * x.bw) (8 * x.by_ + j))).foldl (· + ·) 0
      let y := { x with count := count }
      match s.seatAll p y.tiles with
      | none => s.finish c stNoSpace [] 0
      | some s1 =>
        let s2 := ((s1.setPart p y).wipePart p []).rekey p true true
        let s3 := s2.modPart p (fun z => { z with lkKey := z.keyRet, log := ⟨[], 0⟩ })
        let s4 := ports.foldl (fun s q => s.modPort q (fun z => { z with owner := some p })) s3
        let base := y.lkBase
        let s5 := { s4 with
          locker := { s4.locker with
            cells := Tab.clear s4.locker.cells base lk, keys := Tab.clear s4.locker.keys (base / 64) (lk / 64)
            poison := s4.locker.poison.filter (fun u => u < base / 64 || (base + lk) / 64 ≤ u) } }
        s5.finish c stOk [BitVec.ofNat 64 count] 0

/-! ### LOAD_IMAGE, BIND_TIMETABLE, JOB_START (R238, R443–R445) -/

/-- The status with which a read of the partition's memory by firmware ends. -/
def HbmEnd.status : HbmEnd → Nat
  | .done _ => stOk
  | .poisoned => stIntegrity
  | _ => stFault

def formLoad (code : Nat) : Form := .any code 24 [7, 0xFFFFFFFFFFFF, 0xFFFFFFFFFFFFFFFF] (fun _ => [])

/-- A digest of a partition's image or timetable recorded. -/
def State.setDigest (s : State) (p : Nat) (table : Bool) (d : List Byte) : State :=
  if h : p < 8 then
    { s with sec := if table then { s.sec with tableDigest := s.sec.tableDigest.set p d } else { s.sec with imageDigest := s.sec.imageDigest.set p d } }
  else s

/-- LOAD_IMAGE. -/
def State.loadImage (s : State) (f k : Nat) : State :=
  s.command f k (formLoad 0x20) (fun _ => true) fun s c =>
    let p := fld (c.arg 0) 0 3
    let x := s.part p
    let len := (c.arg 2).toNat
    match x.state with
    | .none => s.badArg c 16
    | .empty =>
      if x.refused then s.finish c stFault [] 0
      else
        (match s.dvaRead p (len + 1) (fld (c.arg 1) 0 48) len [] with
         | (s1, .done img) =>
           (match readImage img len x.count with
            | .error st => s1.finish c st [] (if st = stBadArg then 24 else 0)
            | .ok im =>
              let s2 := s1.eachTile p (fun l t =>
                match im.tiles[x.relOf l]? with
                | some ti => t.loaded img ti
                | none => t)
              let trees := im.trees.foldl (fun (m : Tab TreeNode) r => Tab.put m (treeKey r.tree r.node) r.entry) []
              ((s2.modPart p (fun y => { y with state := .loaded, imaged := true, trees := trees })).setDigest p false ((img.drop 32).take 48)).finish
                c stOk [] 0)
         | (s1, e) => s1.finish c e.status [] 0)
    | _ => s.finish c stBusy [] 0

/-- BIND_TIMETABLE. -/
def State.bindTimetable (s : State) (f k : Nat) : State :=
  s.command f k (formLoad 0x21) (fun _ => true) fun s c =>
    let p := fld (c.arg 0) 0 3
    let x := s.part p
    let len := (c.arg 2).toNat
    match x.state with
    | .none => s.badArg c 16
    | .empty => s.badArg c 16
    | .loaded =>
      if x.refused then s.finish c stFault [] 0
      else
        (match s.dvaRead p (len + 1) (fld (c.arg 1) 0 48) len [] with
         | (s1, .done img) =>
           (match readTimetable img len x.count x.ports (fun r => (s1.tile (x.logical r)).pad.h[1]) with
            | .error st => s1.finish c st [] (if st = stBadArg then 24 else 0)
            | .ok tt =>
              let secs := (List.range tt.secs.length).filterMap (fun r => (tt.secs[r]?).map (fun e => (r, e)))
              let s2 := secs.foldl (fun s e =>
                if e.2.len = 0 then s else s.setTile (x.logical e.1) ((s.tile (x.logical e.1)).bindSection img e.2)) s1
              let starts := (secs.filter (fun e => e.2.len != 0)).map (fun e => (e.1, e.2.start))
              let bells := tt.bells.foldl (fun (m : Tab Bell) b => Tab.put m b.1 { Bell.idle with desc := some b.2 }) []
              let flows := tt.flows.foldl (fun (m : Tab Flow) g => Tab.put m g.flow ⟨g.home, g.hold, 0, []⟩) []
              ((s2.modPart p (fun y => { y with timetable := some starts, bells := bells, flows := flows })).setDigest p true (Config.sha384 img)).finish
                c stOk [] 0)
         | (s1, e) => s1.finish c e.status [] 0)
    | _ => s.finish c stBusy [] 0

/-- The values JOB_START gives every tile. -/
structure JobArgs where
  step : Word
  seed : Word
  tol : Nat
  index : Nat
  count : Nat
  deriving DecidableEq, Repr

/-- A tile at job start: image, handles and scale records stay, every register is at its reset value or the job's (R37, R445). -/
def Tile.jobStart (t : Tile) (x : Part) (p l : Nat) (a : JobArgs) : Tile :=
  let r := x.relOf l
  let bell (i : Fin 64) : TileBell :=
    match (x.bell i.val).desc with
    | some d => { TileBell.reset with exists_ := true, member := d.mask.testBit r, recess := d.recess }
    | none => .reset
  let t0 : Tile := {
    core := { Core.reset with
      run := .running, idReg := place l 0 12 ||| place r 16 12, partReg := place (8 * x.bw) 0 8 ||| place (8 * x.bh) 8 8 ||| place p 16 3 }
    mxq := .empty, vxq := .empty, xcq := .empty
    pad := { t.pad with
      badent := false, refused := false, last := 0, overwrite := false, closed := false, closedH := 0, under := 0, corrected := 0
      conflicts := 0, ctr := Vector.replicate 16 0 }
    mx := { Mx.reset with seed := a.seed }
    sr := { Scale.reset with recs := t.sr.recs, opened := t.sr.recs }
    vx := .reset, xc := .reset
    bl := { Bl.reset with
      step := a.step, modIndex := BitVec.ofNat 12 a.index, modCount := BitVec.ofNat 13 a.count, tol := BitVec.ofNat 10 a.tol
      bells := Vector.ofFn bell } }
  match x.timetable.bind (fun m => Tab.find? m r) with
  | some start => Tile.walkerGo { t0 with bl := { t0.bl with pos := BitVec.ofNat 20 start } }
  | none => t0

/-- The row of Table 13.10 for opcode 0x22. -/
def formStart : Form :=
  .any 0x22 32 [0x307, 0xFFFFFFFFFFFFFFFF, 0xFFFFFFFFFFFFFFFF, 0x1FFF0FFF03FF] fun c =>
    let w := c.arg 3
    [(24, decide (1000 < fld w 0 10)), (26, decide (fld w 32 13 ≤ fld w 16 12)),
    (28, fld w 32 13 == 0 || decide (4096 < fld w 32 13))]

/-- JOB_START. -/
def State.jobStart (s : State) (f k : Nat) : State :=
  s.command f k formStart
    (fun _ => true) fun s c =>
      let p := fld (c.arg 0) 0 3
      let x := s.part p
      let w := c.arg 3
      let a : JobArgs := ⟨c.arg 1, c.arg 2, fld w 0 10, fld w 16 12, fld w 32 13⟩
      match x.state with
      | .none => s.badArg c 16
      | .empty => s.badArg c 16
      | .loaded =>
        if x.timetable.isNone then s.badArg c 16
        else
          let bells := x.bells.map (fun b => (b.1, { Bell.idle with desc := b.2.desc }))
          let y := { x with
            state := .running, keep := bit (c.arg 0) 8, pace := bit (c.arg 0) 9, jobs := x.jobs + 1, step := a.step.toNat, modIndex := a.index
            modCount := a.count, tol := a.tol, bells := bells, onWay := [], rels := [], rel63 := [], threshold := none, veto := false
            repeats := 0, failPosted := false }
          ((s.setPart p y).eachTile p (fun l t => t.jobStart y p l a)).finish c stOk [] 0
      | _ => s.finish c stBusy [] 0

/-! ### Pre-emption (R452–R456) -/

/-- The recess bells of a partition. -/
def Part.recessBells (x : Part) : List Nat := (x.bells.filter (fun b => b.2.desc.any (·.recess))).map (·.1)

/-- The row of Table 13.10 for opcode 0x24. -/
def formPreempt : Form :=
  .any 0x24 8 [7] (fun _ => [])

def State.cmdPreempt (s : State) (f k : Nat) : State :=
  s.command f k formPreempt (fun _ => true) fun s c =>
    let p := fld (c.arg 0) 0 3
    let x := s.part p
    if x.state ≠ .running ∨ x.recessBells.isEmpty then s.badArg c 16
    else (s.modPart p (fun y => { y with state := .preempting })).running c

/-- The recess bell and epoch at which a pre-empting partition stands: a release held for it, or at a node that is not the root its own
participants all arrived (R455). -/
def State.preemptAt (s : State) (p : Nat) : Option (Nat × BitVec 32) :=
  let x := s.part p
  x.recessBells.findSome? fun b =>
    let e := x.bell b
    match e.held, e.desc with
    | some (r, .preempt, _), _ => some (b, r.epoch)
    | none, some d => if !d.decides && e.complete d x.count then some (b, e.epoch) else none
    | _, _ => none

/-- A tile with empty queues whose streams are idle or FAULTED. -/
def Tile.still (t : Tile) : Bool :=
  let q (x : EngQ) : Bool := x.waiting.isEmpty && x.started.isEmpty
  q t.mxq && q t.vxq && q t.xcq && t.xc.streams.toList.all (fun x => x.queue.isEmpty || x.fault.isSome)

/-- PREEMPT_SAVE. -/
def State.preemptSave (s : State) (p : Nat) : State :=
  let x := s.part p
  match x.state, s.preemptAt p with
  | .preempting, some (b, n) =>
    if x.tiles.all (fun l => (s.tile l).still) then
      let tiles := x.tiles.foldl (fun (m : Tab Tile) l => Tab.put m (x.relOf l) (s.tile l)) []
      let s1 := ((s.voidSamples (fun k => k.part == p)).wipePart p []).modPart p (fun y =>
        { y with state := .preempted, saved := some ⟨tiles, false⟩, heldBell := b, heldEpoch := n, preempts := y.preempts + 1
                 bells := y.bells.map (fun e => (e.1, { e.2 with mute := e.2.mute || !e.2.arr.isEmpty })) })
      let s2 := { s1 with power := { s1.power with notices := s1.power.notices.filter (fun k => k.part != p) } }
      match s2.cmds.find? (fun c => c.part == some p && c.opcode == 0x24 && c.taken) with
      | some c => s2.finish c stOk [BitVec.ofNat 64 n.toNat] 0
      | none => s2
    else s
  | _, _ => s

/-- A saved tile put back: timers of messages and faults start again (R303, R327). -/
def Tile.resumed (t : Tile) (now : Nat) : Tile :=
  { t with xc := { t.xc with
      ep := t.xc.ep.map (fun e => { e with asm := e.asm.map (fun a => { a with since := now }) })
      streams := t.xc.streams.map (fun x => { x with fault := x.fault.map (fun _ => now) }) } }

/-- The row of Table 13.10 for opcode 0x25. -/
def formResume : Form :=
  .any 0x25 8 [7] (fun _ => [])

/-- RESUME. -/
def State.cmdResume (s : State) (f k : Nat) : State :=
  s.command f k formResume (fun _ => true) fun s c =>
    let p := fld (c.arg 0) 0 3
    let x := s.part p
    match x.state, x.saved with
    | .preempted, some v =>
      if v.lost then (s.modPart p (fun y => { y with state := .ending, ending := some .classD, refused := true, saved := none })).finish c stFault [] 0
      else
        let s1 := s.eachTile p (fun l t =>
          match Tab.find? v.tiles (x.relOf l) with
          | some u => { u.resumed s.now with pad := { u.pad with failedBanks := t.pad.failedBanks } }
          | none => t)
        let s2 := s1.modPart p (fun y =>
          { y with state := .running, saved := none, bells := y.bells.map (fun e => (e.1, { e.2 with timer := e.2.timer.map (fun _ => s.now) })) })
        let b := x.heldBell
        let s3 := match (x.bell b).held with
          | some (_, .preempt, _) => s2.unhold p b
          | _ => s2
        s3.finish c stOk [] 0
    | _, _ => s.badArg c 16

/-! ### Recess (R457) -/

/-- The row of Table 13.10 for opcode 0x26. -/
def formRecess : Form :=
  .any 0x26 8 [0x707] (fun _ => [])

/-- RECESS. -/
def State.cmdRecess (s : State) (f k : Nat) : State :=
  s.command f k formRecess (fun _ => true) fun s c =>
    let p := fld (c.arg 0) 0 3
    if (s.part p).state ≠ .running then s.badArg c 16
    else (s.modPart p (fun y => { y with actions := fld (c.arg 0) 8 4, asked := some (f, k) })).running c

/-- RECESS_WORK_DONE: lanes that wait for the recess retire, ports widen when RECESS asked for it, and the hold ends. -/
def State.recessWorkDone (s : State) (p b : Nat) : State :=
  match ((s.part p).bell b).held with
  | some (_, .work, _) =>
    let qs := bitsOf (s.part p).ports 16
    let s1 := qs.foldl (fun s q => (bitsOf (s.port q).toRetire 4).foldl (fun s k => s.loseLane q k 3) s) s
    let s2 := if (s.part p).actions.testBit 2 then qs.foldl (fun s q => s.widen q) s1 else s1
    s2.recessDone p b
  | _ => s

/-- A hold of the partition for recess work. -/
def State.inRecess (s : State) (p : Nat) : Bool :=
  (s.part p).bells.any (fun b => match b.2.held with | some (_, .work, _) => true | _ => false)

/-- A logical tile's state moved to another site, the old one wiped (R274). -/
def State.moveTile (s : State) (p l y : Nat) : State :=
  let x := (s.seat l).site
  let s0 := s.voidSamples (fun k => k.shadow == y || k.judge == y || k.orig == x)
  let t := s0.siteTile x
  let s1 := s0.setSiteTile y { t with pad := { t.pad with failedBanks := (s0.siteTile y).pad.failedBanks, ecc := [], wb := [] } }
  ((s1.setSeat l ⟨y, p, true, false⟩).setSiteTile x t.wipe).modPart p
    (fun z => { z with swaps := z.swaps + 1, swapped := z.swapped ++ [dieOf x] })

def State.setTests (s : State) (ts : List UnitTest) : State := { s with faults := { s.faults with tests := ts } }

/-- SUBSTITUTE_SWAP: a tile whose site is condemned, or waits for its test, goes to a substitute; one whose site has passed its test goes
back. At most 16 a die in one hold. -/
def State.substituteSwap (s : State) (l : Nat) : State :=
  match s.partOf l with
  | some p =>
    let x := (s.seat l).site
    let ts := s.faults.tests
    if !s.inRecess p || decide (16 ≤ ((s.part p).swapped.filter (· == dieOf x)).length) then s
    else if (s.grade 1 x).state = 1 then
      match s.substitute (some p) l with
      | some y => let s1 := s.moveTile p l y; s1.retired 1 x (s1.subsLeft (dieOf x))
      | none => s.modEvent 0x6005 [.h (dieOf x), .h l]
    else
      match ts.find? (fun t => t.kind == 1 && t.unit == l && !t.running) with
      | some t =>
        if t.passed then
          (s.moveTile p l t.site).setTests (ts.filter (fun e => !(e.kind == 1 && e.unit == l)))
        else
          (match s.substitute (some p) l with
           | some y =>
             ((s.moveTile p l y).setTests (ts.map (fun e => if e.kind == 1 && e.unit == l then { e with running := true, site := x } else e))).modPart p
               (fun z => { z with tests := z.tests + 1 })
           | none => s)
      | none => s
  | none => s

/-! ### Tests (R458–R460) -/

/-- A logical tile that no running job and no hold uses. -/
def State.idleTile (s : State) (l : Nat) : Bool :=
  match s.partOf l with
  | some p => !((s.part p).busy || (s.part p).state == .ending || (s.part p).state == .held)
  | none => true

/-- 720 h in ns. -/
def testInterval : Nat := 720 * 3600000000000

/-- TILE_TEST_DUE. -/
def State.testDue (s : State) (l : Nat) : State :=
  if s.faults.tests.any (fun t => t.kind == 1 && t.unit == l) then s
  else
    let due := Tab.get 0 s.faults.tested l + testInterval
    let s1 := s.until due
    s1.setTests (s1.faults.tests ++ [⟨1, l, due, s1.idleTile l, (s1.seat l).site, false, false⟩])

/-- TEST_OVERDUE. -/
def State.testOverdue (s : State) (l : Nat) : State :=
  match s.faults.tests.find? (fun t => t.kind == 1 && t.unit == l && !t.running && !t.passed && !t.overdue) with
  | some t =>
    let s1 := s.until (t.due + 168 * 3600000000000)
    (s1.setTests (s1.faults.tests.map (fun e => if e = t then { e with overdue := true } else e))).modEvent 0x7001
      [.h l, .h ((s1.now - t.due) / 3600000000000)]
  | none => s

/-- A site that failed its test: at once out of service when it holds no duty, else at the next recess. -/
def State.failSite (s : State) (x : Nat) : State :=
  match s.seatedAt x with
  | some l => if (s.seat l).valid then s.modGrade 1 x (fun g => { g with state := 1 }) else s.condemnSite x
  | none => s.condemnSite x

/-- A site released with its banks. -/
def State.releaseSite (s : State) (x : Nat) : State :=
  (List.range 16).foldl (fun s b => s.releaseUnit 2 (16 * x + b)) (s.releaseUnit 1 x)

/-- A pseudo-channel released: it serves again from the next creation on. -/
def State.releasePc (s : State) (c : Nat) : State :=
  let s1 := s.releaseUnit 3 c
  if (s1.grade 3 c).state = 3 then { s1 with hbm := { s1.hbm with retired := s1.hbm.retired.filter (· != c) } } else s1

/-- TEST_DONE. -/
def State.testDone (s : State) (kind unit : Nat) (failed : Bool) : State :=
  match s.faults.tests.find? (fun t => t.kind == kind && t.unit == unit && t.running) with
  | some t =>
    let s1 := s.modEvent 0x7002 [.h kind, .h unit, .h (if failed then 1 else 0)]
    let rest := s1.faults.tests.filter (fun e => e != t)
    let out := s1.setTests rest
    match kind with
    | 1 =>
      let s2 := { out with faults := { out.faults with tested := Tab.put out.faults.tested unit s.now } }
      if failed then s2.failSite t.site
      else if (s2.seat unit).site = t.site then s2.releaseSite t.site
      else s2.setTests (rest ++ [{ t with running := false, passed := true }])
    | 2 => if failed then out.failSite unit else out.releaseSite unit
    | _ =>
      if !failed then out.releasePc unit
      else if out.hbm.retired.contains unit then out
      else out.retirePc unit
  | none => s

/-- Whether TEST_SCHEDULE's unit is in use. -/
def State.unitBusy (s : State) (kind unit : Nat) : Bool :=
  match kind with
  | 1 => !s.idleTile unit
  | 2 => (s.seatedAt unit).any (fun l => (s.seat l).valid) || s.faults.samples.any (fun k => k.shadow == unit || k.judge == unit)
  | _ => false

/-- The row of Table 13.10 for opcode 0x90. -/
def formTest : Form :=
  { (Form.pf 0x90 8 [0x30FFF000F] fun c =>
    let kind := fld (c.arg 0) 0 4
    let unit := fld (c.arg 0) 16 12
    [(0, kind == 0 || decide (3 < kind)),
    (2, decide ((if kind = 1 then 3072 else if kind = 2 then 3136 else 256) ≤ unit)), (4, decide (1 < fld (c.arg 0) 32 2))]) with since := 0x32 }

/-- TEST_SCHEDULE. -/
def State.testSchedule (s : State) (f k : Nat) : State :=
  s.command f k formTest
    (fun _ => true) fun s c =>
      let kind := fld (c.arg 0) 0 4
      let unit := fld (c.arg 0) 16 12
      let now := fld (c.arg 0) 32 2 == 1
      let owned := kind == 3 && (match s.pcOwner unit with
        | some (p, j) => (match (s.part p).slots[j]? with | some x => x.state != .released | none => false)
        | none => false)
      if owned || (now && s.unitBusy kind unit) then s.finish c stBusy [] 0
      else
        let t : UnitTest := ⟨kind, unit, s.now, now || !s.unitBusy kind unit, if kind = 1 then (s.seat unit).site else unit, false, false⟩
        let old := s.faults.tests.filter (fun e => !(e.kind == kind && e.unit == unit && !e.running))
        (s.setTests (old ++ [t])).finish c stOk [] 0

/-! ### The debug window and PT_APPLY (R451, R492, R501) -/

/-- What PT_DBGADDR selects in a held tile; none when the word is uncorrectable, with where. -/
def Tile.debugWord (t : Tile) (env : Env) (space off : Nat) : Tile × Except (Option Nat × Nat) Word :=
  let place_ := placeOf (skewAt t.pad.h.toList off) (off / 8 * 8)
  match space with
  | 0 =>
    let w := wordOf place_
    let r := t.pad.look (· == w)
    (match r.bad with
     | some b => ({ t with pad := r.pad }, .error (some (b / 8192), b % 8192))
     | none => ({ t with pad := r.pad }, .ok (BitVec.ofNat 64 (leVal (Mem.readN r.mem (8 * w) 8)))))
  | 1 => (t, .ok (if t.pad.isFull (wordOf place_) then 1 else 0))
  | 2 => (t, .ok (if csrKnown (off % 4096) then t.csrRead env (off % 4096) else 0))
  | _ =>
    let row := off % 64
    let j := 2 * (off / 64 % 16)
    let e (i : Nat) : Nat := Tab.get 0 t.mx.accErr (32 * row + i)
    let v (i : Nat) : Nat := (nth (nth t.mx.acc.toList row (Vector.replicate 32 0)).toList i 0).toNat
    if e j = 2 ∨ e (j + 1) = 2 then (t, .error (none, 0)) else (t, .ok (BitVec.ofNat 64 (v j + v (j + 1) * 2 ^ 32)))

/-- DEBUG_READ by a function of a partition's PT_DBGDATA: its answer stands in the function. -/
def State.debugRead (s : State) (f p : Nat) : State :=
  let x := s.part p
  let answer (s : State) (v : Nat) : State := s.modFn f (fun y => { y with answer := some (leBytes 8 v) })
  let deny (s : State) : State := answer (s.modPart p (fun y => { y with dbgDenied := true })) (2 ^ 64 - 1)
  let r := fld x.dbgAddr 32 12
  if x.state = .held ∧ x.func = f ∧ r < x.count then
    let l := x.logical r
    if (s.tile l).pad.wiping then deny s
    else
      match (s.tile l).debugWord (s.env p l) (fld x.dbgAddr 48 2) (fld x.dbgAddr 0 20) with
      | (t, .ok w) => answer (s.setTile l t) w.toNat
      | (t, .error (bank, a)) =>
        let site := (s.seat l).site
        deny ((s.setTile l t).recordD p (if bank.isSome then 2 else 1) (match bank with | some b => 16 * site + b | none => site) a)
  else deny s

/-- PT_APPLY. -/
def State.ptApply (s : State) (p : Nat) : State :=
  s.modPart p (fun x => { x with proctor := { x.proctor with pendingN := some x.proctor.n.shadow } })

end Sys2Proof.Machine
end

