-- ==== Sys2Proof/Machine/Power.lean ====
section
/-! DEFINITION. Power and thermal control: input, rails, the cap and its loops, droop, heat, throttle notices, and what Prigar answers
(`15_power_and_thermal.md`; `18_bringup_test_and_physical.md` R544; `13_host_interface_and_commands.md` 13.10). -/

namespace Sys2Proof.Machine

def State.modPower (s : State) (f : Power → Power) : State := { s with power := f s.power }

/-! ### Input and rails (R463–R465) -/

/-- How far a voltage lies outside 44–58 V. -/
def outBy (mv : Nat) : Nat := if mv < 44000 then 44000 - mv else mv - 58000

/-- INPUT_SAMPLE: the reading of this µs. -/
def State.inputSample (s : State) (mv : Nat) : State :=
  let s1 := (s.until (s.now + 1000)).modPower (fun w => { w with mv := mv })
  let w := s1.power
  if outBy mv = 0 then
    match w.dip with
    | some (t, far) =>
      let s2 := s1.modPower (fun w => { w with dip := none })
      if w.failing.isSome then s2
      else (s2.modPower (fun w => { w with dips := w.dips + 1 })).modEvent 0x3008 [.h far, .h ((s2.now - t) / 1000)]
    | none => s1
  else
    let t := match w.dip with | some d => d.1 | none => s1.now
    let far := match w.dip with | some d => if outBy d.2 < outBy mv then mv else d.2 | none => mv
    let cause := if mv < 40000 ∨ 60000 < mv then some 1 else if t + 100000 < s1.now then some 2 else none
    s1.modPower (fun w => { w with dip := some (t, far), failing := match w.failing with | some c => some c | none => cause })

/-- POWER_FAIL: a record in the gradebook, which is flushed; then everything that needs power is gone. Fuses, service flash, the
host's memory and what waits outside stay. -/
def State.powerFail (s : State) : State :=
  match s.power.failing with
  | some cause =>
    let n := s.faults.powerFails
    let g := { Grade.fresh with first := s.life, last := s.life, extra := [cause, s.power.mv, s.now] }
    let s1 := s.setGrade 8 n g
    let kept := s1.faults.grade.map (fun e => (e.1, { e.2 with tally := 0, tally2 := 0 }))
    { State.reset with
      draws := s.draws
      host := s.host
      pending := s.pending
      faults := { Faults.reset with hourAt := s.life / 3600, grade := kept, flash := kept, lifeBase := s.life, powerFails := n + 1 }
      sec := { Security.reset with
        otp := s.sec.otp, store := s.sec.store, chunks := s.sec.chunks, certs := s.sec.certs, aliasGen := s.sec.aliasGen, keys := s.sec.keys
        vfails := s.sec.vfails } }
  | none => s

/-- The rails of Table 15.2: the bus, the hub, Q0–Q3, HBM, the locker, SerDes. -/
def railCount : Nat := 9

/-- The functions fed by rail `k` and by those that would have come after it, as HI_FAILED and HI_FAILBLK show them. -/
def behind (k : Nat) : BitVec 30 :=
  BitVec.ofNat 30 ((if k ≤ 1 then 1 else 0) + ((List.range 4).filter (fun n => k ≤ 2 + n)).foldl (fun a n => a + 2 ^ (1 + n)) 0 +
    (if k ≤ 6 then 255 * 2 ^ 5 else 0) + (if k ≤ 8 then 65535 * 2 ^ 13 else 0) + (if k ≤ 7 then 2 ^ 29 else 0))

/-- The blocks that a die covers, as bits of HI_READYBLK (R535). -/
def dieBlocks (d : Nat) : List Nat :=
  (List.range 49).filter (fun b =>
    (if d % 2 = 0 then decide (b % 7 ≤ 3) else decide (3 ≤ b % 7)) && (if d / 2 = 0 then decide (b / 7 ≤ 3) else decide (3 ≤ b / 7)))

def blockBits (bs : List Nat) : BitVec 49 := bs.foldl (fun w b => w ||| BitVec.ofNat 49 (2 ^ b)) 0

/-- POWER_ON: the input has been in range for 10 ms, and every rail comes up in turn; TEST_EN is sampled at the end (R539). -/
def State.powerOn (s : State) (testEn : Bool) : State :=
  if s.up.rails = 0 ∧ s.up.railFail.isNone then
    { s.until 18000000 with up := { s.up with rails := railCount, testMode := testEn } }
  else s

/-- RAIL_TIMEOUT: rail `k` does not reach regulation within 2 ms. -/
def State.railTimeout (s : State) (k : Nat) : State :=
  if s.up.rails = 0 ∧ s.up.railFail.isNone ∧ k < railCount then
    let bad := behind k
    let blks := blockBits (((List.range 4).filter (fun d => bad.getLsbD (1 + d))).map dieBlocks).flatten
    let s1 := { s.until (s.now + 2000000) with up := { s.up with
      rails := k, railFail := some k, failed := s.up.failed ||| (bad &&& ~~~s.up.ready), failBlocks := s.up.failBlocks ||| (blks &&& ~~~s.up.blocks) } }
    s1.readinessIrq
  else s

/-! ### Fractions (R474–R477) -/

/-- The lowest RATE in force for a partition, or 31 (R484). -/
def State.paceRate (s : State) (p : Nat) : Nat :=
  (s.power.notices.filter (fun n => n.part == p)).foldl (fun a n => Nat.min a n.rate) 31

/-- The fraction of a site's island, in 32nds; 32 when every pulse is withheld. A wiping island keeps only droop's (R103). -/
def State.fraction (s : State) (x : Nat) : Nat :=
  let d := nth s.power.dies.toList (dieOf x) .reset
  let i := Tab.get .calm s.power.islands x
  let pace := match s.seatedAt x with
    | some l => (match s.partOf l with | some p => if (s.part p).pace then 31 - s.paceRate p else 0 | none => 0)
    | none => 0
  if i.severe then 32
  else if (s.siteTile x).pad.wiping then i.k
  else if d.hold.isSome then 32
  else Nat.min 30 (Nat.max (Nat.max s.power.capK d.k) (Nat.max pace i.k))

/-- The pulses withheld of the three of one ns that starts at `now`, at a fraction of k/32. -/
def withheld (k now : Nat) : Nat := (3 * now + 3) * k / 32 - 3 * now * k / 32

/-- A ns passes at a tile: pulses withheld count in tc.skipped and set SKIP. -/
def Tile.pulses (t : Tile) (n : Nat) : Tile :=
  if n = 0 then t else { t with core := { t.core with skipped := t.core.skipped + BitVec.ofNat 64 n, skip := true } }

/-- The largest cap or thermal fraction, and its cause (R482). -/
def Power.slow (w : Power) : Nat := w.dies.toList.foldl (fun a d => Nat.max a d.k) w.capK
def Power.why (w : Power) : Nat := (if w.capK = 0 then 0 else 1) + (if w.dies.toList.all (fun d => d.k == 0) then 0 else 2)

/-- Since when the module has been slow, and a rate that differs from the one notified. -/
def Power.watch (w : Power) (now : Nat) : Power :=
  let r := 31 - w.slow
  { w with
    slowSince := if w.slow = 0 then none else some (w.slowSince.getD now)
    newRate := if !w.throttled || r == w.rate then none
      else match w.newRate with
        | some (q, t) => if q = r then some (q, t) else some (r, now)
        | none => some (r, now) }

/-! ### The cap (R467–R473) -/

/-- The estimate's limit: the cap less the guard band, mW. -/
def Power.limit (w : Power) : Nat := w.inForce * (if w.fit then 980 else 930)

/-- FAST_LOOP: the estimate of this µs, and the fraction the controller aims at. -/
def State.fastLoop (s : State) (est : Nat) (aim : Nat) : State :=
  let s1 := s.until (s.now + 1000)
  s1.modPower (fun w =>
    let k := if w.limit < est then Nat.min 30 (w.capK + Nat.max 1 (Nat.min 4 (aim - w.capK)))
      else if w.mw ≤ 1000 * w.inForce ∧ aim < w.capK then w.capK - 1 else w.capK
    Power.watch { w with capK := k } s1.now)

/-- MEASUREMENT_INTERVAL: the average of the last 10 µs. -/
def State.measured (s : State) (mw : Nat) : State :=
  let s1 := s.until (s.now + 10000)
  s1.modPower (fun w =>
    let above := decide (1000 * w.inForce < mw)
    let unmet := above && w.capK == 30
    Power.watch { w with
      mw := mw, energy := w.energy + mw, etime := s1.now, capK := if above then Nat.min 30 (w.capK + 1) else w.capK
      unmetSince := if unmet then some (w.unmetSince.getD s1.now) else none, unmetOut := w.unmetOut && unmet } s1.now)

/-- PW_CAP_UNMET. -/
def State.capUnmet (s : State) : State :=
  match s.power.unmetSince with
  | some t =>
    if s.power.unmetOut then s
    else
      ((s.until (t + 10000000)).modPower (fun w => { w with unmetOut := true })).modEvent 0x3004 [.h s.power.inForce, .h s.power.mw]
  | none => s

/-- The ratio by which a calibration rescales the coefficients: M / E within 0.8–1.25. -/
def calRatio (e m : Nat) : Nat × Nat := if 5 * m < 4 * e then (4, 5) else if 5 * e < 4 * m then (5, 4) else if e = 0 then (1, 1) else (m, e)

/-- A rational in lowest terms. -/
def lowest (n d : Nat) : Nat × Nat := let g := Nat.gcd n d; if g = 0 then (n, d) else (n / g, d / g)

/-- |E − M| / M per mille, saturating at 16 bits. -/
def errPerMille (e m : Nat) : Nat :=
  let d := if e ≤ m then m - e else e - m
  if m = 0 then (if d = 0 then 0 else 65535) else Nat.min 65535 (1000 * d / m)

/-- CALIBRATION_WINDOW: the mean estimated and measured powers of the last 1 ms, mW. -/
def State.calibrate (s : State) (e m : Nat) : State :=
  let s1 := s.until (s.now + 1000000)
  let w := s1.power
  let err := errPerMille e m
  let bad := decide (15 * m < 100 * (if e ≤ m then m - e else e - m))
  let cal := w.fit || decide (w.calAt + 100000000 ≤ s1.now)
  let r := calRatio e m
  let sc := if cal then lowest (w.scaleNum * r.1) (w.scaleDen * r.2) else (w.scaleNum, w.scaleDen)
  let br := if bad then w.badRun + 1 else 0
  let gr := if bad then 0 else w.goodRun + 1
  let w1 := { w with estMw := e, estErr := err, scaleNum := sc.1, scaleDen := sc.2, calAt := if cal then s1.now else w.calAt, badRun := br, goodRun := gr }
  let fs : List Fl := [.h e, .h m, .h err]
  if w.fit ∧ 8 ≤ br then
    ({ s1 with power := { w1 with fit := false, unfits := w.unfits + 1, goodRun := 0 } }).modEvent 0x3002 fs
  else if !w.fit ∧ 8 ≤ gr then ({ s1 with power := { w1 with fit := true, badRun := 0 } }).modEvent 0x3005 fs
  else { s1 with power := w1 }

/-- A cap requested by the host, or by management: the lower of the two comes into force. -/
def Power.request (w : Power) (host : Bool) (watts : Nat) : Power :=
  let h := if host then watts else w.host
  let m := if host then w.mgmt else watts
  { w with host := h, mgmt := m, inForce := Nat.min h m }

/-- The row of Table 13.10 for opcode 0x40. -/
def formCap : Form :=
  .pf 0x40 8 [0xFFFF] fun c => [(0, decide (fld (c.arg 0) 0 16 < 500) || decide (1250 < fld (c.arg 0) 0 16))]

/-- POWER_CAP_SET; `second` is the countersigning core's value when it differs. -/
def State.powerCapSet (s : State) (f k : Nat) (second : Option Nat) : State :=
  s.command f k formCap (fun _ => true) fun s c =>
      let w := s.power.request true (fld (c.arg 0) 0 16)
      match second with
      | some v => (s.disagree 1 w.inForce v).finish c stFault [] 0
      | none => ({ s.until (s.now + 100000) with power := w }).finish c stOk [BitVec.ofNat 64 w.inForce] 0

/-! ### Droop (R478, R479, R487) -/

def State.setIsland (s : State) (x : Nat) (i : Island) : State := s.modPower (fun w => { w with islands := Tab.set .calm w.islands x i })
def State.island (s : State) (x : Nat) : Island := Tab.get .calm s.power.islands x
def State.die (s : State) (d : Nat) : DieHeat := nth s.power.dies.toList d .reset
def State.setDie (s : State) (d : Nat) (h : DieHeat) : State :=
  if k : d < 4 then s.modPower (fun w => { w with dies := w.dies.set d h }) else s

/-- DROOP_TRIP: an island's supply has fallen by `mv`, more than 4 %, or more than 8 % when `severe`. -/
def State.droopTrip (s : State) (x mv : Nat) (severe : Bool) : State :=
  let i := s.island x
  let d := dieOf x
  let s1 := s.setIsland x { i with k := Nat.max i.k 16, tripped := true, severe := i.severe || severe }
  if i.tripped then s1
  else
    let h := s1.die d
    let fresh := decide (h.winStart + 1000000 ≤ s1.now)
    let trips := (if fresh then 0 else h.trips) + 1
    let deep := Nat.max (if fresh then 0 else h.deepest) mv
    let h1 := { h with trips := trips, deepest := deep, winStart := if fresh then s1.now / 1000000 * 1000000 else h.winStart }
    let th := s1.power.thresh.force
    let post := th != 0 && decide (th ≤ trips) && (match h.posted with | some t => decide (t + 1000000000 ≤ s1.now) | none => true)
    let s2 := ((s1.setDie d (if post then { h1 with posted := some s1.now } else h1)).modPower (fun w => { w with droops := w.droops + 1 })).modGrade 6 d
      (fun g => { g with tally := g.tally + 1 })
    if post then s2.modEvent 0x3003 [.h d, .h trips, .h deep] else s2

/-- DROOP_RECOVERY: 100 ns within 2 % of the setpoint. -/
def State.droopRecovery (s : State) (x : Nat) : State :=
  let i := s.island x
  if i.severe || i = .calm then s else (s.until (s.now + 100)).setIsland x { i with k := i.k - 4, tripped := false }

/-- DROOP_SUPPLY_BACK. -/
def State.droopBack (s : State) (x : Nat) : State := s.setIsland x { s.island x with severe := false }

/-- PW_APPLY. -/
def State.pwApply (s : State) : State := s.modPower (fun w => { w with thresh := w.thresh.apply })

/-! ### Heat (R480) -/

/-- THERMAL_READ: a die's hottest junction, °C. -/
def State.thermalRead (s : State) (d tj : Nat) : State :=
  let s1 := s.until (s.now + 100000)
  let now := s1.now
  let h := { s1.die d with tj := tj }
  let put (s : State) (h : DieHeat) : State := (s.setDie d h).modPower (fun w => w.watch now)
  match h.hold with
  | some t =>
    if tj < 100 then
      let s2 := put s1 { h with hold := none, k := 30, moved := now }
      let s3 := if s2.power.dies.toList.any (fun e => e.hold.isSome) then s2
        else s2.modPower (fun w => { w with holdNs := w.holdNs + (now - w.holdAt) })
      s3.modEvent 0x3007 [.h d, .h 1, .h ((now - t) / 1000)]
    else put s1 h
  | none =>
    if 104 ≤ tj then
      let first := !(s1.power.dies.toList.any (fun e => e.hold.isSome))
      let s2 := if first then s1.modPower (fun w => { w with holdAt := now }) else s1
      (put s2 { h with hold := some now, k := 30 }).modEvent 0x3007 [.h d, .h 0, .h 0]
    else if 100 ≤ tj then put s1 (if h.moved + 1000000 ≤ now ∧ h.k < 30 then { h with k := h.k + 1, moved := now } else h)
    else if 98 ≤ tj then put s1 h
    else put s1 (if h.moved + 10000000 ≤ now ∧ 0 < h.k then { h with k := h.k - 1, moved := now } else h)

/-! ### Throttle notices (R482–R485) -/

/-- The ports of a job's bell-63 tree. -/
def Part.rootPorts (x : Part) : List Nat :=
  match (x.bell 63).desc with
  | some d => if d.remote then (if d.root then [] else [d.parent]) ++ d.ports else []
  | none => []

/-- A THROTTLE cell for every job that spans modules (R483). -/
def State.throttleCells (s : State) (rate : Nat) : State :=
  let s1 := (List.range 8).foldl (fun s p =>
    let x := s.part p
    if x.busy then x.rootPorts.foldl (fun s q => s.portCell q (.throttle x.modIndex rate 0)) s else s) s
  s1.modPower (fun w => { w with cellAt := s1.now })

/-- PW_THROTTLE posted with its cells. -/
def State.throttlePost (s : State) (rate cause : Nat) : State :=
  let hot := s.power.dies.toList.foldl (fun a d => Nat.max a d.tj) 0
  let fs : List Fl := [.h rate, .h cause, .h s.power.inForce, .h hot]
  let s1 := s.sendEvent 0 0x3001 none fs
  let s2 := (List.range 8).foldl (fun s p =>
    let x := s.part p
    if x.busy && x.func != 0 then s.postTo x.func 0x3001 (some p) fs else s) s1
  (s2.modPower (fun w => { w with rate := rate, cause := cause, newRate := none })).throttleCells rate

/-- PW_THROTTLE: the module becomes throttled, holds a new rate, or stops being throttled. -/
def State.pwThrottle (s : State) : State :=
  let w := s.power
  if !w.throttled then
    match w.slowSince with
    | some t =>
      let s1 := s.until (t + 1000000)
      (s1.modPower (fun w => { w with throttled := true, throtAt := s1.now })).throttlePost (31 - w.slow) w.why
    | none => s
  else if w.slow = 0 then
    (s.modPower (fun w => { w with throttled := false, throtNs := w.throtNs + (s.now - w.throtAt) })).throttlePost 31 0
  else
    match w.newRate with
    | some (r, t) => if r + 2 ≤ w.rate ∨ w.rate + 2 ≤ r then (s.until (t + 1000000)).throttlePost r w.why else s
    | none => s

/-- THROTTLE_REPEAT. -/
def State.throttleRepeat (s : State) : State :=
  if s.power.throttled then (s.until (s.power.cellAt + 100000000)).throttleCells s.power.rate else s

/-- THROTTLE: a cell acts on its partition's notices and goes on over the tree (R363, R484). -/
def State.throttleCell (s : State) (k : Nat) : State :=
  match s.pick k with
  | some ⟨src, .root, p, _, .ctl (.throttle origin rate hops)⟩ =>
    let s1 := s.took k
    let rest := s1.power.notices.filter (fun n => !(n.part == p && n.origin == origin))
    let s2 := s1.modPower (fun w => { w with notices := if rate = 31 then rest else rest ++ [⟨p, origin, rate, s1.now⟩] })
    (s2.part p).rootPorts.foldl (fun s q => if src = .port q then s else s.portCell q (.throttle origin rate (Nat.min 15 (hops + 1)))) s2
  | _ => s

/-- THROTTLE_NOTICE_EXPIRE. -/
def State.noticeExpire (s : State) (p origin : Nat) : State :=
  match s.power.notices.find? (fun n => n.part == p && n.origin == origin) with
  | some n =>
    (s.until (n.time + 300000000)).modPower (fun w => { w with notices := w.notices.filter (fun m => !(m.part == p && m.origin == origin)) })
  | none => s

/-! ### Coolant (R544) -/

/-- PW_COOLANT: the inlet and outlet have read so for 10 s. -/
def State.coolant (s : State) (cin cout : Nat) : State :=
  let bad := decide (45 < cin) || decide (cin < 17) || decide (cin + 25 < cout)
  let s1 := s.modPower (fun w => { w with coolIn := cin, coolOut := cout })
  if bad = s.power.hotCoolant then s1
  else
    let s2 := s1.until (s1.now + 10000000000)
    (s2.modPower (fun w => { w with hotCoolant := bad })).modEvent 0x3009 [.h cin, .h cout, .h (if bad then 1 else 0)]

/-! ### Prigar (R435–R438) -/

/-- PLDM completion codes (assumption 33). -/
def pldmOk : Nat := 0x00
def pldmError : Nat := 0x01
def pldmInvalid : Nat := 0x02
def pldmUnsupported : Nat := 0x05
def pldmUpdating : Nat := 0x81

def State.prigar (s : State) (code : Nat) (data : List Byte) : State := { s with up := { s.up with pldm := ⟨code, data⟩ } }

/-- PLDM_SET_POWER_CAP. -/
def State.pldmCap (s : State) (watts : Nat) (second : Option Nat) : State :=
  if watts < 500 ∨ 1250 < watts then s.prigar pldmInvalid []
  else
    let w := s.power.request false watts
    match second with
    | some v => (s.disagree 1 w.inForce v).prigar pldmError []
    | none => ({ s.until (s.now + 100000) with power := w }).prigar pldmOk []

/-- The sensors in the order of R436: TM_PIN, TM_VIN, TM_ENERGY, TM_TJ, TM_THBM, TM_COOL, HI_READY, HI_FAILED. -/
def State.sensor (s : State) (n : Nat) : Option Nat :=
  let w := s.power
  let bytes (xs : List Nat) : Nat := leVal (xs.map (BitVec.ofNat 8))
  match n with
  | 0 => some w.mw
  | 1 => some w.mv
  | 2 => some (w.energy / 100)
  | 3 => some (bytes (w.dies.toList.map (·.tj)))
  | 4 => some (bytes (s.hbm.heat.toList.map (·.temp)))
  | 5 => some (bytes [w.coolIn, w.coolOut])
  | 6 => some s.up.ready.toNat
  | 7 => some s.up.failed.toNat
  | _ => none

/-- PLDM_GET_SENSOR_READING. -/
def State.pldmSensor (s : State) (n : Nat) : State :=
  match s.sensor n with
  | some v => s.prigar pldmOk (leBytes 8 v)
  | none => s.prigar pldmInvalid []

/-- The part number "GNX4M125" (HI_PART, R409). -/
def partNumber : List Byte := [0x47, 0x4E, 0x58, 0x34, 0x4D, 0x31, 0x32, 0x35]

/-- PLDM_FRU_READ: part number, serial, stepping, manufacturing date. -/
def State.pldmFru (s : State) : State :=
  s.prigar pldmOk (partNumber ++ leBytes 8 Config.serial.toNat ++ [Config.stepping] ++ leBytes 8 Config.mfgDate.toNat)

/-- PLDM_PARTITION_REQUEST: partition data never leaves this way (R438). -/
def State.pldmPartition (s : State) : State := s.prigar pldmUnsupported []

end Sys2Proof.Machine
end

