-- ==== Sys2Proof/Machine/Faults.lean ====
section
/-! DEFINITION. Containment of class D errors, the proctor's verdicts, the gradebook's flush, and restarts of control cores
(`16_faults_and_availability.md`). -/

namespace Sys2Proof.Machine

/-! ### Class D (R491, R492, R508) -/

/-- PART_CONTAINED for an error, which enters the gradebook and the module log. -/
def State.contained (s : State) (p : Nat) (e : DErr) : State :=
  (s.recordD p e.cls e.unit e.addr).bothEvent (some p) 0x6002 [.h e.cls, .h e.unit, .d e.addr, .d e.time]

/-- The reset of a partition for class D, by what it is doing (Table 14.2, Table 14.4). -/
def State.resetD (s : State) (p : Nat) : State :=
  let x := s.part p
  match x.state with
  | .running => s.jobEnd p .classD
  | .preempting => s.jobEnd p .classD
  | .preempted => s.modPart p (fun y => { y with state := .ending, ending := some .classD, refused := true, saved := none })
  | .empty => ((s.empty p []).rekey p true false).modPart p Part.regsReset
  | .loaded => ((s.empty p []).rekey p true false).modPart p Part.regsReset
  | _ => s

/-- Errors taken together reset a partition once, and each is reported. -/
def State.containAll (s : State) (p : Nat) (es : List DErr) : State := es.foldl (fun s e => s.contained p e) (s.resetD p)

/-- CLASS_D_RESET: the countersigner names partition `second`; where it differs a third core names `third`, the two that agree decide, and
where none agree every partition named is reset. -/
def State.classDReset (s : State) (p second third : Nat) : State :=
  let es := s.faults.derrs.filter (fun e => e.part == p)
  match es with
  | e :: _ =>
    let s1 := s.until (e.time + 3000)
    let s2 := { s1 with faults := { s1.faults with derrs := s1.faults.derrs.filter (fun e => e.part != p) } }
    if second = p then s2.containAll p es
    else
      let s3 := s2.disagree 2 p second
      if third = p then s3.containAll p es
      else
        let free := (s3.modPart p (fun y => { y with refused := false }))
        if third = second then free.containAll second es
        else ((s3.containAll p es).resetD second).resetD third
  | [] => s

/-! ### The proctor (R498, R499) -/

def State.sampleOf (s : State) (id : Nat) : Option Sample := s.faults.samples.find? (fun x => x.id == id)

/-- A sample ends, and the sites it held are wiped. -/
def State.endProctor (s : State) (x : Sample) : State :=
  let s1 := { s with faults := { s.faults with samples := s.faults.samples.filter (fun y => y.id != x.id) } }
  (s1.setSiteTile x.shadow (s1.siteTile x.shadow).wipe).setSiteTile x.judge (s1.siteTile x.judge).wipe

/-- PROCTOR_COMPARE: the shadow's signature against the original's, or that the shadow met a class D error. -/
def State.proctorCompare (s : State) (id : Nat) (sig : Word) (void : Bool) : State :=
  match s.sampleOf id with
  | some x =>
    (match x.state with
     | .ended orig _ =>
       let p := x.part
       if void then ((s.voidSamples (fun y => y.id == id)).classD none 1 x.shadow 0).contribute p 63
       else if sig = orig then
         ((s.endProctor x).modPart p (fun y => { y with proctor := { y.proctor with sampled := y.proctor.sampled + 1 } })).contribute p 63
       else
         let s1 := { s with faults := { s.faults with
           samples := s.faults.samples.map (fun (y : Sample) => if y.id = id then { y with state := .judging orig sig } else y) } }
         let s2 := s1.modPart p (fun y => { y with veto := true, proctor := { y.proctor with mismatched := y.proctor.mismatched + 1 } })
         let s3 := s2.partLog p 10 x.tile [.h id, .h x.shadow, .h x.judge, .d orig.toNat, .d sig.toNat]
         (s3.bothEvent (some p) 0x6001 [.h id, .h x.tile, .h x.orig, .h x.shadow, .h x.judge, .d x.step]).contribute p 63
     | _ => s)
  | none => s

/-- Verdicts by their number in PROCTOR_VERDICT: the rows of Table 16.4. -/
inductive Verdict where
  | shadow | original | both | nobody
  deriving DecidableEq, Repr

def Verdict.code : Verdict → Nat
  | .shadow => 1 | .original => 2 | .both => 3 | .nobody => 4

/-- Table 16.4. -/
def verdictOf (orig shadow judge : Word) (void : Bool) : Verdict :=
  if void then .nobody else if judge = orig then .shadow else if judge = shadow then .original else .both

/-- PROCTOR_VERDICT: the judge's signature, or that it met a class D error. -/
def State.proctorVerdict (s : State) (id : Nat) (sig : Word) (void : Bool) : State :=
  match s.sampleOf id with
  | some x =>
    (match x.state with
     | .judging orig shadow =>
       let v := verdictOf orig shadow sig void
       let s1 := match v with
         | .shadow => (s.countGrade 1 x.shadow 0 true).noteGrade 1 x.orig
         | .original => (s.countGrade 1 x.orig 0 true).noteGrade 1 x.shadow
         | .both => ((s.countGrade 1 x.orig 0 true).countGrade 1 x.shadow 0 true).noteGrade 1 x.judge
         | .nobody => ((s.classD none 1 x.judge 0).noteGrade 1 x.orig).noteGrade 1 x.shadow
       (s1.bothEvent (some x.part) 0x6006 [.h id, .h v.code]).endProctor x
     | _ => s)
  | none => s

/-! ### The gradebook's flush (R502) -/

/-- Decade bins of an error rate of `n` errors in `total` bits. -/
def decadeBin (n total : Nat) : Nat := ((List.range 15).filter (fun j => decide (total ≤ n * 10 ^ (15 - j)))).length

/-- Bits of a lane in one hour at 212.5 Gb/s. -/
def laneHour : Nat := 3600 * 212500000000

/-- An hour's end in a record, and `n − 1` hours without anything. -/
def Grade.logHour (g : Grade) (second : Bool) (v n : Nat) : Grade :=
  if second then { g with h2 := bump (bump g.h2 (logBin v) 1) 0 (n - 1) } else { g with h1 := bump (bump g.h1 (logBin v) 1) 0 (n - 1) }

/-- A unit's record after `n` hours and `d` days have ended. -/
def State.hourOf (s : State) (cls unit n d : Nat) : Grade :=
  let g := s.grade cls unit
  match cls with
  | 1 => { g.logHour true g.tally n with tally := 0 }
  | 2 => { g.logHour false g.tally n with tally := 0 }
  | 3 => { g.logHour false g.tally n with tally := 0 }
  | 4 =>
    let x := s.port (unit / 4)
    let e := nth x.lanecorr.toList (unit % 4) 0
    let g1 := { g with h1 := bump (bump g.h1 (decadeBin (e - g.tally2) laneHour) 1) 0 (n - 1) }
    { g1.logHour true (x.retries - g.tally) n with tally := x.retries, tally2 := e }
  | 5 => if d = 0 then g else { g.logHour false g.tally d with tally := 0 }
  | 6 =>
    let g1 := { g with h1 := bump g.h1 (degBin (nth s.power.dies.toList unit .reset).tj) n }
    { g1.logHour true g.tally n with tally := 0 }
  | 7 =>
    let k := nth s.hbm.heat.toList unit ⟨0, 1, 0, false, false⟩
    { g with h1 := bump g.h1 (degBin k.temp) n, h2 := bump g.h2 k.mult.log2 n }
  | _ => g

/-- The units of each class (Table 16.7). -/
def gradeUnits : List (Nat × Nat) :=
  [(1, 3136), (2, 50176), (3, 256), (4, 64), (5, 12), (6, 4), (7, 8)].foldl (fun us c => us ++ (List.range c.2).map (fun u => (c.1, u))) []

/-- GRADEBOOK_FLUSH: at the next full minute; the hours that have ended enter the histograms. -/
def State.gradeFlush (s : State) : State :=
  let s1 := s.until ((s.now / 60000000000 + 1) * 60000000000)
  let hour := s1.life / 3600
  let n := hour - s1.faults.hourAt
  let s2 := if n = 0 then s1
    else gradeUnits.foldl (fun s u => s.setGrade u.1 u.2 (s.hourOf u.1 u.2 n (hour / 24 - s1.faults.hourAt / 24))) s1
  { s2 with faults := { s2.faults with flash := s2.faults.grade, hourAt := if n = 0 then s2.faults.hourAt else hour } }

/-! ### Control cores (R505, R507, Table 16.10) -/

def State.core (s : State) (c : Nat) : CtlCore := nth s.faults.cores.toList c ⟨none, false⟩
def State.setCore (s : State) (c : Nat) (k : CtlCore) : State :=
  if h : c < 12 then { s with faults := { s.faults with cores := s.faults.cores.set c k } } else s

/-- The core that covers another's duties. -/
def coverOf (c : Nat) : Nat :=
  match c with
  | 0 => 1 | 1 => 0 | 2 => 3 | 3 => 2
  | _ => if c % 2 = 0 then c + 1 else c - 1

/-- A core's duty, by the rows of Table 16.10. -/
def dutyOf (c : Nat) : Nat := Nat.min c 4

/-- A core that holds its duties. -/
def CtlCore.serves (k : CtlCore) : Bool := k.away.isNone && !k.retired

/-- Cores in service. -/
def State.coresLeft (s : State) : Nat := (s.faults.cores.toList.filter (fun k => !k.retired)).length

/-- A core may retire: the hub keeps two, and every die one (R505). -/
def State.coreMayRetire (s : State) (c : Nat) : Bool :=
  if c < 4 then decide (3 ≤ ((List.range 4).filter (fun k => !(s.core k).retired)).length)
  else !(s.core (coverOf c)).retired

/-- The duties that a core holds now, its own and those it covers. -/
def State.duties (s : State) (c : Nat) : List Nat :=
  c :: (if coverOf (coverOf c) = c && !(s.core (coverOf c)).serves then [coverOf c] else [])

/-- The core a command is for: CC1 for a partition's commands and DMA_HOST, CC0 for the others. -/
def Cmd.core (c : Cmd) : Nat := if partOp c.opcode || killOp c.opcode || c.opcode = 0x30 then 1 else 0

/-- Commands that a core had taken and not answered end with FAULT. -/
def State.failTaken (s : State) (cores : List Nat) : State :=
  s.cmds.foldl (fun s d => if d.taken && !d.deferred && cores.contains d.core then s.finish d stFault [] 0 else s) s

/-- A core restarts: its record, the module log, the event, its commands; a permanent-faulty one retires when the module can spare it. -/
def State.coreRestart (s : State) (c cause : Nat) : State :=
  if !(s.core c).serves then s
  else
    let fs : List Fl := [.h c, .h cause, .h (dutyOf c)]
    let s1 := ((s.failTaken (s.duties c)).modLog 11 0xFFF 0 fs).modEvent 0x600A fs
    let s2 := ((s1.setCore c ⟨some (s1.now, cause), false⟩).modGrade 5 c (fun g => { g with tally := g.tally + 1 })).countGrade 5 c 0 false
    if (s2.grade 5 c).state = 1 ∧ s2.coreMayRetire c then
      let s3 := s2.setCore c ⟨none, true⟩
      s3.retired 5 c s3.coresLeft
    else s2

/-- CORE_MEMORY_ERROR. -/
def State.coreMemory (s : State) (c : Nat) : State := s.coreRestart c 1

/-- CORE_WATCHDOG: the watchdog has run for 100 ms. -/
def State.coreWatchdog (s : State) (c : Nat) : State := if (s.core c).serves then (s.until (s.now + 100000000)).coreRestart c 2 else s

/-- CORE_RESTART_COMPLETE. -/
def State.coreBack (s : State) (c : Nat) : State :=
  match (s.core c).away with
  | some (t, _) => (s.until (t + 2000000000)).setCore c ⟨none, false⟩
  | none => s

end Sys2Proof.Machine
end

