-- ==== Sys2Proof/Machine/Secure.lean ====
section
/-! DEFINITION. Secure boot, firmware store, staging, activation, attestation, SPDM and life cycle (`17_security_and_lifecycle.md`;
`16_faults_and_availability.md` R509, R510; `13_host_interface_and_commands.md` R437). -/

namespace Sys2Proof.Machine

/-! ### Signed objects (R513) -/

/-- A list as exactly `n` bytes. -/
def fit (n : Nat) (bs : List Byte) : List Byte := (bs ++ List.replicate n 0).take n

/-- The SHA-384 digest, 48 bytes. -/
def digest (bs : List Byte) : List Byte := fit 48 (Config.sha384 bs)

/-- Bytes `off` to `off + n − 1`. -/
def slice (bs : List Byte) (off n : Nat) : List Byte := (bs.drop off).take n

/-- The keys and signatures that close a signed object, from byte `off` on. -/
structure Seal where
  edKey : List Byte
  pqKey : List Byte
  edSig : List Byte
  pqSig : List Byte
  deriving DecidableEq, Repr

def sealAt (bs : List Byte) (off : Nat) : Seal :=
  ⟨slice bs off 32, slice bs (off + 32) 1952, slice bs (off + 1984) 64, slice bs (off + 2048) 3309⟩

/-- The first check of R513 that fails, as SC_VERIFY_FAIL's cause; a slot revoked under R523 gives cause 4 (R533). -/
def Otp.check (o : Otp) (slot : Nat) (x : Seal) (dg : List Byte) : Option Nat :=
  let keys := nth o.slots.toList slot []
  if o.revoked.getLsbD slot then some 4
  else if keys.all (· == 0) then some 1
  else if digest x.edKey ≠ slice keys 0 48 ∨ digest x.pqKey ≠ slice keys 48 48 then some 2
  else if !Config.ed25519Verify x.edKey dg x.edSig then some 3
  else if !Config.mldsaVerify x.pqKey dg [] x.pqSig then some 4
  else none

/-- SC_VERIFY_FAIL: cause, context, SEQ or TARGET. -/
def State.verifyFail (s : State) (cause ctx v : Nat) : State :=
  { s with sec := { s.sec with vfails := s.sec.vfails + 1 } }.modEvent 0x8001 [.h cause, .h ctx, .h v]

/-! ### Manifests and the store (R514–R516) -/

/-- A chunk entry: digest, length, role. -/
structure ChunkRef where
  dg : List Byte
  len : Nat
  role : Nat
  deriving DecidableEq, Repr

/-- What a manifest's header says. -/
structure Manifest where
  seq : Nat
  svn : Nat
  slot : Nat
  revoke : Nat
  chunks : List ChunkRef
  deriving DecidableEq, Repr

def manifestSeq (raw : List Byte) : Nat := fld (wordAt raw 8) 0 32
def manifestSlot (raw : List Byte) : Nat := fld (wordAt raw 8) 40 2
def manifestSvn (raw : List Byte) : Nat := fld (wordAt raw 8) 32 8
def manifestCount (raw : List Byte) : Nat := fld (wordAt raw 16) 0 13

/-- A manifest's length, and where its seal begins. -/
def manifestLen (raw : List Byte) : Nat := 256 + 64 * manifestCount raw + 5357
def manifestSeal (raw : List Byte) : Nat := 256 + 64 * manifestCount raw

/-- The digest that its signatures cover. -/
def manifestDigest (raw : List Byte) : List Byte := digest (raw.take (manifestSeal raw + 1984))

def chunkAt (raw : List Byte) (k : Nat) : ChunkRef :=
  let w := wordAt raw (256 + 64 * k + 48)
  ⟨slice raw (256 + 64 * k) 48, fld w 0 25, fld w 32 8⟩

/-- No two are equal. -/
def apart {α : Type} [DecidableEq α] : List α → Bool
  | [] => true
  | a :: as => !as.contains a && apart as

/-- R515, with the ranges of Table 17.3. -/
def readManifest (raw : List Byte) : Option Manifest :=
  let n := manifestCount raw
  let cs := (List.range n).map (chunkAt raw)
  let m : Manifest := ⟨manifestSeq raw, manifestSvn raw, manifestSlot raw, fld (wordAt raw 8) 48 4, cs⟩
  let ok := raw.length == manifestLen raw && wordAt raw 0 == 0x014E414D47 && !outside (wordAt raw 8) 0x000F03FFFFFFFFFF &&
    !outside (wordAt raw 16) 0x1FFF && (slice raw 24 232).all (· == 0) && decide (m.svn ≤ 128) && decide (1 ≤ n) && decide (n ≤ 4096) &&
    !m.revoke.testBit m.slot &&
    (List.range n).all (fun k => !outside (wordAt raw (256 + 64 * k + 48)) 0xFF01FFFFFF && wordAt raw (256 + 64 * k + 56) == 0) &&
    cs.all (fun c => decide (1 ≤ c.len) && decide (c.len ≤ 16777216) && decide (1 ≤ c.role) && decide (c.role ≤ 6)) &&
    (cs.filter (fun c => c.role == 1)).length == 1 && cs.all (fun c => c.role != 1 || decide (c.len ≤ 524288)) &&
    [2, 3, 4, 5].all (fun r => cs.any (fun c => c.role == r)) && apart (cs.map (·.dg))
  if ok then some m else none

/-- R515 and R513, then the security version: the manifest, or the cause. -/
def Otp.accepts (o : Otp) (raw : List Byte) : Except Nat Manifest :=
  match readManifest raw with
  | none => .error 7
  | some m =>
    match o.check m.slot (sealAt raw (manifestSeal raw)) (manifestDigest raw) with
    | some c => .error c
    | none => if m.svn < o.svn then .error 5 else .ok m

/-- The chunk of a digest in the store. -/
def Security.chunk (x : Security) (dg : List Byte) : Option (List Byte) := (x.chunks.find? (fun c => c.1 == dg)).map (·.2)

/-- Every chunk of a manifest is in the store and has its digest. -/
def Security.sound (x : Security) (m : Manifest) : Bool :=
  m.chunks.all (fun c => match x.chunk c.dg with | some bs => bs.length == c.len && digest bs == c.dg | none => false)

/-- Free bytes of the firmware store's 444 MiB. -/
def Security.free (x : Security) : Nat :=
  444 * 2 ^ 20 - (x.store.foldl (fun a m => a + m.raw.length) 0 + x.chunks.foldl (fun a c => a + c.2.length) 0)

/-- The chunks that no manifest which may still run names are reclaimed (R520). -/
def Security.reclaim (x : Security) : Security :=
  let live := (x.store.filter (fun m => m.mark != .retired)).map (fun m => (List.range (manifestCount m.raw)).map (fun k => (chunkAt m.raw k).dg))
  { x with chunks := x.chunks.filter (fun c => live.any (fun ds => ds.contains c.1)) }

def Security.mark (x : Security) (seq : Nat) (k : StoreMark) : Security :=
  { x with store := x.store.map (fun m => if manifestSeq m.raw = seq then { m with mark := k } else m) }

/-- The STAGED manifest. -/
def Security.staged (x : Security) : Option Stored := x.store.find? (fun m => m.mark == StoreMark.staged)

/-- The SEQ in force. -/
def Security.seqNow (x : Security) : Nat := match x.inForce with | some r => manifestSeq r | none => 0

/-! ### Random nonce (R530) -/

def State.newNonce (s : State) : State :=
  let d := s.draw
  { d.2 with sec := { d.2.sec with nonce := Config.random d.1 } }

/-! ### Fuses of a manifest that becomes ACTIVE (R522, R523) -/

/-- SVN and REVOKED fuses blown once CC0 agrees; `second` is its value when it differs. -/
def State.blow (s : State) (m : Manifest) (second : Option Nat) : State :=
  let o := s.sec.otp
  let rev := o.revoked ||| BitVec.ofNat 4 m.revoke
  if m.svn ≤ o.svn ∧ rev = o.revoked then s
  else
    match second with
    | some v => s.disagree 4 m.svn v
    | none =>
      let s1 := { s with sec := { s.sec with otp := { o with svn := Nat.max o.svn m.svn, revoked := rev } } }
      if o.svn < m.svn then s1.modEvent 0x8003 [.h o.svn, .h m.svn, .h rev.toNat] else s1

/-! ### Boot (R517, R518, R521) -/

/-- Eligible manifests in descending SEQ. -/
def insertSeq (m : Stored) : List Stored → List Stored
  | [] => [m]
  | x :: xs => if manifestSeq x.raw < manifestSeq m.raw then m :: x :: xs else x :: insertSeq m xs

def Security.eligible (x : Security) : List Stored :=
  (x.store.filter (fun m => m.mark == .unmarked || m.mark == .active)).foldl (fun l m => insertSeq m l) []

/-- The causes for which manifests fail before the first that passes, with it. -/
def Security.tryBoot (x : Security) : List Stored → List (Nat × Nat) × Option (Stored × Manifest)
  | [] => ([], none)
  | m :: ms =>
    let go (c : Nat) : List (Nat × Nat) × Option (Stored × Manifest) := let r := x.tryBoot ms; ((c, manifestSeq m.raw) :: r.1, r.2)
    match x.otp.accepts m.raw with
    | .error c => go c
    | .ok f => if x.sound f then ([], some (m, f)) else go 6

/-- STAGED manifests that were written in part go, with chunks that nothing names (R521). -/
def Security.sweep (x : Security) : Security :=
  { x with store := x.store.filter (fun m => m.mark != StoreMark.staged || (readManifest m.raw).isSome) }.reclaim

/-- The boot ROM's work, once power and rails are there. -/
def State.runBoot (s : State) (second : Option Nat) : State :=
  let s0 := s.newNonce
  let r := s0.sec.tryBoot (s0.sec.eligible.take 8)
  let x := s0.sec.sweep
  let x1 := { x with vfails := x.vfails + r.1.length, bootFails := r.1, fallbacks := r.1.length, aliasGen := x.aliasGen + 1 }
  match r.2 with
  | some (m, f) =>
    let s1 := { s0 with
      sec := { x1 with inForce := some m.raw, bootSeq := f.seq }
      up := { s0.up with loader := true, recovery := false, failed := s0.up.failed &&& ~~~1 } }
    if m.mark = .active then s1.blow f second else s1
  | none =>
    ({ s0 with sec := { x1 with inForce := none }, up := { s0.up with recovery := true, failed := s0.up.failed ||| 1 } }).readinessIrq

/-- BOOT: at power-on, with the hub's rails up and outside production test. -/
def State.boot (s : State) (second : Option Nat) : State :=
  if 2 ≤ s.up.rails ∧ !s.up.testMode ∧ !s.up.loader ∧ !s.up.recovery then s.runBoot second else s

/-! ### Staging (R519) -/

/-- A length padded to a multiple of 64. -/
def pad64 (n : Nat) : Nat := (n + 63) / 64 * 64

/-- The chunks of a package, in the manifest's order from byte `off`. -/
def packageChunks (pkg : List Byte) : Nat → List ChunkRef → List (ChunkRef × List Byte)
  | _, [] => []
  | off, c :: cs => (c, slice pkg off c.len) :: packageChunks pkg (off + pad64 c.len) cs

/-- A package's manifest as it lies at the start. -/
def packageManifest (pkg : List Byte) : List Byte := pkg.take (manifestLen pkg)

/-- How staging ends: the SEQ staged, or a status and the cause that failed. -/
inductive StageEnd where
  | staged (seq : Nat)
  | rejected (cause seq : Nat)
  | present
  | full
  deriving DecidableEq, Repr

/-- A package staged, in the order of R519. -/
def State.stage (s : State) (pkg : List Byte) : State × StageEnd :=
  let raw := packageManifest pkg
  let x := s.sec
  match x.otp.accepts raw with
  | .error c => (s, .rejected c (manifestSeq raw))
  | .ok m =>
    if x.store.any (fun e => manifestSeq e.raw == m.seq) then (s, .present)
    else
      let fresh := (packageChunks pkg (pad64 raw.length) m.chunks).filter (fun c => (x.chunk c.1.dg).isNone)
      if x.free < raw.length + fresh.foldl (fun a c => a + c.1.len) 0 then (s, .full)
      else if fresh.any (fun c => c.2.length != c.1.len || digest c.2 != c.1.dg) then (s, .rejected 6 m.seq)
      else
        let y : Security := { x with
          store := x.store.filter (fun e => e.mark != StoreMark.staged) ++ [⟨raw, .staged⟩]
          chunks := x.chunks ++ fresh.map (fun c => (c.1.dg, c.2)) }
        ({ s with sec := y.reclaim }, .staged m.seq)

/-- An activation or a life-cycle change is under way. -/
def State.fwBusy (s : State) : Bool := s.sec.activation.isSome || s.sec.change.isSome

/-- A command that RETIRED denies. -/
def State.unlessRetired (s : State) (c : Cmd) (go : State) : State := if s.sec.otp.state = 4 then s.finish c stDenied [] 0 else go

/-- The row of Table 13.10 for opcode 0x50. -/
def formStage : Form :=
  .pf 0x50 16 [0xFFFFFFFFFFFFFFFF, 0xFFFFFFFFFFFFFFFF] fun c => [(0, (c.arg 0).toNat % 64 != 0)]

/-- FW_STAGE. -/
def State.fwStage (s : State) (f k : Nat) : State :=
  s.command f k formStage (fun _ => true) fun s c =>
      s.unlessRetired c
        (if s.fwBusy then s.finish c stBusy [] 0
         else
           match s.stage (Mem.readN s.host (c.arg 0).toNat (c.arg 1).toNat) with
           | (s1, .staged q) => s1.finish c stOk [BitVec.ofNat 64 q] 0
           | (s1, .rejected cause q) => (s1.verifyFail cause 2 q).finish c stIntegrity [] 0
           | (s1, .present) => s1.badArg c 16
           | (s1, .full) => s1.finish c stNoSpace [] 0)

/-! ### Activation (R509, R510, R520) -/

/-- The order in which cores are activated. -/
def coreOrder : List Nat := [4, 5, 6, 7, 8, 9, 10, 11, 2, 3, 1, 0]

/-- The staged manifest re-read from the store: none, or the cause of its failure. -/
def Security.recheck (x : Security) (raw : List Byte) : Option Nat :=
  match x.otp.accepts raw with
  | .error c => some c
  | .ok m => if x.sound m then none else some 6

def State.activate (s : State) (who : Asker) (seq : Nat) : State :=
  { s with sec := { s.sec with activation := some ⟨who, seq, [], none⟩ } }

/-- The row of Table 13.10 for opcode 0x51. -/
def formActivate : Form :=
  .pf 0x51 8 [0xFFFFFFFF] (fun _ => [])

/-- FW_ACTIVATE. -/
def State.fwActivate (s : State) (f k : Nat) : State :=
  s.command f k formActivate (fun _ => true) fun s c =>
    s.unlessRetired c
      (if s.fwBusy then s.finish c stBusy [] 0
       else
         let q := fld (c.arg 0) 0 32
         match s.sec.staged with
         | some m =>
           if manifestSeq m.raw ≠ q then s.badArg c 16
           else
             (match s.sec.recheck m.raw with
              | some cause => (s.verifyFail cause 3 q).finish c stIntegrity [] 0
              | none => (s.activate (.host f k) q).running c)
         | none => s.badArg c 16)

/-- The activation is over: its command ends. -/
def State.endActivation (s : State) (a : Activation) (status : Nat) : State :=
  let s1 := { s with sec := { s.sec with activation := none } }
  match a.by_ with
  | .host f k =>
    (match s1.cmds.find? (fun c => c.func == f && c.slot == k && c.opcode == 0x51 && c.taken) with
     | some c => s1.finish c status [] 0
     | none => s1)
  | .prigar => s1

/-- FW_ACTIVATED: the steps of R520 once the last core is back. -/
def State.activated (s : State) (a : Activation) (second : Option Nat) : State :=
  match s.sec.staged with
  | some m =>
    let old := s.sec.inForce
    let x := s.sec.mark a.seq .active
    let x1 := match old with | some r => x.mark (manifestSeq r) .retired | none => x
    let s1 := { s with sec := { x1 with inForce := some m.raw } }
    let s2 := match readManifest m.raw with | some f => s1.blow f second | none => s1
    let s3 := { s2 with sec := { s2.sec with aliasGen := s2.sec.aliasGen + 1 } }.modEvent 0x9005 [.h a.seq]
    { s3 with sec := s3.sec.reclaim }.endActivation a stOk
  | none => s.endActivation a stFault

/-- A core's handover, with its restart into an image. -/
def State.handOver (s : State) (c : Nat) : State :=
  let s1 := s.modEvent 0x9001 [.h c, .h (coverOf c), .h 0]
  (s1.until (s1.now + 2000000000)).modEvent 0x9001 [.h c, .h (coverOf c), .h 1]

/-- The next core of an activation, or of its rollback. -/
def State.nextCore (s : State) (a : Activation) : Option Nat :=
  match a.rollback with
  | some _ => a.done.getLast?
  | none => coreOrder.find? (fun c => !(s.core c).retired && !a.done.contains c)

/-- Every core that serves is there: none restarts for another reason (R510). -/
def State.allBack (s : State) : Bool := s.faults.cores.toList.all (fun k => k.away.isNone)

/-- FW_CORE_HANDOVER: the next core leaves, restarts and takes its duties back; with the last one the activation, or its rollback, ends. -/
def State.coreHandover (s : State) (second : Option Nat) : State :=
  match s.sec.activation with
  | some a =>
    (match s.nextCore a, s.allBack with
     | some c, true =>
       let s1 := s.handOver c
       let b := { a with done := if a.rollback.isSome then a.done.dropLast else a.done ++ [c] }
       let s2 := { s1 with sec := { s1.sec with activation := some b } }
       if (s2.nextCore b).isSome then s2
       else if b.rollback.isSome then s2.endActivation b stFault
       else s2.activated b second
     | _, _ => s)
  | none => s

/-- FW_SELF_CHECK_TIMEOUT: the next core has left and does not pass its self-check within 10 s; it goes back to the old image, and the
activation rolls back. -/
def State.selfCheck (s : State) : State :=
  match s.sec.activation with
  | some a =>
    (match a.rollback, s.nextCore a, s.allBack with
     | none, some c, true =>
       let s1 := s.modEvent 0x9001 [.h c, .h (coverOf c), .h 0]
       let s2 := (s1.until (s1.now + 10000000000)).modEvent 0x9006 [.h c, .h a.seq]
       let b := { a with rollback := some c }
       if a.done.isEmpty then s2.endActivation b stFault
       else { s2 with sec := { s2.sec with activation := some b } }
     | _, _, _ => s)
  | none => s

/-! ### Prigar's update paths (R437, R518) -/

/-- PLDM_FIRMWARE_UPDATE. -/
def State.pldmUpdate (s : State) (pkg : List Byte) : State :=
  if !s.up.ready.getLsbD 0 ∨ s.sec.otp.state = 4 then s.prigar pldmError []
  else if s.fwBusy then s.prigar pldmUpdating []
  else
    match s.stage pkg with
    | (s1, .staged q) => (s1.activate .prigar q).prigar pldmOk []
    | (s1, .rejected cause q) => (s1.verifyFail cause 5 q).prigar pldmError []
    | (s1, _) => s1.prigar pldmError []

/-- PLDM_RECOVERY_UPDATE: the package enters the store as UNMARKED, and the boot ROM runs again. -/
def State.pldmRecovery (s : State) (pkg : List Byte) (second : Option Nat) : State :=
  let raw := packageManifest pkg
  if !s.up.recovery then s.prigar pldmError []
  else
    match readManifest raw with
    | none => s.prigar pldmInvalid []
    | some m =>
      let x := s.sec
      let kept := x.store.filter (fun e => manifestSeq e.raw != m.seq)
      let fresh := (packageChunks pkg (pad64 raw.length) m.chunks).filter (fun c => (x.chunk c.1.dg).isNone)
      if x.free < raw.length + fresh.foldl (fun a c => a + c.1.len) 0 then s.prigar pldmError []
      else
        let y : Security := { x with store := kept ++ [⟨raw, .unmarked⟩], chunks := x.chunks ++ fresh.map (fun c => (c.1.dg, c.2)) }
        (({ s with sec := y }).prigar pldmOk []).runBoot second

/-! ### Measurements and attestation (R525, R527) -/

/-- The partition of a function. -/
def State.partOfFn (s : State) (f : Nat) : Option Nat := (List.range 8).find? (fun p => (s.part p).exists_ && (s.part p).func == f)

/-- Measurement `i` as function `f` gets it (Table 17.5). -/
def State.measurement (s : State) (f i : Nat) : List Byte :=
  let x := s.sec
  let o := x.otp
  let now : Option (List Byte) := x.inForce
  let of (v : Option (List Byte)) : List Byte := fit 48 (v.getD [])
  match i with
  | 1 => fit 48 Config.romDigest
  | 2 => of (now.map manifestDigest)
  | 3 =>
    fit 48 (leBytes 1 o.svn ++ leBytes 1 ((now.map manifestSvn).getD 0) ++ [0, 0] ++ leBytes 4 x.seqNow ++
      leBytes 4 ((x.staged.map (fun m => manifestSeq m.raw)).getD 0) ++ leBytes 1 (if x.activation.isSome then 1 else 0))
  | 4 => fit 48 (leBytes 1 o.state ++ leBytes 1 o.returns)
  | 5 => fit 48 (leBytes 1 ((now.map manifestSlot).getD 0) ++ leBytes 1 o.revoked.toNat)
  | 6 => fit 48 (leBytes 1 (if o.debug then 1 else 0))
  | 7 => of ((s.partOfFn f).map (fun p => nth x.imageDigest.toList p []))
  | 8 => of ((s.partOfFn f).map (fun p => nth x.tableDigest.toList p []))
  | _ => List.replicate 48 0

/-- "Gnoros-ATTEST" and "Gnoros-SPDM". -/
def ctxAttest : List Byte := [0x47, 0x6E, 0x6F, 0x72, 0x6F, 0x73, 0x2D, 0x41, 0x54, 0x54, 0x45, 0x53, 0x54]
def ctxSpdm : List Byte := [0x47, 0x6E, 0x6F, 0x72, 0x6F, 0x73, 0x2D, 0x53, 0x50, 0x44, 0x4D]

/-- Bytes 0–607 of a report (Table 17.6). -/
def State.report (s : State) (f : Nat) (nonce : List Byte) : List Byte :=
  leBytes 4 0x54544147 ++ leBytes 1 1 ++ leBytes 1 f ++ leBytes 2 3981 ++ leBytes 8 Config.serial.toNat ++ leBytes 8 s.now ++
    List.replicate 40 0 ++ fit 32 nonce ++
    ((List.range 8).map (fun i => leBytes 1 (i + 1) ++ List.replicate 15 0 ++ s.measurement f (i + 1))).flatten

/-- The report with its two signatures. -/
def State.signedReport (s : State) (f : Nat) (nonce : List Byte) : List Byte :=
  let r := s.report f nonce
  let d := digest r
  r ++ fit 64 (Config.ed25519Sign s.sec.aliasGen d) ++ fit 3309 (Config.mldsaSign s.sec.aliasGen d ctxAttest)

/-- The row of Table 13.10 for opcode 0x60. -/
def formAttest : Form :=
  .any 0x60 48 (List.replicate 6 0xFFFFFFFFFFFFFFFF) fun c => [(0, (c.arg 0).toNat % 64 != 0), (8, (c.arg 1).toNat % 64 != 0)]

/-- ATTEST. -/
def State.attest (s : State) (f k : Nat) : State :=
  s.command f k formAttest
    (fun _ => true) fun s c =>
      if s.sec.otp.state = 0 ∨ s.sec.otp.state = 4 then s.finish c stDenied [] 0
      else if (c.arg 1).toNat < 4032 then s.finish c stNoSpace [0, 4032] 0
      else (s.hostWrite (c.arg 0).toNat (s.signedReport f (slice c.params 16 32))).finish c stOk [3981] 0

/-! ### SPDM (R526, R528, R537) -/

def State.spdm (s : State) (f : Nat) : Spdm := nth s.sec.spdm.toList f ⟨0, none, .none⟩
def State.setSpdm (s : State) (f : Nat) (x : Spdm) : State :=
  if h : f < 9 then { s with sec := { s.sec with spdm := s.sec.spdm.set f x } } else s

/-- What stands in the way of any SPDM request. -/
def State.spdmBar (s : State) : Option SpdmError :=
  if !s.up.ready.getLsbD 0 || s.sec.change.isSome then some .busy
  else if s.sec.otp.state = 0 || s.sec.otp.state = 4 then some .unspecified
  else none

/-- A request answered, when `stage` of the connection's set-up has been reached. -/
def State.answerSpdm (s : State) (f stage : Nat) (go : State → Spdm → State) : State :=
  let x := s.spdm f
  match s.spdmBar with
  | some e => s.setSpdm f { x with reply := .error e }
  | none => if x.stage < stage then s.setSpdm f { x with reply := .error .unexpectedRequest } else go s x

/-- SPDM_GET_VERSION. -/
def State.spdmVersion (s : State) (f : Nat) : State :=
  s.answerSpdm f 0 fun s _ => s.setSpdm f ⟨1, none, .version 1 3⟩

/-- SPDM_GET_CAPABILITIES. -/
def State.spdmCapabilities (s : State) (f : Nat) : State :=
  s.answerSpdm f 1 fun s x => s.setSpdm f { x with stage := Nat.max x.stage 2, reply := .capabilities true true true }

/-- SPDM_NEGOTIATE_ALGORITHMS. -/
def State.spdmAlgorithms (s : State) (f : Nat) : State :=
  s.answerSpdm f 2 fun s x => s.setSpdm f { x with stage := Nat.max x.stage 3, reply := .algorithms true true }

/-- A part of a chain. -/
def chainPart (chain : List Byte) (off len : Nat) : SpdmReply :=
  if chain.length < off then .error .invalidRequest else .certificate (slice chain off len) (chain.length - (off + len))

/-- SPDM_GET_CERTIFICATE. -/
def State.spdmCertificate (s : State) (f slot off len : Nat) : State :=
  s.answerSpdm f 3 fun s x =>
    s.setSpdm f { x with reply := if slot = 0 then chainPart (Config.certChain s.sec.aliasGen false) off len else .error .invalidRequest }

/-- SPDM_CHALLENGE. -/
def State.spdmChallenge (s : State) (f slot : Nat) : State :=
  s.answerSpdm f 3 fun s x =>
    if slot = 0 then
      let d := s.draw
      d.2.setSpdm f { x with signed := some d.1, reply := .challengeAuth (fit 64 (Config.ed25519Sign s.sec.aliasGen (Config.spdmTranscript d.1))) }
    else s.setSpdm f { x with reply := .error .invalidRequest }

/-- SPDM_GET_MEASUREMENTS: index 0xFF asks for all; signed on request. -/
def State.spdmMeasurements (s : State) (f index : Nat) (sign : Bool) : State :=
  s.answerSpdm f 3 fun s x =>
    let is := if index = 0xFF then [1, 2, 3, 4, 5, 6, 7, 8] else [index]
    if index = 0 ∨ (8 < index ∧ index ≠ 0xFF) then s.setSpdm f { x with reply := .error .invalidRequest }
    else
      let bs := is.map (fun i => (i, s.measurement f i))
      if sign then
        let d := s.draw
        d.2.setSpdm f { x with
          signed := some d.1, reply := .measurements bs (some (fit 64 (Config.ed25519Sign s.sec.aliasGen (Config.spdmTranscript d.1)))) }
      else s.setSpdm f { x with reply := .measurements bs none }

/-- GET_PQ_CERTIFICATE. -/
def State.pqCertificate (s : State) (f off len : Nat) : State :=
  s.answerSpdm f 3 fun s x => s.setSpdm f { x with reply := chainPart (Config.certChain s.sec.aliasGen true) off len }

/-- GET_PQ_SIGNATURE. -/
def State.pqSignature (s : State) (f : Nat) : State :=
  s.answerSpdm f 1 fun s x =>
    s.setSpdm f { x with reply := match x.signed with
      | some n => .pqSignature (fit 3309 (Config.mldsaSign s.sec.aliasGen (Config.spdmTranscript n) ctxSpdm))
      | none => .error .unexpectedRequest }

/-! ### Life cycle (R528–R531) -/

/-- Table 17.9. -/
def transition (o : Otp) (from_ dest : Nat) : Bool :=
  (from_ == 0 && dest == 1) || (from_ == 1 && dest == 2) || (from_ == 2 && dest == 3 && decide (o.lc < 8)) || (from_ == 3 && dest == 2) ||
    (dest == 4 && (from_ == 1 || from_ == 2 || from_ == 3))

/-- Certificates of an authorization, and where its seal begins. -/
def authCerts (a : List Byte) : Nat := leVal (slice a 6 2)

/-- Check 1 of R530: the fields, the reserved bytes and CERTLEN among them. -/
def State.authFields (s : State) (a : List Byte) (target : Nat) : Bool :=
  let b4 := leVal (slice a 4 1)
  let n := authCerts a
  leVal (slice a 0 4) == 0x43594C47 && leVal (slice a 8 8) == Config.serial.toNat && b4 % 8 == s.sec.otp.state && b4 / 16 % 8 == target &&
    b4 / 8 % 2 == 0 && b4 / 128 == 0 && decide (leVal (slice a 5 1) < 4) && leVal (slice a 16 32) == s.sec.nonce.toNat &&
    (slice a 48 16).all (· == 0) && decide (n ≤ 32704) && a.length == 64 + n + 5357 && (n == 0 || (b4 % 8 == 1 && target == 2))

/-- Whether a list holds another as a run of bytes. -/
def holds (bs key : List Byte) : Bool := (List.range (bs.length + 1 - key.length)).any (fun k => slice bs k key.length == key)

/-- A DER certificate's length by its header, and the certificate. -/
def derLen (bs : List Byte) : Nat :=
  let n := leVal (slice bs 1 1)
  if n < 128 then 2 + n
  else if n = 0x81 then 3 + leVal (slice bs 2 1)
  else if n = 0x82 then 4 + leVal (slice bs 2 1) * 256 + leVal (slice bs 3 1)
  else bs.length

/-- Each certificate carries the module's DeviceID key (Table 17.9). -/
def Otp.certsOk (o : Otp) (certs : List Byte) : Bool :=
  let k := derLen certs
  holds (certs.take k) (Config.deviceIdKey o.uds false) && holds (certs.drop k) (Config.deviceIdKey o.uds true)

/-- The authorization's verdict: its place in R530 and the cause. -/
inductive AuthEnd where
  | ok
  | badTransition
  | failed (cause : Nat)
  deriving DecidableEq, Repr

def State.authorize (s : State) (a : List Byte) (target : Nat) : AuthEnd :=
  let o := s.sec.otp
  let n := authCerts a
  if !s.authFields a target then .failed 8
  else if !transition o o.state target then .badTransition
  else
    match o.check (leVal (slice a 5 1)) (sealAt a (64 + n)) (digest (a.take (64 + n + 1984))) with
    | some c => .failed c
    | none => if o.state = 1 ∧ target = 2 ∧ !o.certsOk (slice a 64 n) then .failed 8 else .ok

/-- The fuses of a change, the certificates, and the UDS. -/
def State.fuse (s : State) (a : List Byte) (target : Nat) : State :=
  let d := s.draw
  let s1 := if target = 1 then d.2 else s
  let o := s1.sec.otp
  let o1 := if target = 4 then { o with udsKill := true } else { o with lc := o.lc + 1, uds := if target = 1 then Config.random d.1 else o.uds }
  let certs := if target = 4 then [] else if o.state = 1 then slice a 64 (authCerts a) else s1.sec.certs
  { s1 with sec := { s1.sec with otp := o1, certs := certs } }

/-- Every tile wiped, every key replaced. -/
def State.wipeAll (s : State) : State :=
  (List.range 8).foldl (fun s p => s.rekey p true true) { s with tiles := s.tiles.map (fun e => (e.1, e.2.cleared)) }

/-- The row of Table 13.10 for opcode 0xA0. -/
def formLifecycle : Form :=
  .pf 0xA0 24 [7, 0xFFFFFFFFFFFFFFFF, 0xFFFFFFFFFFFFFFFF] fun c => [(8, (c.arg 1).toNat % 64 != 0)]

/-- LIFECYCLE to one target; `mine` says which TARGETs the row answers. -/
def State.lifecycle (s : State) (f k : Nat) (mine : Nat → Bool) (second : Option Nat) : State :=
  let due := match s.toTake f k 0xA0 with | some c => mine (fld (c.arg 0) 0 3) | none => false
  let s1 := s.command f k formLifecycle (fun c => mine (fld (c.arg 0) 0 3)) fun s c =>
      s.unlessRetired c
        (let t := fld (c.arg 0) 0 3
         let a := Mem.readN s.host (c.arg 1).toNat (c.arg 2).toNat
         match s.authorize a t with
         | .failed cause => (s.verifyFail cause 4 t).finish c stIntegrity [] 0
         | .badTransition => s.badArg c 16
         | .ok =>
           if (List.range 8).any (fun p => (s.part p).exists_) || s.fwBusy then s.finish c stBusy [] 0
           else
             (match second with
              | some v => (s.disagree 4 t v).finish c stFault [] 0
              | none =>
                let old := s.sec.otp.state
                let s2 := (s.fuse a t).wipeAll
                let s3 := s2.cmds.foldl (fun s d => if c.same d then s else s.finish d stAborted [] 0) s2
                { s3 with sec := { s3.sec with change := some ⟨f, k, old, t⟩ } }.running c))
  if due then s1.newNonce else s1

/-- LIFECYCLE_WIPE_COMPLETE. -/
def State.lifecycleDone (s : State) : State :=
  match s.sec.change with
  | some ch =>
    let s1 := s.until (s.now + 650000000)
    let s2 : State := { s1 with
      hbm := { s1.hbm with cells := [], keys := [], poison := [], bad := [], weak := [] }
      locker := ⟨[], [], [], []⟩
      fns := s1.fns.map (fun x => { x with slots := [], held := [], full := x.full.map (fun e => (e.1, 0)) })
      parts := s1.parts.map (fun x => { x with log := ⟨[], 0⟩ })
      faults := { s1.faults with modLog := ⟨[], s1.faults.modLog.next⟩ }
      sec := { s1.sec with change := none, aliasGen := s1.sec.aliasGen + 1 } }
    let s3 := s2.modEvent 0x8002 [.h ch.old, .h ch.new]
    (match s3.cmds.find? (fun c => c.func == ch.func && c.slot == ch.slot && c.opcode == 0xA0 && c.taken) with
     | some c => s3.finish c stOk [] 0
     | none => s3)
  | none => s

end Sys2Proof.Machine
end

