-- ==== Sys2Proof/Machine/Bringup.lean ====
section
/-! DEFINITION. Bring-up of each function, the PCIe port's start, and the test access port (`18_bringup_test_and_physical.md`). -/

namespace Sys2Proof.Machine

/-! ### Functions by number: 0–29 the bits of HI_READY, 30–78 the blocks (R534, Table 18.1) -/

inductive BringUnit where
  | board
  | die (d : Nat)
  | stack (h : Nat)
  | port (q : Nat)
  | locker
  | block (b : Nat)
  deriving DecidableEq, Repr

def bringUnit (n : Nat) : BringUnit :=
  if n = 0 then .board
  else if n < 5 then .die (n - 1)
  else if n < 13 then .stack (n - 5)
  else if n < 29 then .port (n - 13)
  else if n = 29 then .locker
  else .block (n - 30)

/-- A block covers a die. -/
def blockOn (b d : Nat) : Bool := (dieBlocks d).contains b

def Bringup.isReady (u : Bringup) (n : Nat) : Bool := if n < 30 then u.ready.getLsbD n else u.blocks.getLsbD (n - 30)
def Bringup.isFailed (u : Bringup) (n : Nat) : Bool := if n < 30 then u.failed.getLsbD n else u.failBlocks.getLsbD (n - 30)
def Bringup.setReady (u : Bringup) (n : Nat) : Bringup :=
  if n < 30 then { u with ready := u.ready ||| BitVec.ofNat 30 (2 ^ n) } else { u with blocks := u.blocks ||| BitVec.ofNat 49 (2 ^ (n - 30)) }
def Bringup.setFailed (u : Bringup) (n : Nat) : Bringup :=
  if n < 30 then { u with failed := u.failed ||| BitVec.ofNat 30 (2 ^ n) }
  else { u with failBlocks := u.failBlocks ||| BitVec.ofNat 49 (2 ^ (n - 30)) }

/-- What a function's bring-up waits for is there. -/
def Bringup.mayStart (u : Bringup) (n : Nat) : Bool :=
  !u.testMode && u.loader &&
    (match bringUnit n with
     | .board => decide (2 ≤ u.rails)
     | .die d => decide (3 + d ≤ u.rails)
     | .stack h => u.ready.getLsbD (1 + dieOfStack h) && decide (7 ≤ u.rails)
     | .port q => u.ready.getLsbD (1 + dieOfPort q) && decide (9 ≤ u.rails)
     | .locker => decide (8 ≤ u.rails)
     | .block b => (List.range 4).all (fun d => !blockOn b d || u.ready.getLsbD (1 + d)))

/-! ### FUNCTION_READY -/

/-- The sites of a block. -/
def blockSites (b : Nat) : List Nat :=
  ((List.range 8).map (fun j => (List.range 8).map (fun i => siteId (8 * (b % 7) + i) (8 * (b / 7) + j)))).flatten

/-- A block's work: sites that failed their test leave service, every tile is wiped, and the test counts (R535). -/
def State.blockUp (s : State) (b : Nat) (bad : List Nat) : State :=
  let s1 := ((blockSites b).filter bad.contains).foldl (fun s x => s.condemnSite x) s
  let s2 := (blockSites b).foldl (fun s x => s.setSiteTile x (s.siteTile x).cleared) s1
  (blockSites b).foldl (fun s x => match s.seatedAt x with
    | some l => { s with faults := { s.faults with tested := Tab.put s.faults.tested l s.now } }
    | none => s) s2

/-- The failures of the boot are posted once the command board is ready (R517). -/
def State.boardUp (s : State) : State :=
  let s1 := { s with sec := { s.sec with bootFails := [] } }
  s.sec.bootFails.foldl (fun s e => s.modEvent 0x8001 [.h e.1, .h 1, .h e.2]) s1

/-- A stack's work: pseudo-channels with a listed row that no spare repairs are permanent-faulty (R541). -/
def State.stackUp (s : State) (h : Nat) (bad : List Nat) : State :=
  (bad.filter (fun c => c / 32 == h)).foldl (fun s c => s.condemn 3 c) s

/-- A port enters DETECT, or stays DISABLED. -/
def State.portBrought (s : State) (q : Nat) : State := s.modPort q (fun x => x.enter (if x.en.force then .detect else .disabled) s.now)

/-- FUNCTION_READY: `bad` names sites of a block that failed their test, or pseudo-channels of a stack that have lost a row. -/
def State.functionReady (s : State) (n : Nat) (bad : List Nat) : State :=
  if s.up.isReady n || s.up.isFailed n || !s.up.mayStart n then s
  else
    let s1 := { s with up := s.up.setReady n }
    let s2 := match bringUnit n with
      | .board => s1.boardUp
      | .stack h => s1.stackUp h bad
      | .port q => s1.portBrought q
      | .block b => s1.blockUp b bad
      | _ => s1
    s2.readinessIrq

/-! ### BRINGUP_TIMEOUT (R534, R535) -/

/-- A function's timer, in ns from power-on. -/
def bringTimer (n : Nat) : Nat :=
  match bringUnit n with
  | .stack _ => 5000000000
  | .port _ => 2000000000
  | .locker => 1000000000
  | _ => 3000000000

/-- A function marked failed, its cause in the gradebook and UNIT_FAILED posted. -/
def State.unitFailed (s : State) (n cause : Nat) : State :=
  if s.up.isReady n || s.up.isFailed n then s
  else
    let s1 := { s with up := s.up.setFailed n }
    let s2 := match bringUnit n with
      | .die d => s1.modGrade 6 d (fun g => { g with extra := [cause] })
      | .stack h => s1.modGrade 7 h (fun g => { g with extra := [cause] })
      | _ => s1
    s2.modEvent 0x7003 [.h n, .h cause]

/-- The functions that a failed die takes with it. -/
def behindDie (d : Nat) : List Nat :=
  ((List.range 8).filter (fun h => dieOfStack h == d)).map (5 + ·) ++ ((List.range 16).filter (fun q => dieOfPort q == d)).map (13 + ·) ++
    (dieBlocks d).map (30 + ·)

/-- BRINGUP_TIMEOUT: the timer expired, or at that time the function's test has failed. -/
def State.bringupTimeout (s : State) (n : Nat) (test : Bool) : State :=
  if s.up.isReady n || s.up.isFailed n || s.up.testMode then s
  else
    let s1 := (s.until (bringTimer n)).unitFailed n (if test then 2 else 1)
    let s2 := match bringUnit n with
      | .die d => (behindDie d).foldl (fun (s : State) m => s.unitFailed m 3) s1
      | .board => { s1 with up := { s1.up with recovery := true } }
      | _ => s1
    s2.readinessIrq

/-! ### The PCIe port (R537, R540) -/

/-- PERST_DEASSERT. -/
def State.perstDeassert (s : State) : State :=
  if s.up.rails = 0 then s else { s.until 20000000 with up := { s.up with perst := true, link := true, compliance := false } }

/-- ENTER_COMPLIANCE: the host takes the link down by its own action. -/
def State.enterCompliance (s : State) : State :=
  if s.up.perst then { s.hotReset with up := { s.up with link := false, compliance := true } } else s

/-! ### The test access port (R539, Table 18.4) -/

/-- The bits of a number, lowest first. -/
def bitsLow (n v : Nat) : List Bool := (List.range n).map (fun k => v.testBit k)

/-- IDCODE: stepping, 0x4704, 0x2E5, 1. -/
def idcode : Nat := 0x047045CB + Config.stepping.toNat % 16 * 2 ^ 28

def State.tap (s : State) (f : Bringup → Bringup) : State := { s with up := f s.up }

/-- The bypass register. -/
def Bringup.bypass (u : Bringup) : Bringup := { u with ir := .bypass, dr := [false], drive := 0 }

/-- An instruction of production test; outside it the port decodes BYPASS. -/
def State.tapTest (s : State) (f : Bringup → Bringup) : State := s.tap (fun u => if u.testMode then f u else u.bypass)

def State.tapBypass (s : State) : State := s.tap Bringup.bypass
def State.tapIdcode (s : State) : State := s.tap (fun u => { u with ir := .idcode, dr := bitsLow 32 idcode, drive := 0 })

/-- SAMPLE captures the pins; PRELOAD loads the boundary cells. -/
def State.tapSample (s : State) (pins : List Bool) : State := s.tap (fun u => { u with ir := .sample, dr := pins, drive := 0 })
def State.tapPreload (s : State) (bits : List Bool) : State := s.tap (fun u => { u with ir := .preload, dr := u.cells, cells := bits, drive := 0 })

/-- EXTEST and its forms for the AC-coupled lanes: the pins are captured, and the cells, as shifted in, drive. -/
def State.tapExtest (s : State) (ir : TapIr) (pins bits : List Bool) : State :=
  s.tapTest (fun u => { u with ir := ir, dr := pins, cells := bits, drive := 1 })

/-- CLAMP drives the pins from the cells and selects the bypass register; HIGHZ leaves them undriven. -/
def State.tapClamp (s : State) : State := s.tapTest (fun u => { u with ir := .clamp, dr := [false], drive := 1 })
def State.tapHighz (s : State) : State := s.tapTest (fun u => { u with ir := .highz, dr := [false], drive := 2 })

/-- A stack's wrapper registers: what stood in one is captured, and bits are shifted in. -/
def State.tapWir (s : State) (h : Nat) (bits : List Bool) : State :=
  s.tapTest (fun u => if k : h < 8 then { u with ir := .hbmWir, dr := u.wir[h], wir := u.wir.set h bits, drive := 0 } else u)
def State.tapWdr (s : State) (h : Nat) (bits : List Bool) : State :=
  s.tapTest (fun u => if k : h < 8 then { u with ir := .hbmWdr, dr := u.wdr[h], wdr := u.wdr.set h bits, drive := 0 } else u)

/-- LANE_TEST: the lanes whose generators and checkers run; what the checkers counted is captured. -/
def State.tapLanes (s : State) (lanes : BitVec 64) (counts : List Bool) : State :=
  s.tapTest (fun u => { u with ir := .laneTest, dr := counts, lanes := lanes, drive := 0 })

end Sys2Proof.Machine
end

