-- ==== Sys2Proof/Machine/Regs.lean ====
section
/-! DEFINITION. BAR0: where the register blocks lie, what each register reads, and what a write does
(`13_host_interface_and_commands.md` R406–R411, Tables 13.3–13.6, 13.9, 13.11; `00_scope.md` R9–R12; Tables 10.11, 10.12, 11.10, 14.7, 15.6,
16.5, 17.11). -/

namespace Sys2Proof.Machine

/-! ### The map (Table 13.3) -/

inductive BarBlock where
  | hi | ready | slots | cb | tm
  | mm (p : Nat)
  | reg
  | lk (q : Nat)
  | pw
  | pt (p : Nat)
  | sc | ev | reserved
  deriving DecidableEq, Repr

/-- The block and the offset within it that a function's BAR0 offset names. -/
def locate (own : Option Nat) (f off : Nat) : BarBlock × Nat :=
  let at_ (b : BarBlock) (base size : Nat) (rest : BarBlock × Nat) : BarBlock × Nat := if base ≤ off ∧ off < base + size then (b, off - base) else rest
  if f = 0 then
    at_ .hi 0x0000000 0x10000 <| at_ .ready 0x0010000 0x10000 <| at_ .slots 0x0100000 0x40000 <| at_ .cb 0x0140000 0x1000 <|
    at_ .tm 0x0200000 0x1000 <| at_ (.mm ((off - 0x0210000) / 0x1000)) (0x0210000 + (off - 0x0210000) / 0x1000 * 0x1000)
      (if off < 0x0218000 then 0x1000 else 0) <|
    at_ .reg 0x0220000 0x80 <|
    at_ (.lk ((off - 0x0230000) / 0x100)) (0x0230000 + (off - 0x0230000) / 0x100 * 0x100) (if off < 0x0231000 then 0x100 else 0) <|
    at_ .pw 0x0240000 0x1000 <|
    at_ (.pt ((off - 0x0250000) / 0x1000)) (0x0250000 + (off - 0x0250000) / 0x1000 * 0x1000) (if off < 0x0258000 then 0x1000 else 0) <|
    at_ .sc 0x0260000 0x1000 <| at_ .ev 0x0300000 0x1000 (.reserved, 0)
  else
    let mine (b : Nat → BarBlock) : BarBlock := match own with | some p => b p | none => .reserved
    at_ .hi 0x00000 0x1000 <| at_ .ready 0x01000 0x1000 <| at_ .slots 0x40000 0x40000 <| at_ .cb 0x80000 0x1000 <| at_ .tm 0xA0000 0x1000 <|
    at_ (mine .mm) 0xB0000 0x1000 <|
    at_ (.lk ((off - 0xC0000) / 0x100)) (0xC0000 + (off - 0xC0000) / 0x100 * 0x100) (if off < 0xC1000 then 0x100 else 0) <|
    at_ (mine .pt) 0xD0000 0x1000 <| at_ .ev 0xF0000 0x1000 (.reserved, 0)

/-! ### Reads -/

/-- Logical tiles that can take part in partitions: those whose site serves (HI_CAP.TILES, R535). -/
def State.tilesCap (s : State) : Nat :=
  ((List.range 3072).filter (fun l => let g := s.grade 1 (s.seat l).site; !g.out)).length

def State.hiReg (s : State) (f off : Nat) : Word :=
  match off with
  | 0x00 => place 0x4704 0 16 ||| place Config.stepping.toNat 16 8 ||| place f 24 4
  | 0x08 => BitVec.ofNat 64 (leVal partNumber)
  | 0x10 => Config.serial
  | 0x18 =>
    place s.tilesCap 0 12 ||| place 8 12 4 ||| place 0x32 16 8 ||| place 0x20 24 8 ||| place 0x41 32 8 ||| place 0x30 40 8 ||| place 5 48 8
  | 0x20 => place s.sec.seqNow 0 32 ||| place s.sec.otp.svn 32 8
  | 0x28 => place s.pcsLeft 0 9
  | _ => 0

def State.readyReg (s : State) (f off : Nat) : Word :=
  match off with
  | 0x00 => BitVec.ofNat 64 s.up.ready.toNat
  | 0x08 => BitVec.ofNat 64 s.up.blocks.toNat
  | 0x10 => BitVec.ofNat 64 s.up.failed.toNat
  | 0x18 => BitVec.ofNat 64 s.up.failBlocks.toNat
  | 0x20 => place (s.fn f).uver 0 8 ||| placeB (s.fn f).neg 8
  | 0x28 => BitVec.ofNat 64 s.now
  | _ => 0

/-- Fields of `n` bits each, the first lowest. -/
def packFields (n : Nat) (xs : List Nat) : Nat := xs.foldr (fun x a => x % 2 ^ n + a * 2 ^ n) 0

/-- The largest fraction in force on any island (TM_CAP.SKIP). -/
def State.largestSkip (s : State) : Nat :=
  Nat.min 31 ((List.range 3136).foldl (fun a x => Nat.max a (s.fraction x)) 0)

def State.tmReg (s : State) (f off : Nat) : Word :=
  let w := s.power
  match off with
  | 0x00 => place w.mw 0 32
  | 0x08 => place w.mv 0 16
  | 0x10 => BitVec.ofNat 64 (w.energy / 100)
  | 0x18 => BitVec.ofNat 64 w.etime
  | 0x20 => BitVec.ofNat 64 (packFields 8 (w.dies.toList.map (·.tj)))
  | 0x28 => BitVec.ofNat 64 (packFields 8 (s.hbm.heat.toList.map (·.temp)))
  | 0x30 => place w.coolIn 0 8 ||| place w.coolOut 8 8
  | 0x38 => place w.inForce 0 16 ||| place s.largestSkip 16 5
  | 0x40 => BitVec.ofNat 64 s.board.hold
  | _ =>
    if 0x80 ≤ off ∧ off < 0xC0 ∧ off % 8 = 0 then
      (if f = 0 then BitVec.ofNat 64 (s.part ((off - 0x80) / 8)).step
       else if off = 0x80 then (match s.owned f with | some p => BitVec.ofNat 64 (s.part p).step | none => 0) else 0)
    else 0

/-- Ring registers 0x00–0x28 as the command board and the event ring share them. -/
def Ring.reg (r : Ring) (off : Nat) : Word :=
  match off with
  | 0x00 => BitVec.ofNat 64 r.base.force
  | 0x08 => place r.log2.force 0 5
  | 0x10 => placeB r.en.force 0
  | 0x20 => place r.head 0 16
  | 0x28 => place r.tail 0 16
  | _ => 0

def Fn.cbReg (x : Fn) (off : Nat) : Word :=
  match off with
  | 0x30 => place x.full.length 0 11
  | 0x38 => place x.pErr.toNat 0 3 ||| place x.errSlot 16 10
  | 0x40 => place x.imodCount 0 8 ||| place x.imodDelay 8 16
  | 0x48 => place x.lastSeq.toNat 0 32
  | 0x50 => BitVec.ofNat 64 x.submitted
  | 0x58 => BitVec.ofNat 64 x.refused
  | 0x60 => BitVec.ofNat 64 x.timeouts
  | _ =>
    if 0x100 ≤ off ∧ off < 0x180 ∧ off % 8 = 0 then
      BitVec.ofNat 64 ((x.full.filter (fun e => e.1 / 64 == (off - 0x100) / 8)).foldl (fun a e => a + 2 ^ (e.1 % 64)) 0)
    else if off < 0x30 then x.rr.reg off else 0

def Fn.evReg (x : Fn) (off : Nat) : Word :=
  match off with
  | 0x10 => placeB x.ev.en.force 0 ||| place x.classes.force 1 9
  | 0x30 => BitVec.ofNat 64 x.lost
  | 0x38 => BitVec.ofNat 64 x.nextSeq
  | _ => if off < 0x30 then x.ev.reg off else 0

/-- A slot's header and bytes. -/
def Fn.slotReg (x : Fn) (off : Nat) : Word :=
  if off % 256 < 8 then (Tab.find? x.full (off / 256)).getD 0 else wordAt (Mem.readN x.slots off 8) 0

/-- Streams of a partition that are FAULTED. -/
def State.openFaults (s : State) (p : Nat) : Nat :=
  (s.part p).tiles.foldl (fun a l => a + ((s.tile l).xc.streams.toList.filter (fun x => x.fault.isSome)).length) 0

def SlotState.code : SlotState → Nat
  | .active => 1 | .retiring => 2 | .released => 2 | .retired => 3

def State.mmReg (s : State) (p off : Nat) : Word :=
  let x := s.part p
  let m := x.mm
  match off with
  | 0x00 => placeB m.valid.force 0 ||| place m.root.force 12 27
  | 0x10 => placeB m.invalBusy 1
  | 0x18 => placeB m.apMode 0 ||| place m.apBase 36 12
  | 0x28 => place m.ftmo 0 16
  | 0x30 => place (s.openFaults p) 0 14 ||| placeB m.stray 16 ||| placeB m.aperr 17 ||| placeB m.timedout 18
  | 0x40 => BitVec.ofNat 64 (m.rdbytes / 256)
  | 0x48 => BitVec.ofNat 64 (m.wrbytes / 256)
  | 0x50 => BitVec.ofNat 64 m.lookups
  | 0x58 => BitVec.ofNat 64 m.faults
  | 0x60 => BitVec.ofNat 64 x.reg.wait
  | 0x68 => place x.reg.rate.force 0 17 ||| place x.reg.burst.force 32 16
  | 0x70 => place x.lkSize 0 40
  | 0x78 => BitVec.ofNat 64 (packFields 2 (s.hbm.heat.toList.map (fun k => k.mult.log2)))
  | _ =>
    if 0x800 ≤ off ∧ off % 8 = 0 then
      match x.slots[(off - 0x800) / 8]? with
      | some k => place k.stack 0 3 ||| place k.pc 8 5 ||| place k.state.code 16 2
      | none => 0
    else 0

def State.regReg (s : State) (off : Nat) : Word :=
  if off % 16 = 0 then let r := (s.part (off / 16)).reg; place r.rate.force 0 17 ||| place r.burst.force 32 16 else 0

def Port.reg (x : Port) (off : Nat) : Word :=
  match off with
  | 0x00 => x.stat
  | 0x08 => x.peer
  | 0x10 => place x.peerPort 0 4 ||| placeB x.peerValid 4
  | 0x18 => placeB x.en.force 0 ||| place x.minw.force 4 3
  | 0x28 => x.toff
  | 0x30 => BitVec.ofNat 64 x.txflits
  | 0x38 => BitVec.ofNat 64 x.rxflits
  | 0x40 => BitVec.ofNat 64 x.feccorr
  | 0x48 => BitVec.ofNat 64 x.fecunc
  | 0x50 => BitVec.ofNat 64 x.crcerr
  | 0x58 => BitVec.ofNat 64 x.retries
  | 0x60 => BitVec.ofNat 64 x.discard
  | 0x68 => BitVec.ofNat 64 x.cstall
  | 0x70 => BitVec.ofNat 64 x.downs
  | 0x78 => BitVec.ofNat 64 x.proterr
  | 0x80 => BitVec.ofNat 64 x.lanecorr[0]
  | 0x88 => BitVec.ofNat 64 x.lanecorr[1]
  | 0x90 => BitVec.ofNat 64 x.lanecorr[2]
  | 0x98 => BitVec.ofNat 64 x.lanecorr[3]
  | _ => 0

def State.pwReg (s : State) (off : Nat) : Word :=
  let w := s.power
  let heat (d : Nat) : Nat := (nth w.dies.toList d .reset).k
  match off with
  | 0x00 =>
    placeB w.fit 0 ||| placeB w.throttled 1 ||| place w.cause 2 2 |||
      place (packFields 1 (w.dies.toList.map (fun d => if d.hold.isSome then 1 else 0))) 4 4 ||| place w.rate 8 5
  | 0x08 => place w.host 0 16 ||| place w.mgmt 16 16 ||| place w.inForce 32 16
  | 0x10 => place w.capK 0 5 ||| place (heat 0) 8 5 ||| place (heat 1) 16 5 ||| place (heat 2) 24 5 ||| place (heat 3) 32 5
  | 0x18 => place w.estMw 0 32 ||| place w.estErr 32 16
  | 0x20 => place w.thresh.force 0 16
  | 0x30 => BitVec.ofNat 64 (packFields 8 ((List.range 8).map s.paceRate))
  | 0x40 => BitVec.ofNat 64 w.droops
  | 0x48 => BitVec.ofNat 64 (w.throtNs + (if w.throttled then s.now - w.throtAt else 0))
  | 0x50 => BitVec.ofNat 64 (w.holdNs + (if w.dies.toList.any (fun d => d.hold.isSome) then s.now - w.holdAt else 0))
  | 0x58 => BitVec.ofNat 64 w.unfits
  | 0x60 => BitVec.ofNat 64 w.dips
  | _ => 0

/-- A partition's block; PT_DBGDATA is DEBUG_READ's. -/
def State.ptBlock (s : State) (p off : Nat) : Word :=
  let x := s.part p
  match off with
  | 0x40 => x.dbgAddr
  | 0x50 => placeB x.dbgDenied 0
  | 0x60 => place x.proctor.n.force 0 13
  | 0x70 => BitVec.ofNat 64 x.proctor.sampled
  | 0x78 => BitVec.ofNat 64 x.proctor.mismatched
  | 0x80 => place x.proctor.voided 0 32 ||| place x.proctor.skipped 32 32
  | _ => if off < 0x40 then s.ptReg p off else 0

def State.scReg (s : State) (off : Nat) : Word :=
  let x := s.sec
  let o := x.otp
  match off with
  | 0x00 =>
    place o.state 0 3 ||| place o.svn 8 8 ||| place ((x.inForce.map manifestSlot).getD 0) 16 2 ||| place o.revoked.toNat 20 4 |||
      place o.returns 24 3 ||| placeB o.debug 28 ||| placeB x.activation.isSome 30
  | 0x08 => BitVec.ofNat 64 x.nonce.toNat
  | 0x10 => BitVec.ofNat 64 (x.nonce.toNat / 2 ^ 64)
  | 0x18 => BitVec.ofNat 64 (x.nonce.toNat / 2 ^ 128)
  | 0x20 => BitVec.ofNat 64 (x.nonce.toNat / 2 ^ 192)
  | 0x28 => place x.bootSeq 0 32 ||| place x.fallbacks 32 8 ||| place Config.romVersion.toNat 48 8
  | 0x30 => match x.staged with | some m => place (manifestSeq m.raw) 0 32 ||| placeB true 32 | none => 0
  | 0x38 => place x.free 0 40
  | 0x40 => BitVec.ofNat 64 x.vfails
  | _ => 0

/-- The 64-bit word at an aligned offset of a function's BAR0 (R406–R408): what the mirrors and registers show. -/
def State.barWord (s : State) (f off : Nat) : Word :=
  match locate (s.owned f) f off with
  | (.hi, o) => s.hiReg f o
  | (.ready, o) => s.readyReg f o
  | (.slots, o) => (s.fn f).slotReg o
  | (.cb, o) => (s.fn f).cbReg o
  | (.tm, o) => s.tmReg f o
  | (.mm p, o) => s.mmReg p o
  | (.reg, o) => s.regReg o
  | (.lk q, o) => if f = 0 ∨ ((s.port q).owner.isSome ∧ (s.port q).owner = s.owned f) then (s.port q).reg o else 0
  | (.pw, o) => s.pwReg o
  | (.pt p, o) => s.ptBlock p o
  | (.sc, o) => s.scReg o
  | (.ev, o) => (s.fn f).evReg o
  | (.reserved, _) => 0

/-! ### Writes (R408, R9–R12) -/

/-- A write as it falls on an aligned word: the bits it covers and their values. -/
structure WordWrite where
  mask : Word
  val : Word
  deriving DecidableEq, Repr

def WordWrite.of (off : Nat) (wide : Bool) (data : Word) : WordWrite :=
  if wide then ⟨0xFFFFFFFFFFFFFFFF, data⟩
  else if off % 8 = 4 then ⟨0xFFFFFFFF00000000, data <<< 32⟩
  else ⟨0xFFFFFFFF, data &&& 0xFFFFFFFF⟩

/-- A read-write register after the write, and the ones that reach a write-only or W1C register. -/
def WordWrite.onto (w : WordWrite) (old : Word) : Word := (old &&& ~~~w.mask) ||| (w.val &&& w.mask)
def WordWrite.ones (w : WordWrite) : Word := w.val &&& w.mask

/-- Ring registers' shadows, by the write. -/
def Ring.write (r : Ring) (off : Nat) (w : WordWrite) : Ring :=
  match off with
  | 0x00 => { r with base := { r.base with shadow := (w.onto (BitVec.ofNat 64 r.base.shadow)).toNat / 64 * 64 } }
  | 0x08 => { r with log2 := { r.log2 with shadow := fld (w.onto (BitVec.ofNat 64 r.log2.shadow)) 0 5 } }
  | 0x10 => { r with en := { r.en with shadow := bit (w.onto (placeB r.en.shadow 0)) 0 } }
  | 0x20 => { r with head := fld (w.onto (BitVec.ofNat 64 r.head)) 0 16 }
  | _ => r

def State.cbWrite (s : State) (f off : Nat) (w : WordWrite) : State :=
  match off with
  | 0x18 => if bit w.ones 0 then s.cbApply f else s
  | 0x38 => s.modFn f (fun x => { x with pErr := x.pErr &&& ~~~BitVec.ofNat 3 (fld w.ones 0 3) })
  | 0x40 => s.modFn f (fun x =>
    let v := w.onto (place x.imodCount 0 8 ||| place x.imodDelay 8 16)
    { x with imodCount := fld v 0 8, imodDelay := fld v 8 16 })
  | _ => s.modFn f (fun x => { x with rr := x.rr.write off w })

def State.evWrite (s : State) (f off : Nat) (w : WordWrite) : State :=
  match off with
  | 0x18 => if bit w.ones 0 then s.evApply f else s
  | 0x10 => s.modFn f (fun x =>
    let v := w.onto (placeB x.ev.en.shadow 0 ||| place x.classes.shadow 1 9)
    { x with ev := { x.ev with en := { x.ev.en with shadow := bit v 0 } }, classes := { x.classes with shadow := fld v 1 9 } })
  | _ => s.modFn f (fun x => { x with ev := x.ev.write off w })

def State.mmWrite (s : State) (p off : Nat) (w : WordWrite) : State :=
  match off with
  | 0x00 => s.modMm p (fun m =>
    let v := w.onto (placeB m.valid.shadow 0 ||| place m.root.shadow 12 27)
    { m with valid := { m.valid with shadow := bit v 0 }, root := { m.root with shadow := fld v 12 27 } })
  | 0x08 => if bit w.ones 0 then s.mmApply p else s
  | 0x10 => if bit w.ones 0 then s.mmInval p else s
  | 0x18 => s.modMm p (fun m =>
    let v := w.onto (placeB m.apMode 0 ||| place m.apBase 36 12)
    { m with apMode := bit v 0, apBase := fld v 36 12 })
  | 0x20 =>
    if bit w.mask 0 then (if bit w.ones 16 then s.faultAbort p (fld w.ones 0 14) else s.faultResume p (fld w.ones 0 14)) else s
  | 0x28 => s.modMm p (fun m => { m with ftmo := fld (w.onto (place m.ftmo 0 16)) 0 16 })
  | 0x30 => s.modMm p (fun m =>
    { m with stray := m.stray && !bit w.ones 16, aperr := m.aperr && !bit w.ones 17, timedout := m.timedout && !bit w.ones 18 })
  | 0x38 => if bit w.mask 0 then s.chRelease p (fld w.ones 0 8) else s
  | _ => s

def State.regWrite (s : State) (off : Nat) (w : WordWrite) : State :=
  if off % 16 = 0 then
    s.modPart (off / 16) (fun x =>
      let v := w.onto (place x.reg.rate.shadow 0 17 ||| place x.reg.burst.shadow 32 16)
      { x with reg := { x.reg with rate := { x.reg.rate with shadow := fld v 0 17 }, burst := { x.reg.burst with shadow := fld v 32 16 } } })
  else if off % 16 = 8 ∧ bit w.ones 0 then s.regApply (off / 16)
  else s

def State.lkWrite (s : State) (q off : Nat) (w : WordWrite) : State :=
  match off with
  | 0x18 =>
    let x := s.port q
    let v := w.onto (placeB x.en.shadow 0 ||| place x.minw.shadow 4 3)
    s.setPort q { x with en := { x.en with shadow := bit v 0 }, minw := { x.minw with shadow := fld v 4 3 } }
  | 0x20 => if bit w.ones 0 then s.lkApply q else s
  | _ => s

def State.pwWrite (s : State) (off : Nat) (w : WordWrite) : State :=
  match off with
  | 0x20 => s.modPower (fun x => { x with thresh := { x.thresh with shadow := fld (w.onto (place x.thresh.shadow 0 16)) 0 16 } })
  | 0x28 => if bit w.ones 0 then s.pwApply else s
  | _ => s

/-- A write to a PT_ block; PT_PROC.N is the physical function's alone (R501). -/
def State.ptWrite (s : State) (f p off : Nat) (w : WordWrite) : State :=
  match off with
  | 0x40 => s.modPart p (fun x => { x with dbgAddr := w.onto x.dbgAddr &&& 0x00030FFF000FFFFF })
  | 0x50 => s.modPart p (fun x => { x with dbgDenied := x.dbgDenied && !bit w.ones 0 })
  | 0x60 =>
    if f = 0 then s.modPart p (fun x =>
      { x with proctor := { x.proctor with n := { x.proctor.n with shadow := fld (w.onto (place x.proctor.n.shadow 0 13)) 0 13 } } })
    else s
  | 0x68 => if bit w.ones 0 then s.ptApply p else s
  | _ => s

/-- A write of a command slot's bytes (R413, R414). -/
def State.slotsWrite (s : State) (f off : Nat) (wide : Bool) (data : Word) : State :=
  let k := off / 256
  let b := off % 256
  if b < 8 then s.submit f k data (wide && b == 0)
  else s.slotWrite f k b (leBytes (if wide then 8 else 4) data.toNat)

/-- REGISTER_WRITE: 4 or 8 bytes, naturally aligned. -/
def State.barWrite0 (s : State) (f off : Nat) (wide : Bool) (data : Word) : State :=
  if off % (if wide then 8 else 4) ≠ 0 then s
  else
    let w := WordWrite.of off wide data
    let low (o : Nat) : Nat := o / 8 * 8
    match locate (s.owned f) f off with
    | (.slots, o) => s.slotsWrite f o wide data
    | (.cb, o) => s.cbWrite f (low o) w
    | (.mm p, o) => s.mmWrite p (low o) w
    | (.reg, o) => s.regWrite (low o) w
    | (.lk q, o) => if f = 0 then s.lkWrite q (low o) w else s
    | (.pw, o) => s.pwWrite (low o) w
    | (.pt p, o) => s.ptWrite f p (low o) w
    | (.ev, o) => s.evWrite f (low o) w
    | _ => s

end Sys2Proof.Machine
end

