-- ==== Sys2Proof/Machine/Answer.lean ====
section
/-! DEFINITION. What a command answers, and how the commands of a core and of a scratchpad by itself reach the module's state. -/

namespace Sys2Proof.Machine

/-- A command's outcome. -/
abbrev Answer := Host.Outcome State Fault Refusal

/-- An instruction issues on the tile of a duty (R45, R53, R58). -/
def State.issue (s : State) (l : Nat) (i : Instr) (op : CoreOp) : State := s.tileStep l (fun env t => op.step i env t)

/-- An instruction that may start or stop the walker issues; the walker then goes on at once where it can (R242). -/
def State.issueWalk (s : State) (l : Nat) (i : Instr) (op : CoreOp) : State :=
  s.tileStep l (fun env t => (op.step i env t).andThen (fun t1 => t1.walkReach env))

/-- FREEZE: a site whose islands get pulses and which has a write-back waiting (R97); the record of its freezes advances (R502). -/
def State.freezeSite (s : State) (x : Nat) : State :=
  let t := s.siteTile x
  if t.pad.wb.isEmpty || t.pad.wiping || !s.clocked x then s
  else (s.setSiteTile x t.freeze).modGrade 1 x (fun g => { g with tally := g.tally + 1 })

/-- SCRUB_READ: the tile of a duty reports to its partition; a site of no partition is recorded only (R100, R101). -/
def State.scrubSite (s : State) (x : Nat) : State :=
  if (s.siteTile x).pad.wiping || !s.clocked x then s
  else
    match (s.seatedAt x).bind (fun l => (s.partOf l).map (fun p => (p, l))) with
    | some (p, l) => s.runTile p l (fun _ t => t.scrub)
    | none =>
      let r := (s.siteTile x).scrub
      (r.acts.foldl (fun s a =>
        match a with
        | .classD (some b) addr => s.classD none 2 (16 * x + b) addr
        | _ => s) (s.setSiteTile x r.t)).gradeWords x

end Sys2Proof.Machine
end

