-- ==== Sys2Proof/Machine/ExecBell.lean ====
section
/-! DEFINITION. The meanings of bells, releases, flows. -/

namespace Sys2Proof.Machine

/-- BELL_ARRIVAL (R205): A tile's arrival leaves the tile once its earlier in-package writes have been written. -/
def execBellArrival (p : PartIx) (k : Nat) (s : State) : Answer := .next (s.bellArrival p.val k)

/-- BELL_RELEASE (R217): The bell unit releases an epoch when every participant has arrived, with status by bell. -/
def execBellRelease (p : PartIx) (b : BellIx) (s : State) : Answer := .next (s.bellRelease p.val b.val)

/-- RELEASE_APPLY (R218): A release reaches a tile, which updates its bell state, captures mx.sig, closes windows, applies RWA fields,
advances the step and informs the walker. -/
def execReleaseApply (l : LTile) (b : BellIx) (s : State) : Answer := .next (s.releaseApply l.val b.val)

/-- WALKER_FIRING_END (R242): A firing's last descriptor is accepted; the walker signals its token and takes latched releases or moves on. -/
def execWalkerFiringEnd (l : LTile) (s : State) : Answer := .next (s.walkerFiringEnd l.val)

/-- LATE_THRESHOLD_UPDATE (R229): After each bell-63 release, firmware on the root computes the median interval and writes the lateness threshold. -/
def execLateThresholdUpdate (p : PartIx) (s : State) : Answer := .next (s.lateThreshold p.val)

/-- LATENESS_FOLD (R228): Once per second firmware adds the lateness bins into the gradebook and subtracts them. -/
def execLatenessFold (p : PartIx) (s : State) : Answer := .next (s.latenessFold p.val)

/-- BELL_ARRIVAL_NOTICE (R220): A child's arrival notice reaches a node and counts as one participant's arrival. -/
def execBellArrivalNotice (k : Nat) (s : State) : Answer := .next (s.arrivalNotice k)

/-- BELL_RELEASE_NOTICE (R220): A parent's release notice reaches a node, which releases locally and forwards to its children. -/
def execBellReleaseNotice (k : Nat) (s : State) : Answer := .next (s.releaseNotice k)

/-- BELL_TIMEOUT (R224): A bell's timer reaches its limit at a local bell or a root and releases the epoch with TIMEOUT or REPEAT. -/
def execBellTimeout (p : PartIx) (b : BellIx) (s : State) : Answer := .next (s.bellTimeout p.val b.val)

/-- BELL_LOST (R225): A non-root node's timer reaches twice the limit and releases the epoch locally with LOST. -/
def execBellLost (p : PartIx) (b : BellIx) (s : State) : Answer := .next (s.bellLost p.val b.val)

/-- RECESS_HOLD_EXPIRE (R237): A recess hold other than for pre-emption ends after 10 ms; the release is delivered and RECESS_ABANDONED logged. -/
def execRecessHoldExpire (p : PartIx) (b : BellIx) (s : State) : Answer := .next (s.recessExpire p.val b.val)

/-- COUNT_UPDATE (R233): A flow count update reaches the home router and adds to the flow's byte count, delivering held announces that are now met. -/
def execCountUpdate (k : Nat) (s : State) : Answer := .next (s.countUpdate k)

/-- ANNOUNCE_RECEIVE (R234): An announce reaches the flow's home router and is held or delivered. -/
def execAnnounceReceive (k : Nat) (s : State) : Answer := .next (s.announceReceive k)

/-- ANNOUNCE_EXPIRED (R236): An announce held longer than HOLD is discarded, the byte count cleared and the expiry logged. -/
def execAnnounceExpired (p : PartIx) (flow : BitVec 8) (s : State) : Answer := .next (s.announceExpired p.val flow.toNat)

end Sys2Proof.Machine
end

