-- ==== Sys2Proof/Machine/ExecBoard.lean ====
section
/-! DEFINITION. The meanings of the command board: a host write of 4 or 8 bytes to BAR0, slots, replies, events, interrupts. -/

namespace Sys2Proof.Machine

/-- REGISTER_WRITE (R9): A write to a register or field without a row of its own, following its access code. -/
def execRegisterWrite (f : FnIx) (off : BitVec 26) (wide : Bool) (data : Word) (s : State) : Answer := .next (s.barWrite0 f.val off.toNat wide data)

/-- COMMAND_SUBMIT (R413): An aligned 8-byte header write to an empty slot submits the command, or is refused under R414. -/
def execCommandSubmit (f : FnIx) (slot : SlotIx) (header : Word) (whole : Bool) (s : State) : Answer := .next (s.submit f.val slot.val header whole)

/-- CMD_TIMEOUT (R418): A command not taken within 1 s gets a TIMEOUT reply from the command board. -/
def execCmdTimeout (f : FnIx) (slot : SlotIx) (s : State) : Answer := .next (s.cmdTimeout f.val slot.val)

/-- CMD_DEFERRED (R418): A command taken but not finished within 1 s gets OK with DEFERRED and its slot empties. -/
def execCmdDeferred (f : FnIx) (slot : SlotIx) (s : State) : Answer := .next (s.cmdDefer f.val slot.val)

/-- CMD_DONE (R418): A deferred command finishes and posts CMD_DONE with its final status. -/
def execCmdDone (f : FnIx) (s : State) : Answer := .next (s.cmdDone f.val)

/-- REPLY_WRITE (R419): A waiting reply is written to the reply ring once an entry is free, and vector 0 is raised. -/
def execReplyWrite (f : FnIx) (s : State) : Answer := .next (s.replyWrite f.val)

/-- EVENT_RING_WRITE (R431): Held events are written once the event ring has a free entry, followed by EV_LOST when any were discarded. -/
def execEventRingWrite (f : FnIx) (s : State) : Answer := .next (s.eventRingWrite f.val)

/-- INTERRUPT_MODERATION_EXPIRE (R432): CB_IMOD's DELAY runs out after the first gathered write and the vector is raised. -/
def execInterruptModerationExpire (f : FnIx) (v : Fin 2) (s : State) : Answer := .next (s.moderation f.val v.val)

/-- CB_APPLY (R422): A write of 1 to CB_APPLY puts the reply-ring fields into force and resets head, tail and phase. -/
def execCbApply (f : FnIx) (s : State) : Answer := .next (s.cbApply f.val)

/-- EV_APPLY (R430): A write of 1 to EV_APPLY puts the event-ring fields into force and resets head and tail. -/
def execEvApply (f : FnIx) (s : State) : Answer := .next (s.evApply f.val)

/-- FUNCTION_LEVEL_RESET (R404): A Function Level Reset returns the function's host-interface registers to reset and discards its due
replies and events. -/
def execFunctionLevelReset (f : FnIx) (s : State) : Answer := .next (s.flr f.val)

/-- HOT_RESET (R404): A hot reset or host-caused link-down resets every function's host interface as an FLR does. -/
def execHotReset (s : State) : Answer := .next (s.hotReset)

/-- COMPLETION_TIMEOUT (R405): A host read request of the module gets no completion within the timeout and its command ends with FAULT. -/
def execCompletionTimeout (f : FnIx) (slot : SlotIx) (moved : Nat) (poisoned : Bool) (s : State) : Answer :=
  .next (s.completionTimeout f.val slot.val moved poisoned)

/-- SLOT_PARAMETER_WRITE (R414): A host write to the TAG or parameter bytes of a command slot is stored, or, when the slot is full,
discarded with CB_REFUSED and CB_ERR.OVERRUN. -/
def execSlotParameterWrite (f : FnIx) (slot : SlotIx) (off : BitVec 8) (bytes : List Byte) (s : State) : Answer :=
  .next (if off.toNat < 8 then s else s.slotWrite f.val slot.val off.toNat bytes)

end Sys2Proof.Machine
end

