-- ==== Sys2Proof/Machine/ExecChan.lean ====
section
/-! DEFINITION. The meanings of what reaches a channel endpoint. -/

namespace Sys2Proof.Machine

/-- OPEN_REQUEST (R288): An open request reaches the receiving endpoint and is accepted, held or refused. -/
def execOpenRequest (k : Nat) (s : State) : Answer := .next (s.openRequest k)

/-- OPEN_REPLY (R288): An open reply reaches the sending endpoint, which becomes OPEN or IDLE with the status. -/
def execOpenReply (k : Nat) (s : State) : Answer := .next (s.openReply k)

/-- OPEN_REQUEST_TIMEOUT (R288): An open request held for 10 ms is answered with TIMEOUT. -/
def execOpenRequestTimeout (l : LTile) (ep : EpIx) (s : State) : Answer := .next (s.openTimeout l.val ep.val)

/-- HALL_PASS_RETURN (R296): A hall-pass return reaches a send endpoint and adds its units to CREDITS. -/
def execHallPassReturn (k : Nat) (s : State) : Answer := .next (s.hallPass k)

/-- MESSAGE_FLIT (R298): A channel data flit reaches the receive endpoint and is written into its record or discarded by SEQ. -/
def execMessageFlit (k : Nat) (s : State) : Answer := .next (s.messageFlit k)

/-- PARTIAL_MESSAGE_TIMEOUT (R297): A message in reassembly reaches PTMO and is written as TRUNC, with a truncation notice to the sender. -/
def execPartialMessageTimeout (l : LTile) (ep : EpIx) (s : State) : Answer := .next (s.partialTimeout l.val ep.val)

/-- TRUNCATION_NOTICE (R297): A truncation notice reaches the sender and sets PEND to TIMEOUT. -/
def execTruncationNotice (k : Nat) (s : State) : Answer := .next (s.truncNotice k)

/-- CHANNEL_CLOSE_MARKER (R299): A close marker reaches the receive endpoint, which enters DRAINING or CLOSED. -/
def execChannelCloseMarker (k : Nat) (s : State) : Answer := .next (s.closeMarker k)

/-- CLOSE_NOTICE (R300): A close notice reaches a send endpoint, which enters CLOSED with zero credits. -/
def execCloseNotice (k : Nat) (s : State) : Answer := .next (s.closeNotice k)

end Sys2Proof.Machine
end

