-- ==== Sys2Proof/Machine/ExecCmd.lean ====
section
/-! DEFINITION. The meanings of commands of a function by their slot. -/

namespace Sys2Proof.Machine

/-- NEGOTIATE (R423): Command: negotiate the function's Uavon version. -/
def execNegotiate (f : FnIx) (slot : SlotIx) (s : State) : Answer := .next (s.cmdNegotiate f.val slot.val)

/-- QUERY_PARTITION (R429): Command QUERY WHAT 1: write the partition record to host memory. -/
def execQueryPartition (f : FnIx) (slot : SlotIx) (s : State) : Answer := .next (s.queryPartition f.val slot.val)

/-- QUERY_BELL_LATENESS (R429): Command QUERY WHAT 2: write a bell's lateness histograms to host memory. -/
def execQueryBellLateness (f : FnIx) (slot : SlotIx) (s : State) : Answer := .next (s.queryLateness f.val slot.val)

/-- QUERY_PARTITION_COUNTS (R429): Command QUERY WHAT 3: write the partition's counts to host memory. -/
def execQueryPartitionCounts (f : FnIx) (slot : SlotIx) (s : State) : Answer := .next (s.queryCounts f.val slot.val)

/-- DMA_HOST_TO_DVA (R427): Command DMA_HOST with DIR 0: move bytes from host memory into the partition's DVA space. -/
def execDmaHostToDva (f : FnIx) (slot : SlotIx) (s : State) : Answer := .next (s.dmaHost f.val slot.val false)

/-- DMA_HOST_FROM_DVA (R427): Command DMA_HOST with DIR 1: move bytes from the partition's DVA space to host memory. -/
def execDmaHostFromDva (f : FnIx) (slot : SlotIx) (s : State) : Answer := .next (s.dmaHost f.val slot.val true)

/-- POWER_CAP_SET (R467): Command: request a host power cap, in force after countersigning. -/
def execPowerCapSet (f : FnIx) (slot : SlotIx) (second : Option Nat) (s : State) : Answer := .next (s.powerCapSet f.val slot.val second)

/-- POWER_QUERY (R426): Command: return the caps, input power and energy. -/
def execPowerQuery (f : FnIx) (slot : SlotIx) (s : State) : Answer := .next (s.powerQuery f.val slot.val)

/-- LOG_READ (R493): Command: read records from a partition's fault log. -/
def execLogRead (f : FnIx) (slot : SlotIx) (s : State) : Answer := .next (s.logRead f.val slot.val)

/-- LOG_READ_MODULE (R493): Command LOG_READ with MODULE set: read records of the module log. -/
def execLogReadModule (f : FnIx) (slot : SlotIx) (s : State) : Answer := .next (s.logReadModule f.val slot.val)

/-- GRADEBOOK_READ (R503): Command: read gradebook records of a class. -/
def execGradebookRead (f : FnIx) (slot : SlotIx) (s : State) : Answer := .next (s.gradeRead f.val slot.val)

/-- LINK_WIDEN (R368): Command LINK_CTRL ACTION 1: widen a port over released lanes by a RETRAIN. -/
def execLinkWiden (f : FnIx) (slot : SlotIx) (s : State) : Answer := .next (s.linkWiden f.val slot.val)

/-- LINK_RETRAIN (R426): Command LINK_CTRL ACTION 2: retrain a port. -/
def execLinkRetrain (f : FnIx) (slot : SlotIx) (s : State) : Answer := .next (s.linkRetrain f.val slot.val)

/-- LINK_RETIRE_LANE (R426): Command LINK_CTRL ACTION 3: retire a named lane. -/
def execLinkRetireLane (f : FnIx) (slot : SlotIx) (s : State) : Answer := .next (s.linkRetire f.val slot.val)

/-- LINK_TEST (R372): Command: run a PRBS or loopback test on a port's lanes and write the counts. -/
def execLinkTest (f : FnIx) (slot : SlotIx) (reports : List LaneReport) (s : State) : Answer := .next (s.linkTest f.val slot.val reports)

/-- TEST_SCHEDULE (R460): Command: schedule a test of a tile, site or pseudo-channel now or at the next recess. -/
def execTestSchedule (f : FnIx) (slot : SlotIx) (s : State) : Answer := .next (s.testSchedule f.val slot.val)

end Sys2Proof.Machine
end

