-- ==== Sys2Proof/Machine/ExecCsr.lean ====
section
/-! DEFINITION. The meanings of writes of tile control registers that have a row of their own. -/

namespace Sys2Proof.Machine

/-- SP_HANDLE_WRITE (R81): A CSR.W to sp.hn replaces the handle entry after the checks of R81, or forces VALID to 0, or is refused. -/
def execSpHandleWrite (l : LTile) (h : BitVec 6) (gs : Reg) (s : State) : Answer := .next (s.issue l.val (.spHandleWrite l h gs) (opHandleWrite h gs))

/-- COUNTER_SET (R93): A CSR.W to sp.ctrn sets an arrival counter, combined with the arrivals of that tc. -/
def execCounterSet (l : LTile) (c : BitVec 4) (gs : Reg) (s : State) : Answer := .next (s.issue l.val (.counterSet l c gs) (opCounterSet c gs))

/-- COUNTER_SUBTRACT (R93): A CSR.W to sp.ctrsubn subtracts from an arrival counter, clamping at 0 and setting UNDER. -/
def execCounterSubtract (l : LTile) (c : BitVec 4) (gs : Reg) (s : State) : Answer :=
  .next (s.issue l.val (.counterSubtract l c gs) (opCounterSub c gs))

/-- SCALE_RECORD_WRITE (R155): A CSR.W to a word of the selected scale record, with W0 checked and left unchanged on BADENT. -/
def execScaleRecordWrite (l : LTile) (w : BitVec 3) (gs : Reg) (s : State) : Answer :=
  .next (s.issue l.val (.scaleRecordWrite l w gs) (opRecordWrite w gs))

/-- WALKER_START (R242): A write of 1 to bl.ttctl.RUN clears STOPCAUSE and starts the walker at bl.ttpos. -/
def execWalkerStart (l : LTile) (gs : Reg) (s : State) : Answer := .next (s.issueWalk l.val (.walkerStart l gs) (opWalkerStart gs))

/-- WALKER_STOP (R242): A write of 0 to bl.ttctl.RUN stops the walker with HALTED, at once or at the end of the firing. -/
def execWalkerStop (l : LTile) (gs : Reg) (s : State) : Answer := .next (s.issueWalk l.val (.walkerStop l gs) (opWalkerStop gs))

/-- CBSUB_WRITE (R280): A CSR.W to xc.cbsubn replaces a chalkboard subscription for later deliveries. -/
def execCbsubWrite (l : LTile) (n : BitVec 4) (gs : Reg) (s : State) : Answer := .next (s.issue l.val (.cbsubWrite l n gs) (opCbsub n gs))

end Sys2Proof.Machine
end

