-- ==== Sys2Proof/Machine/ExecDma.lean ====
section
/-! DEFINITION. The meanings of DMA streams of a tile, and their translation faults. -/

namespace Sys2Proof.Machine

/-- TO_HBM (R320): DMA operation moving rows from the scratchpad to HBM. -/
def execToHbm (l : LTile) (k : StreamIx) (s : State) : Answer := .next (s.dmaRun l.val k.val 1)

/-- FROM_HBM (R320): DMA operation moving rows from HBM to the scratchpad. -/
def execFromHbm (l : LTile) (k : StreamIx) (s : State) : Answer := .next (s.dmaRun l.val k.val 2)

/-- HBM_COPY (R320): DMA operation copying LEN bytes within HBM. -/
def execHbmCopy (l : LTile) (k : StreamIx) (s : State) : Answer := .next (s.dmaRun l.val k.val 3)

/-- GATHER (R330): DMA row-lookup reading indexed table rows into the scratchpad. -/
def execGather (l : LTile) (k : StreamIx) (s : State) : Answer := .next (s.dmaRun l.val k.val 4)

/-- SCATTER (R330): DMA row-lookup writing scratchpad rows to indexed table rows. -/
def execScatter (l : LTile) (k : StreamIx) (s : State) : Answer := .next (s.dmaRun l.val k.val 5)

/-- CK_SAVE (R342): DMA operation copying HBM bytes into the partition's locker slot. -/
def execCkSave (l : LTile) (k : StreamIx) (s : State) : Answer := .next (s.dmaRun l.val k.val 6)

/-- CK_LOAD (R342): DMA operation copying locker-slot bytes into HBM. -/
def execCkLoad (l : LTile) (k : StreamIx) (s : State) : Answer := .next (s.dmaRun l.val k.val 7)

/-- DMA_COMPLETE (R322): A DMA descriptor completes, writes its status to xc.dman.LAST and advances its counter. -/
def execDmaComplete (l : LTile) (k : StreamIx) (s : State) : Answer := .next (s.dmaComplete l.val k.val)

/-- TRANSLATION_FAULT_TIMEOUT (R326): A faulted stream unanswered for FTMO ms is aborted with FAULT and TIMEDOUT is set. -/
def execTranslationFaultTimeout (l : LTile) (k : StreamIx) (s : State) : Answer := .next (s.faultTimeout l.val k.val)

end Sys2Proof.Machine
end

