-- ==== Sys2Proof/Machine/ExecFault.lean ====
section
/-! DEFINITION. The meanings of faults, the proctor, the gradebook, control cores, tests. -/

namespace Sys2Proof.Machine

/-- CLASS_D_RESET (R491): After countersigning, a class D error resets its partition, ends the job with FAULT and posts PART_CONTAINED. -/
def execClassDReset (p second third : PartIx) (s : State) : Answer := .next (s.classDReset p.val second.val third.val)

/-- PROCTOR_COMPARE (R499): The shadow reaches the original's instruction count and its signature is compared: MATCH, VOID or MISMATCH. -/
def execProctorCompare (id : Nat) (sig : Word) (void : Bool) (s : State) : Answer := .next (s.proctorCompare id sig void)

/-- PROCTOR_VERDICT (R499): The judge finishes, the verdict is recorded in the gradebook and PROCTOR_VERDICT is posted. -/
def execProctorVerdict (id : Nat) (sig : Word) (void : Bool) (s : State) : Answer := .next (s.proctorVerdict id sig void)

/-- GRADEBOOK_FLUSH (R502): Every 60 s firmware writes gathered gradebook updates to service flash. -/
def execGradebookFlush (s : State) : Answer := .next (s.gradeFlush)

/-- CORE_WATCHDOG (R507): A control core's 100 ms watchdog expires and the core restarts under its covering core. -/
def execCoreWatchdog (c : CoreIx) (s : State) : Answer := .next (s.coreWatchdog c.val)

/-- CORE_MEMORY_ERROR (R507): A control core meets an uncorrectable memory error and restarts under its covering core. -/
def execCoreMemoryError (c : CoreIx) (s : State) : Answer := .next (s.coreMemory c.val)

/-- CORE_RESTART_COMPLETE (R507): A restarted control core takes its duties back from the covering core. -/
def execCoreRestartComplete (c : CoreIx) (s : State) : Answer := .next (s.coreBack c.val)

/-- TILE_TEST_DUE (R458): A tile's 720 h test interval expires and it is tested now or at the next recess. -/
def execTileTestDue (l : LTile) (s : State) : Answer := .next (s.testDue l.val)

/-- TEST_DONE (R458): A tile or unit test finishes, posts TEST_DONE, and returns, keeps or releases the unit. -/
def execTestDone (kind unit : Nat) (failed : Bool) (s : State) : Answer := .next (s.testDone kind unit failed)

/-- TEST_OVERDUE (R459): A test waiting 168 h posts TEST_OVERDUE, and from 336 h the tile is proctored every step. -/
def execTestOverdue (l : LTile) (s : State) : Answer := .next (s.testOverdue l.val)

end Sys2Proof.Machine
end

