-- ==== Sys2Proof/Machine/ExecFlow.lean ====
section
/-! DEFINITION. The meanings of branches and jumps. -/

namespace Sys2Proof.Machine

/-- BEQ (R43): Branch when equal. -/
def execBeq (l : LTile) (gs1 gs2 : Reg) (off : BitVec 14) (s : State) : Answer := .next (s.issue l.val (.beq l gs1 gs2 off) (opBeq gs1 gs2 off))

/-- BNE (R43): Branch when not equal. -/
def execBne (l : LTile) (gs1 gs2 : Reg) (off : BitVec 14) (s : State) : Answer := .next (s.issue l.val (.bne l gs1 gs2 off) (opBne gs1 gs2 off))

/-- BLT (R43): Branch when signed less than. -/
def execBlt (l : LTile) (gs1 gs2 : Reg) (off : BitVec 14) (s : State) : Answer := .next (s.issue l.val (.blt l gs1 gs2 off) (opBlt gs1 gs2 off))

/-- BGE (R43): Branch when signed greater or equal. -/
def execBge (l : LTile) (gs1 gs2 : Reg) (off : BitVec 14) (s : State) : Answer := .next (s.issue l.val (.bge l gs1 gs2 off) (opBge gs1 gs2 off))

/-- BLTU (R43): Branch when unsigned less than. -/
def execBltu (l : LTile) (gs1 gs2 : Reg) (off : BitVec 14) (s : State) : Answer := .next (s.issue l.val (.bltu l gs1 gs2 off) (opBltu gs1 gs2 off))

/-- BGEU (R43): Branch when unsigned greater or equal. -/
def execBgeu (l : LTile) (gs1 gs2 : Reg) (off : BitVec 14) (s : State) : Answer := .next (s.issue l.val (.bgeu l gs1 gs2 off) (opBgeu gs1 gs2 off))

/-- JAL (R43): Jump and link relative to the PC. -/
def execJal (l : LTile) (gd : Reg) (off : BitVec 19) (s : State) : Answer := .next (s.issue l.val (.jal l gd off) (opJal gd off))

/-- JALR (R43): Jump and link to a register plus an offset. -/
def execJalr (l : LTile) (gd gs1 : Reg) (imm : BitVec 14) (s : State) : Answer := .next (s.issue l.val (.jalr l gd gs1 imm) (opJalr gd gs1 imm))

end Sys2Proof.Machine
end

