-- ==== Sys2Proof/Machine/ExecInt.lean ====
section
/-! DEFINITION. The meanings of integer instructions, formats A, I and U (Table 2.3). -/

namespace Sys2Proof.Machine

/-- ADD (R43): Core instruction: gd gets gs1 plus gs2 modulo 2^64. -/
def execAdd (l : LTile) (gd gs1 gs2 : Reg) (s : State) : Answer := .next (s.issue l.val (.add l gd gs1 gs2) (opAdd gd gs1 gs2))

/-- SUB (R43): Core instruction: gd gets gs1 minus gs2 modulo 2^64. -/
def execSub (l : LTile) (gd gs1 gs2 : Reg) (s : State) : Answer := .next (s.issue l.val (.sub l gd gs1 gs2) (opSub gd gs1 gs2))

/-- AND (R43): Core instruction: bitwise AND of two registers. -/
def execAnd (l : LTile) (gd gs1 gs2 : Reg) (s : State) : Answer := .next (s.issue l.val (.and l gd gs1 gs2) (opAnd gd gs1 gs2))

/-- OR (R43): Core instruction: bitwise OR of two registers. -/
def execOr (l : LTile) (gd gs1 gs2 : Reg) (s : State) : Answer := .next (s.issue l.val (.or l gd gs1 gs2) (opOr gd gs1 gs2))

/-- XOR (R43): Core instruction: bitwise XOR of two registers. -/
def execXor (l : LTile) (gd gs1 gs2 : Reg) (s : State) : Answer := .next (s.issue l.val (.xor l gd gs1 gs2) (opXor gd gs1 gs2))

/-- SHL (R43): Core instruction: shift left by gs2[5:0]. -/
def execShl (l : LTile) (gd gs1 gs2 : Reg) (s : State) : Answer := .next (s.issue l.val (.shl l gd gs1 gs2) (opShl gd gs1 gs2))

/-- SHR (R43): Core instruction: logical shift right by gs2[5:0]. -/
def execShr (l : LTile) (gd gs1 gs2 : Reg) (s : State) : Answer := .next (s.issue l.val (.shr l gd gs1 gs2) (opShr gd gs1 gs2))

/-- SRA (R43): Core instruction: arithmetic shift right by gs2[5:0]. -/
def execSra (l : LTile) (gd gs1 gs2 : Reg) (s : State) : Answer := .next (s.issue l.val (.sra l gd gs1 gs2) (opSra gd gs1 gs2))

/-- SLT (R43): Core instruction: signed set-less-than. -/
def execSlt (l : LTile) (gd gs1 gs2 : Reg) (s : State) : Answer := .next (s.issue l.val (.slt l gd gs1 gs2) (opSlt gd gs1 gs2))

/-- SLTU (R43): Core instruction: unsigned set-less-than. -/
def execSltu (l : LTile) (gd gs1 gs2 : Reg) (s : State) : Answer := .next (s.issue l.val (.sltu l gd gs1 gs2) (opSltu gd gs1 gs2))

/-- MIN (R43): Core instruction: signed minimum. -/
def execMin (l : LTile) (gd gs1 gs2 : Reg) (s : State) : Answer := .next (s.issue l.val (.min l gd gs1 gs2) (opMin gd gs1 gs2))

/-- MAX (R43): Core instruction: signed maximum. -/
def execMax (l : LTile) (gd gs1 gs2 : Reg) (s : State) : Answer := .next (s.issue l.val (.max l gd gs1 gs2) (opMax gd gs1 gs2))

/-- MINU (R43): Core instruction: unsigned minimum. -/
def execMinu (l : LTile) (gd gs1 gs2 : Reg) (s : State) : Answer := .next (s.issue l.val (.minu l gd gs1 gs2) (opMinu gd gs1 gs2))

/-- MAXU (R43): Core instruction: unsigned maximum. -/
def execMaxu (l : LTile) (gd gs1 gs2 : Reg) (s : State) : Answer := .next (s.issue l.val (.maxu l gd gs1 gs2) (opMaxu gd gs1 gs2))

/-- MUL (R43): Core instruction: low 64 bits of the product, latency 3 tc. -/
def execMul (l : LTile) (gd gs1 gs2 : Reg) (s : State) : Answer := .next (s.issue l.val (.mul l gd gs1 gs2) (opMul gd gs1 gs2))

/-- MULH (R43): Core instruction: high 64 bits of the signed 128-bit product. -/
def execMulh (l : LTile) (gd gs1 gs2 : Reg) (s : State) : Answer := .next (s.issue l.val (.mulh l gd gs1 gs2) (opMulh gd gs1 gs2))

/-- MULHU (R43): Core instruction: high 64 bits of the unsigned 128-bit product. -/
def execMulhu (l : LTile) (gd gs1 gs2 : Reg) (s : State) : Answer := .next (s.issue l.val (.mulhu l gd gs1 gs2) (opMulhu gd gs1 gs2))

/-- DIV (R44): Core instruction: signed quotient in 34 tc, with fixed results for divide by zero and overflow. -/
def execDiv (l : LTile) (gd gs1 gs2 : Reg) (s : State) : Answer := .next (s.issue l.val (.div l gd gs1 gs2) (opDiv gd gs1 gs2))

/-- DIVU (R44): Core instruction: unsigned quotient in 34 tc; all ones on divide by zero. -/
def execDivu (l : LTile) (gd gs1 gs2 : Reg) (s : State) : Answer := .next (s.issue l.val (.divu l gd gs1 gs2) (opDivu gd gs1 gs2))

/-- REM (R44): Core instruction: signed remainder in 34 tc. -/
def execRem (l : LTile) (gd gs1 gs2 : Reg) (s : State) : Answer := .next (s.issue l.val (.rem l gd gs1 gs2) (opRem gd gs1 gs2))

/-- REMU (R44): Core instruction: unsigned remainder in 34 tc. -/
def execRemu (l : LTile) (gd gs1 gs2 : Reg) (s : State) : Answer := .next (s.issue l.val (.remu l gd gs1 gs2) (opRemu gd gs1 gs2))

/-- CLZ (R43): Core instruction: leading-zero count of gs1. -/
def execClz (l : LTile) (gd gs1 gs2 : Reg) (s : State) : Answer := .next (s.issue l.val (.clz l gd gs1 gs2) (opClz gd gs1 gs2))

/-- POPC (R43): Core instruction: population count of gs1. -/
def execPopc (l : LTile) (gd gs1 gs2 : Reg) (s : State) : Answer := .next (s.issue l.val (.popc l gd gs1 gs2) (opPopc gd gs1 gs2))

/-- ADDI (R43): Core instruction: add a sign-extended imm14; NOP is ADDI g0, g0, 0. -/
def execAddi (l : LTile) (gd gs1 : Reg) (imm : BitVec 14) (s : State) : Answer := .next (s.issue l.val (.addi l gd gs1 imm) (opAddi gd gs1 imm))

/-- ANDI (R43): Core instruction: AND with a zero-extended imm14. -/
def execAndi (l : LTile) (gd gs1 : Reg) (imm : BitVec 14) (s : State) : Answer := .next (s.issue l.val (.andi l gd gs1 imm) (opAndi gd gs1 imm))

/-- ORI (R43): Core instruction: OR with a zero-extended imm14. -/
def execOri (l : LTile) (gd gs1 : Reg) (imm : BitVec 14) (s : State) : Answer := .next (s.issue l.val (.ori l gd gs1 imm) (opOri gd gs1 imm))

/-- XORI (R43): Core instruction: XOR with a zero-extended imm14. -/
def execXori (l : LTile) (gd gs1 : Reg) (imm : BitVec 14) (s : State) : Answer := .next (s.issue l.val (.xori l gd gs1 imm) (opXori gd gs1 imm))

/-- SHLI (R43): Core instruction: shift left by imm14[5:0]. -/
def execShli (l : LTile) (gd gs1 : Reg) (imm : BitVec 14) (s : State) : Answer := .next (s.issue l.val (.shli l gd gs1 imm) (opShli gd gs1 imm))

/-- SHRI (R43): Core instruction: logical shift right by imm14[5:0]. -/
def execShri (l : LTile) (gd gs1 : Reg) (imm : BitVec 14) (s : State) : Answer := .next (s.issue l.val (.shri l gd gs1 imm) (opShri gd gs1 imm))

/-- SRAI (R43): Core instruction: arithmetic shift right by imm14[5:0]. -/
def execSrai (l : LTile) (gd gs1 : Reg) (imm : BitVec 14) (s : State) : Answer := .next (s.issue l.val (.srai l gd gs1 imm) (opSrai gd gs1 imm))

/-- SLTI (R43): Core instruction: signed compare with imm14. -/
def execSlti (l : LTile) (gd gs1 : Reg) (imm : BitVec 14) (s : State) : Answer := .next (s.issue l.val (.slti l gd gs1 imm) (opSlti gd gs1 imm))

/-- SLTIU (R43): Core instruction: unsigned compare with imm14. -/
def execSltiu (l : LTile) (gd gs1 : Reg) (imm : BitVec 14) (s : State) : Answer := .next (s.issue l.val (.sltiu l gd gs1 imm) (opSltiu gd gs1 imm))

/-- LIU (R43): Core instruction: gd gets the sign-extended imm19 shifted left by 14. -/
def execLiu (l : LTile) (gd : Reg) (imm : BitVec 19) (s : State) : Answer := .next (s.issue l.val (.liu l gd imm) (opLiu gd imm))

end Sys2Proof.Machine
end

