-- ==== Sys2Proof/Machine/ExecIssue.lean ====
section
/-! DEFINITION. The meanings of engine issue, format E (R39, R51). -/

namespace Sys2Proof.Machine

/-- ENGINE_ISSUE (R51): The core places an MX, VX or XC instruction with its operand values into a free entry of the engine queue. -/
def execEngineIssue (l : LTile) (op : BitVec 8) (ga gb gc : Reg) (we : Bool) (wtok : BitVec 3) (se : Bool) (stok : BitVec 3) (r0 : Bool) (s : State) : Answer :=
  .next (s.issue l.val (.engineIssue l op ga gb gc we wtok se stok r0) (opEngine (.engineIssue l op ga gb gc we wtok se stok r0) op ga gb gc we wtok se stok r0))

/-- QUEUE_WAIT_END (R51): A core waiting on a full engine queue issues once an entry frees. -/
def execQueueWaitEnd (l : LTile) (n : Nat) (s : State) : Answer := .next (s.tileStep l.val (fun env t => t.queueWaitEnd env n))

/-- RESULT_WAIT_END (R53): An instruction held on a pending register proceeds once the engine writes it. -/
def execResultWaitEnd (l : LTile) (n : Nat) (s : State) : Answer := .next (s.tileStep l.val (fun env t => t.resultWaitEnd env n))

end Sys2Proof.Machine
end

