-- ==== Sys2Proof/Machine/ExecLink.lean ====
section
/-! DEFINITION. The meanings of Ranov ports. -/

namespace Sys2Proof.Machine

/-- PORT_DETECT_PULSE (R350): Every 100 ms a port in DETECT or DOWN sends a detect pulse on each lane. -/
def execPortDetectPulse (q : PortIx) (s : State) : Answer := .next (s.detectPulse q.val)

/-- PARTNER_DETECTED (R350): A partner answers a detecting port, which enters TRAIN. -/
def execPartnerDetected (q : PortIx) (s : State) : Answer := .next (s.partnerFound q.val)

/-- TRAIN_COMPLETE (R351): Training admits lanes and the port enters NEGOTIATE at a width every version accepts. -/
def execTrainComplete (q : PortIx) (lanes : BitVec 4) (s : State) : Answer := .next (s.trained q.val lanes.toNat)

/-- TRAIN_TIMEOUT (R350): TRAIN exceeds 300 ms and the port returns to DETECT. -/
def execTrainTimeout (q : PortIx) (s : State) : Answer := .next (s.trainTimeout q.val)

/-- CAPABILITY_RECORD (R353): A partner's capability record completes negotiation, picking version and width, or ends it with a cause. -/
def execCapabilityRecord (q : PortIx) (s : State) : Answer := .next (s.capability q.val)

/-- NEGOTIATE_TIMEOUT (R350): NEGOTIATE exceeds 1 ms and the port returns to DETECT. -/
def execNegotiateTimeout (q : PortIx) (s : State) : Answer := .next (s.negotiateTimeout q.val)

/-- RETRAIN_COMPLETE (R367): A width change re-locks frames, the port returns to ACTIVE and resends its retry buffer. -/
def execRetrainComplete (q : PortIx) (s : State) : Answer := .next (s.retrained q.val)

/-- RETRAIN_TIMEOUT (R350): A RETRAIN exceeds 10 µs and the port enters DOWN. -/
def execRetrainTimeout (q : PortIx) (s : State) : Answer := .next (s.retrainTimeout q.val)

/-- FRAME_RECEIVE (R366): A frame is decoded and checked, its link word, credits, acks and slots processed, or discarded with NAK. -/
def execFrameReceive (q : PortIx) (frame : List Byte) (s : State) : Answer := .next (s.frameIn q.val frame)

/-- LANE_LOSS_OF_SIGNAL (R367): A lane loses signal or frame lock and is retired at once. -/
def execLaneLossOfSignal (q : PortIx) (lane : LaneIx) (s : State) : Answer := .next (s.laneLost q.val lane.val)

/-- WRITE_CONTEXT (R360): A received WRITE context is turned back into 64-byte packets for its destination, or refused. -/
def execWriteContext (q : PortIx) (s : State) : Answer := .next (s.writeCtx q.val)

/-- MSG_CONTEXT (R360): A received MSG, MSGC, PAD or CLOSE context is passed to its channel endpoint, or refused with a close notice. -/
def execMsgContext (q : PortIx) (s : State) : Answer := .next (s.msgCtx q.val)

/-- THROTTLE (R363): A THROTTLE cell reaches the module, goes to the power manager and is forwarded on the bell-63 tree. -/
def execThrottle (k : Nat) (s : State) : Answer := .next (s.throttleCell k)

/-- TIME_REQUEST_SEND (R371): Every 1 ms an ACTIVE port under 4.1 sends a TIME request with T1. -/
def execTimeRequestSend (q : PortIx) (s : State) : Answer := .next (s.timeSend q.val)

/-- TIME_REQUEST (R371): A TIME request arrives and the partner replies with T2 and TURN. -/
def execTimeRequest (k : Nat) (s : State) : Answer := .next (s.timeRequest k)

/-- TIME_REPLY (R371): A TIME reply arrives and the requester writes LK_TOFF and sets TVALID. -/
def execTimeReply (k : Nat) (s : State) : Answer := .next (s.timeReply k)

/-- LK_APPLY (R374): A write of 1 to LK_APPLY puts EN and MINW into force, disabling, starting or downing the port. -/
def execLkApply (q : PortIx) (s : State) : Answer := .next (s.lkApply q.val)

end Sys2Proof.Machine
end

