-- ==== Sys2Proof/Machine/ExecLoad.lean ====
section
/-! DEFINITION. The meanings of loads, stores and full/empty accesses, format M. -/

namespace Sys2Proof.Machine

/-- LD_B (R42): Core load of 1 byte, sign-extended, through a handle after the rights, bounds and alignment checks. -/
def execLdB (l : LTile) (gt gs : Reg) (h : BitVec 6) (imm : BitVec 8) (s : State) : Answer :=
  .next (s.issue l.val (.ldB l gt gs h imm) (opLdB gt gs h imm))

/-- LD_BU (R42): Core load of 1 byte, zero-extended, through a handle. -/
def execLdBu (l : LTile) (gt gs : Reg) (h : BitVec 6) (imm : BitVec 8) (s : State) : Answer :=
  .next (s.issue l.val (.ldBu l gt gs h imm) (opLdBu gt gs h imm))

/-- LD_H (R42): Core load of 2 bytes, sign-extended, through a handle. -/
def execLdH (l : LTile) (gt gs : Reg) (h : BitVec 6) (imm : BitVec 8) (s : State) : Answer :=
  .next (s.issue l.val (.ldH l gt gs h imm) (opLdH gt gs h imm))

/-- LD_HU (R42): Core load of 2 bytes, zero-extended, through a handle. -/
def execLdHu (l : LTile) (gt gs : Reg) (h : BitVec 6) (imm : BitVec 8) (s : State) : Answer :=
  .next (s.issue l.val (.ldHu l gt gs h imm) (opLdHu gt gs h imm))

/-- LD_W (R42): Core load of 4 bytes, sign-extended, through a handle. -/
def execLdW (l : LTile) (gt gs : Reg) (h : BitVec 6) (imm : BitVec 8) (s : State) : Answer :=
  .next (s.issue l.val (.ldW l gt gs h imm) (opLdW gt gs h imm))

/-- LD_WU (R42): Core load of 4 bytes, zero-extended, through a handle. -/
def execLdWu (l : LTile) (gt gs : Reg) (h : BitVec 6) (imm : BitVec 8) (s : State) : Answer :=
  .next (s.issue l.val (.ldWu l gt gs h imm) (opLdWu gt gs h imm))

/-- LD_D (R42): Core load of 8 bytes through a handle. -/
def execLdD (l : LTile) (gt gs : Reg) (h : BitVec 6) (imm : BitVec 8) (s : State) : Answer :=
  .next (s.issue l.val (.ldD l gt gs h imm) (opLdD gt gs h imm))

/-- ST_B (R42): Core store of the low byte of gt through a handle. -/
def execStB (l : LTile) (gt gs : Reg) (h : BitVec 6) (imm : BitVec 8) (s : State) : Answer :=
  .next (s.issue l.val (.stB l gt gs h imm) (opStB gt gs h imm))

/-- ST_H (R42): Core store of the low 2 bytes of gt through a handle. -/
def execStH (l : LTile) (gt gs : Reg) (h : BitVec 6) (imm : BitVec 8) (s : State) : Answer :=
  .next (s.issue l.val (.stH l gt gs h imm) (opStH gt gs h imm))

/-- ST_W (R42): Core store of the low 4 bytes of gt through a handle. -/
def execStW (l : LTile) (gt gs : Reg) (h : BitVec 6) (imm : BitVec 8) (s : State) : Answer :=
  .next (s.issue l.val (.stW l gt gs h imm) (opStW gt gs h imm))

/-- ST_D (R42): Core store of 8 bytes of gt through a handle. -/
def execStD (l : LTile) (gt gs : Reg) (h : BitVec 6) (imm : BitVec 8) (s : State) : Answer :=
  .next (s.issue l.val (.stD l gt gs h imm) (opStD gt gs h imm))

/-- LA (R43): Core instruction: gt gets the handle base plus the offset, after the checks of R42 with size 1. -/
def execLa (l : LTile) (gt gs : Reg) (h : BitVec 6) (imm : BitVec 8) (s : State) : Answer :=
  .next (s.issue l.val (.la l gt gs h imm) (opLa gt gs h imm))

/-- LD_FE (R85): Full/empty load: proceeds when the word is full, returns it and sets it empty, or else waits. -/
def execLdFe (l : LTile) (gt gs : Reg) (h : BitVec 6) (imm : BitVec 8) (s : State) : Answer :=
  .next (s.issue l.val (.ldFe l gt gs h imm) (opLdFe (.ldFe l gt gs h imm) gt gs h imm))

/-- ST_EF (R85): Full/empty store: proceeds when the word is empty, writes it and sets it full, or else waits. -/
def execStEf (l : LTile) (gt gs : Reg) (h : BitVec 6) (imm : BitVec 8) (s : State) : Answer :=
  .next (s.issue l.val (.stEf l gt gs h imm) (opStEf (.stEf l gt gs h imm) gt gs h imm))

/-- LD_F (R85): Full/empty load that always proceeds and leaves the bit unchanged. -/
def execLdF (l : LTile) (gt gs : Reg) (h : BitVec 6) (imm : BitVec 8) (s : State) : Answer :=
  .next (s.issue l.val (.ldF l gt gs h imm) (opLdF gt gs h imm))

/-- ST_F (R85): Full/empty store that always proceeds and sets the bit full. -/
def execStF (l : LTile) (gt gs : Reg) (h : BitVec 6) (imm : BitVec 8) (s : State) : Answer :=
  .next (s.issue l.val (.stF l gt gs h imm) (opStF gt gs h imm))

/-- FULLEMPTY_COMPLETE (R86): A waiting LD.FE or ST.EF finds its word in the required state and performs its access. -/
def execFullemptyComplete (l : LTile) (n : Nat) (s : State) : Answer := .next (s.tileStep l.val (fun _ t => t.feComplete n))

end Sys2Proof.Machine
end

