-- ==== Sys2Proof/Machine/ExecMem.lean ====
section
/-! DEFINITION. The meanings of the memory blocks, BAR2, HBM. -/

namespace Sys2Proof.Machine

/-- MM_FRESUME_RESUME (R326): A write of a fault ID with ABORT 0 makes the stream translate again and continue. -/
def execMmFresumeResume (p : PartIx) (id : BitVec 14) (s : State) : Answer := .next (s.faultResume p.val id.toNat)

/-- MM_FRESUME_ABORT (R326): A write of a fault ID with ABORT 1 completes the descriptor with FAULT. -/
def execMmFresumeAbort (p : PartIx) (id : BitVec 14) (s : State) : Answer := .next (s.faultAbort p.val id.toNat)

/-- MM_INVAL (R316): A write of 1 to MM_INVAL.GO starts invalidation of the partition's cached translations. -/
def execMmInval (p : PartIx) (s : State) : Answer := .next (s.mmInval p.val)

/-- INVALIDATION_COMPLETE (R316): Translation invalidation finishes and MM_INVAL.BUSY clears. -/
def execInvalidationComplete (p : PartIx) (s : State) : Answer := .next (s.invalDone p.val)

/-- MM_APPLY (R344): A write of 1 to MM_APPLY puts MM_PTROOT into force and invalidates cached translations. -/
def execMmApply (p : PartIx) (s : State) : Answer := .next (s.mmApply p.val)

/-- MM_CHREL (R339): A write to MM_CHREL releases a RETIRING slot for retirement. -/
def execMmChrel (p : PartIx) (slot : BitVec 8) (s : State) : Answer := .next (s.chRelease p.val slot.toNat)

/-- MM_REG_APPLY (R329): A write of 1 to MM_REGn_APPLY puts regulator RATE and BURST into force. -/
def execMmRegApply (p : PartIx) (s : State) : Answer := .next (s.regApply p.val)

/-- REGULATOR_REFILL (R328): Every 10 ns a partition's token bucket refills at RATE up to BURST. -/
def execRegulatorRefill (p : PartIx) (s : State) : Answer := .next (s.regRefill p.val)

/-- BAR2_WRITE (R317): A host write through BAR2 is translated and written, or discarded with APERR. -/
def execBar2Write (f : FnIx) (off : BitVec 36) (bytes : List Byte) (s : State) : Answer := .next (s.bar2Write f.val off.toNat bytes)

/-- BAR2_READ (R317): A host read through BAR2 is translated and answered, or returns all ones with APERR. -/
def execBar2Read (f : FnIx) (off : BitVec 36) (n : Nat) (s : State) : Answer := .next (s.bar2Read f.val off.toNat n)

/-- PATROL_SCRUB (R337): Firmware's patrol scrub reads HBM and poisons units with uncorrectable errors, posting MM_POISONED. -/
def execPatrolScrub (u : Nat) (s : State) : Answer := .next (s.patrol u)

/-- HBM_TEMP_READ (R340): Every 1 ms a controller reads its stack temperature and sets the refresh multiplier and hot limits. -/
def execHbmTempRead (h : StackIx) (t : Nat) (s : State) : Answer := .next (s.tempRead h.val t)

end Sys2Proof.Machine
end

