-- ==== Sys2Proof/Machine/ExecMesh.lean ====
section
/-! DEFINITION. The meanings of the package: packets by their place in flight, trees, chalkboard, chart. -/

namespace Sys2Proof.Machine

/-- REMOTE_WRITE_DELIVER (R91): A write packet is written at its destination tile and advances its counter, or is discarded under R84. -/
def execRemoteWriteDeliver (k : Nat) (bad : Bool) (s : State) : Answer := .next (s.writeDeliver k bad)

/-- REDUCE_MERGE (R261): A router merges the matched packets of a node and its children exactly and sends the result on. -/
def execReduceMerge (p : PartIx) (tree : BitVec 10) (node : BitVec 12) (s : State) : Answer := .next (s.reduceMerge p.val tree.toNat node.toNat)

/-- CHALKBOARD_GRANT (R266): The chalkboard root grants a pending write in rotation and issues its beats or count word. -/
def execChalkboardGrant (s : State) : Answer := .next (s.chalkGrant)

/-- CHALKBOARD_DELIVER (R265): A chalkboard write reaches a subscribing tile and is written, or discarded with xc.cbdrop. -/
def execChalkboardDeliver (l : LTile) (bad : Bool) (s : State) : Answer := .next (s.chalkDeliver l.val bad)

/-- COUNT_WORD_APPLY (R267): A tile applies a count word after every earlier data beat has been written. -/
def execCountWordApply (l : LTile) (s : State) : Answer := .next (s.countWord l.val)

/-- CHART_WORD (R272): A seating-chart entry on the chalkboard takes effect in every router. -/
def execChartWord (l : LTile) (x : SiteIx) (p : PartIx) (valid hold : Bool) (s : State) : Answer :=
  .next (s.chartWord l.val ⟨x.val, p.val, valid, hold⟩)

/-- WRITE_FAILURE_NOTICE (R306): A failure notice for a refused write reaches the writer and records the refusal. -/
def execWriteFailureNotice (k : Nat) (s : State) : Answer := .next (s.writeFailure k)

end Sys2Proof.Machine
end

