-- ==== Sys2Proof/Machine/ExecMx.lean ====
section
/-! DEFINITION. The meanings of matrix engine instructions as they start: tc lost as stalls, tc waited for bank slots. -/

namespace Sys2Proof.Machine

/-- MX_LOAD (R109): Matrix engine loads a block into a plane, copying or converting it. -/
def execMxLoad (l : LTile) (conf : Nat) (s : State) : Answer := .next (s.tileStep l.val (fun _ t => (t.mxLoad conf).andThen Tile.settle))

/-- MX_FWD (R111): Matrix engine runs ROWS row-read passes in FWD mode. -/
def execMxFwd (l : LTile) (stall conf : Nat) (s : State) : Answer :=
  .next (s.tileStep l.val (fun env t => (t.mxFwd env t.bl.step stall conf).andThen Tile.settle))

/-- MX_DGRAD (R111): Matrix engine runs ROWS column-read passes in DGRAD mode. -/
def execMxDgrad (l : LTile) (stall conf : Nat) (s : State) : Answer :=
  .next (s.tileStep l.val (fun env t => (t.mxDgrad env t.bl.step stall conf).andThen Tile.settle))

/-- MX_WGRAD (R114): Matrix engine fills the corner turn and runs ROWS columns in WGRAD mode. -/
def execMxWgrad (l : LTile) (stall conf : Nat) (s : State) : Answer :=
  .next (s.tileStep l.val (fun env t => (t.mxWgrad env t.bl.step stall conf).andThen Tile.settle))

/-- MX_STORE (R116): Matrix engine converts accumulator rows and writes them to the scratchpad. -/
def execMxStore (l : LTile) (conf : Nat) (s : State) : Answer := .next (s.tileStep l.val (fun _ t => (t.mxStore conf).andThen Tile.settle))

/-- MX_PASS (R129): Matrix engine sends accumulator rows into the chained path. -/
def execMxPass (l : LTile) (conf : Nat) (s : State) : Answer := .next (s.tileStep l.val (fun _ t => (t.mxPass conf).andThen Tile.settle))

/-- MX_ALOAD (R116): Matrix engine loads FP32 rows into accumulators and sets their counts. -/
def execMxAload (l : LTile) (conf : Nat) (s : State) : Answer := .next (s.tileStep l.val (fun _ t => (t.mxAload conf).andThen Tile.settle))

/-- MX_INSTR_COMPLETE (R123): An MX instruction reaches its completion time and signals its token when SE is 1. -/
def execMxInstrComplete (l : LTile) (s : State) : Answer := .next (s.tileStep l.val (fun _ t => t.mxComplete))

end Sys2Proof.Machine
end

