-- ==== Sys2Proof/Machine/ExecPad.lean ====
section
/-! DEFINITION. The meanings of the scratchpad by itself, at a site. -/

namespace Sys2Proof.Machine

/-- FREEZE (R97): A scratchpad error freeze withholds three tc from the island and writes back every waiting corrected word. -/
def execFreeze (x : SiteIx) (s : State) : Answer := .next (s.freezeSite x.val)

/-- SCRUB_READ (R101): The scrubber reads one scratchpad row every 256 tc in an idle engine slot. -/
def execScrubRead (x : SiteIx) (s : State) : Answer := .next (s.scrubSite x.val)

/-- WIPE_COMPLETE (R103): A tile's wipe and read-back finish; reads stop returning DENIED and failed rows go to the gradebook. -/
def execWipeComplete (x : SiteIx) (failed : BitVec 16) (s : State) : Answer := .next (s.wipeComplete x.val (bitsOf failed.toNat 16))

end Sys2Proof.Machine
end

