-- ==== Sys2Proof/Machine/ExecPart.lean ====
section
/-! DEFINITION. The meanings of partitions and jobs. -/

namespace Sys2Proof.Machine

/-- PART_CREATE (R440): Command: create a partition over a block rectangle with its slots, ports, locker slot and function. -/
def execPartCreate (f : FnIx) (slot : SlotIx) (s : State) : Answer := .next (s.partCreate f.val slot.val)

/-- PART_DESTROY (R441): Command: end any job, destroy keys and free the partition's resources. -/
def execPartDestroy (f : FnIx) (slot : SlotIx) (second : Option Nat) (s : State) : Answer := .next (s.partDestroy f.val slot.val second)

/-- PART_RESET (R448): Command: end any job and wipe the partition, keeping the retain key. -/
def execPartReset (f : FnIx) (slot : SlotIx) (second : Option Nat) (s : State) : Answer := .next (s.partReset f.val slot.val second)

/-- LOAD_IMAGE (R443): Command: check and load a job image into the partition's tiles. -/
def execLoadImage (f : FnIx) (slot : SlotIx) (s : State) : Answer := .next (s.loadImage f.val slot.val)

/-- BIND_TIMETABLE (R238): Command: check and bind a timetable image, copying tile sections to h1. -/
def execBindTimetable (f : FnIx) (slot : SlotIx) (s : State) : Answer := .next (s.bindTimetable f.val slot.val)

/-- JOB_START (R445): Command: load per-tile job values and start every tile and walker. -/
def execJobStart (f : FnIx) (slot : SlotIx) (s : State) : Answer := .next (s.jobStart f.val slot.val)

/-- JOB_KILL (R448): Command: end the job at once, drain, wipe and destroy both keys. -/
def execJobKill (f : FnIx) (slot : SlotIx) (s : State) : Answer := .next (s.jobKill f.val slot.val)

/-- PARTITION_END (R448): A job end runs the drain, wipe and key destruction of Table 14.4 and replies once it is complete. -/
def execPartitionEnd (p : PartIx) (failed : List (Nat × Nat)) (s : State) : Answer := .next (s.partitionEnd p.val failed)

/-- PREEMPT (R452): Command: arm the hold on the partition's recess bells and enter PREEMPTING. -/
def execPreempt (f : FnIx) (slot : SlotIx) (s : State) : Answer := .next (s.cmdPreempt f.val slot.val)

/-- PREEMPT_SAVE (R452): Once the recess release is held and the queues are empty, the job state is saved to the locker, the tiles wiped,
and the partition becomes PREEMPTED. -/
def execPreemptSave (p : PartIx) (s : State) : Answer := .next (s.preemptSave p.val)

/-- RESUME (R454): Command: restore the saved state to the current sites and deliver the held release. -/
def execResume (f : FnIx) (slot : SlotIx) (s : State) : Answer := .next (s.cmdResume f.val slot.val)

/-- RECESS (R457): Command: request recess actions at the next hold. -/
def execRecess (f : FnIx) (slot : SlotIx) (s : State) : Answer := .next (s.cmdRecess f.val slot.val)

/-- SUBSTITUTE_SWAP (R274): During a recess hold firmware holds a tile's packets, copies its state to a substitute, re-seats it and wipes
the old site. -/
def execSubstituteSwap (l : LTile) (s : State) : Answer := .next (s.substituteSwap l.val)

/-- DEBUG_READ (R451): A read of PT_DBGDATA returns held tile state selected by PT_DBGADDR, or all ones with DENIED. -/
def execDebugRead (f : FnIx) (p : PartIx) (s : State) : Answer := .next (s.debugRead f.val p.val)

/-- PT_APPLY (R501): A write of 1 to PT_APPLY puts the proctor's N into force at the next bell release. -/
def execPtApply (p : PartIx) (s : State) : Answer := .next (s.ptApply p.val)

/-- RECESS_WORK_DONE (R237): Firmware finishes recess work other than a substitute swap, such as a lane or pseudo-channel retirement or
port widening, and delivers the held recess release. -/
def execRecessWorkDone (p : PartIx) (b : BellIx) (s : State) : Answer := .next (s.recessWorkDone p.val b.val)

end Sys2Proof.Machine
end

