-- ==== Sys2Proof/Machine/ExecPower.lean ====
section
/-! DEFINITION. The meanings of power and heat. -/

namespace Sys2Proof.Machine

/-- PLDM_SET_POWER_CAP (R436): PLDM effecter request setting the management power cap, in force after countersigning. -/
def execPldmSetPowerCap (watts : Nat) (second : Option Nat) (s : State) : Answer := .next (s.pldmCap watts second)

/-- PLDM_GET_SENSOR_READING (R436): PLDM request returning a numeric or state sensor value. -/
def execPldmGetSensorReading (n : Nat) (s : State) : Answer := .next (s.pldmSensor n)

/-- PLDM_FRU_READ (R438): PLDM for FRU Data request returning the module's FRU data. -/
def execPldmFruRead (s : State) : Answer := .next (s.pldmFru)

/-- PLDM_PARTITION_REQUEST (R438): A side-band request for partition data is answered with unsupported command. -/
def execPldmPartitionRequest (s : State) : Answer := .next (s.pldmPartition)

/-- INPUT_SAMPLE (R463): Every 1 µs the input voltage is measured and a dip or surge is timed. -/
def execInputSample (mv : Nat) (s : State) : Answer := .next (s.inputSample mv)

/-- POWER_FAIL (R464): A class F input event switches the rails off and Prigar writes a power-fail record. -/
def execPowerFail (s : State) : Answer := .next (s.powerFail)

/-- POWER_ON (R465): After the input has been in range for 10 ms the rails come up in order. -/
def execPowerOn (testEn : Bool) (s : State) : Answer := .next (s.powerOn testEn)

/-- RAIL_TIMEOUT (R465): A rail not in regulation within 2 ms stops the sequence and fails the units behind it. -/
def execRailTimeout (k : Fin 9) (s : State) : Answer := .next (s.railTimeout k.val)

/-- FAST_LOOP (R470): Every 1 µs the fast loop estimates module power and sets the cap fraction. -/
def execFastLoop (est aim : Nat) (s : State) : Answer := .next (s.fastLoop est aim)

/-- MEASUREMENT_INTERVAL (R471): At the end of each 10 µs, a measured average above the cap raises the cap fraction by 1/32. -/
def execMeasurementInterval (mw : Nat) (s : State) : Answer := .next (s.measured mw)

/-- CALIBRATION_WINDOW (R472): Each 1 ms window the slow loop compares estimate and measurement, recalibrates and judges fitness. -/
def execCalibrationWindow (e m : Nat) (s : State) : Answer := .next (s.calibrate e m)

/-- PW_CAP_UNMET (R469): Measured power above the cap for 10 ms at the largest skip posts PW_CAP_UNMET. -/
def execPwCapUnmet (s : State) : Answer := .next (s.capUnmet)

/-- DROOP_TRIP (R478): An island's supply falls more than 4 % and its droop fraction rises, or it withholds every pulse below 8 %. -/
def execDroopTrip (x : SiteIx) (mv : Nat) (severe : Bool) (s : State) : Answer := .next (s.droopTrip x.val mv severe)

/-- DROOP_RECOVERY (R478): Every 100 ns of supply within 2 % lowers the droop fraction by 4/32. -/
def execDroopRecovery (x : SiteIx) (s : State) : Answer := .next (s.droopRecovery x.val)

/-- PW_APPLY (R487): A write of 1 to PW_APPLY puts PW_DROOPCFG into force. -/
def execPwApply (s : State) : Answer := .next (s.pwApply)

/-- THERMAL_READ (R480): Every 100 µs each die's hottest junction sets its thermal fraction or hold. -/
def execThermalRead (d : DieIx) (tj : Nat) (s : State) : Answer := .next (s.thermalRead d.val tj)

/-- PW_THROTTLE (R482): A cap or thermal fraction nonzero for 1 ms makes the module throttled, posts PW_THROTTLE and sends THROTTLE cells. -/
def execPwThrottle (s : State) : Answer := .next (s.pwThrottle)

/-- THROTTLE_REPEAT (R483): While throttled the module repeats its THROTTLE cell every 100 ms. -/
def execThrottleRepeat (s : State) : Answer := .next (s.throttleRepeat)

/-- THROTTLE_NOTICE_EXPIRE (R484): A throttle notice not repeated for 300 ms is withdrawn and the pace rate recomputed. -/
def execThrottleNoticeExpire (p : PartIx) (origin : Nat) (s : State) : Answer := .next (s.noticeExpire p.val origin)

/-- PW_COOLANT (R544): Coolant readings out of range for 10 s, or back in range for 10 s, post PW_COOLANT. -/
def execPwCoolant (cin cout : Nat) (s : State) : Answer := .next (s.coolant cin cout)

/-- DROOP_SUPPLY_BACK (R478): After a droop beyond 8 %, the island's supply comes back within 4 % of the setpoint and the withholding of
every pulse ends. -/
def execDroopSupplyBack (x : SiteIx) (s : State) : Answer := .next (s.droopBack x.val)

end Sys2Proof.Machine
end

