-- ==== Sys2Proof/Machine/ExecSecure.lean ====
section
/-! DEFINITION. The meanings of firmware, identity and life cycle; `second` is a countersigning value that differs. -/

namespace Sys2Proof.Machine

/-- FW_STAGE (R519): Command: verify and append a firmware package to the store as STAGED. -/
def execFwStage (f : FnIx) (slot : SlotIx) (s : State) : Answer := .next (s.fwStage f.val slot.val)

/-- FW_ACTIVATE (R520): Command: re-verify a staged manifest and activate it core by core. -/
def execFwActivate (f : FnIx) (slot : SlotIx) (s : State) : Answer := .next (s.fwActivate f.val slot.val)

/-- ATTEST (R527): Command: write a signed attestation report to host memory. -/
def execAttest (f : FnIx) (slot : SlotIx) (s : State) : Answer := .next (s.attest f.val slot.val)

/-- LIFECYCLE_PROVISION (R531): Command LIFECYCLE to PROVISIONED: fuse a new UDS and wipe the module. -/
def execLifecycleProvision (f : FnIx) (slot : SlotIx) (second : Option Nat) (s : State) : Answer :=
  .next (s.lifecycle f.val slot.val (fun t => t != 2 && t != 3 && t != 4) second)

/-- LIFECYCLE_DEPLOY (R531): Command LIFECYCLE to DEPLOYED: blow an LC fuse, store certificates where needed and wipe the module. -/
def execLifecycleDeploy (f : FnIx) (slot : SlotIx) (second : Option Nat) (s : State) : Answer :=
  .next (s.lifecycle f.val slot.val (fun t => t == 2) second)

/-- LIFECYCLE_RETURN (R531): Command LIFECYCLE to RETURNED: blow an LC fuse and wipe the module. -/
def execLifecycleReturn (f : FnIx) (slot : SlotIx) (second : Option Nat) (s : State) : Answer :=
  .next (s.lifecycle f.val slot.val (fun t => t == 3) second)

/-- LIFECYCLE_RETIRE (R531): Command LIFECYCLE to RETIRED: blow UDSKILL, erase certificates and wipe the module. -/
def execLifecycleRetire (f : FnIx) (slot : SlotIx) (second : Option Nat) (s : State) : Answer :=
  .next (s.lifecycle f.val slot.val (fun t => t == 4) second)

/-- LIFECYCLE_WIPE_COMPLETE (R531): The HBM and locker zeroing of a life-cycle change ends, new alias keys are issued and SC_LIFECYCLE is posted. -/
def execLifecycleWipeComplete (s : State) : Answer := .next (s.lifecycleDone)

/-- SPDM_GET_VERSION (R526): SPDM request through DOE: return the supported version and reset the pending signature state. -/
def execSpdmGetVersion (f : FnIx) (s : State) : Answer := .next (s.spdmVersion f.val)

/-- SPDM_GET_CERTIFICATE (R526): SPDM request: return part of the Ed25519 certificate chain of slot 0. -/
def execSpdmGetCertificate (f : FnIx) (slot off len : Nat) (s : State) : Answer := .next (s.spdmCertificate f.val slot off len)

/-- SPDM_CHALLENGE (R526): SPDM request: return CHALLENGE_AUTH signed by the Ed25519 alias key. -/
def execSpdmChallenge (f : FnIx) (slot : Nat) (s : State) : Answer := .next (s.spdmChallenge f.val slot)

/-- SPDM_GET_MEASUREMENTS (R525): SPDM request: return the measurements, signed on request. -/
def execSpdmGetMeasurements (f : FnIx) (index : Nat) (sign : Bool) (s : State) : Answer := .next (s.spdmMeasurements f.val index sign)

/-- GET_PQ_CERTIFICATE (R526): Vendor-defined SPDM request 1: return part of the ML-DSA-65 chain. -/
def execGetPqCertificate (f : FnIx) (off len : BitVec 16) (s : State) : Answer := .next (s.pqCertificate f.val off.toNat len.toNat)

/-- GET_PQ_SIGNATURE (R526): Vendor-defined SPDM request 2: return the ML-DSA-65 signature over the last signed response. -/
def execGetPqSignature (f : FnIx) (s : State) : Answer := .next (s.pqSignature f.val)

/-- PLDM_FIRMWARE_UPDATE (R437): PLDM firmware update stages and activates through the live path. -/
def execPldmFirmwareUpdate (package : List Byte) (s : State) : Answer := .next (s.pldmUpdate package)

/-- PLDM_RECOVERY_UPDATE (R518): With no bootable manifest, Prigar accepts a package in recovery mode and reruns the boot. -/
def execPldmRecoveryUpdate (package : List Byte) (second : Option Nat) (s : State) : Answer := .next (s.pldmRecovery package second)

/-- FW_CORE_HANDOVER (R509): During activation a core hands over, restarts into the new image, passes its self-check and takes back its duties. -/
def execFwCoreHandover (second : Option Nat) (s : State) : Answer := .next (s.coreHandover second)

/-- FW_SELF_CHECK_TIMEOUT (R510): A core fails its self-check within 10 s and the activation rolls back with FW_ROLLBACK. -/
def execFwSelfCheckTimeout (s : State) : Answer := .next (s.selfCheck)

/-- SPDM_GET_CAPABILITIES (R526): An SPDM GET_CAPABILITIES request through DOE is answered with CERT_CAP, CHAL_CAP and MEAS_CAP with signature. -/
def execSpdmGetCapabilities (f : FnIx) (s : State) : Answer := .next (s.spdmCapabilities f.val)

/-- SPDM_NEGOTIATE_ALGORITHMS (R526): An SPDM NEGOTIATE_ALGORITHMS request is answered selecting Ed25519 and SHA-384. -/
def execSpdmNegotiateAlgorithms (f : FnIx) (s : State) : Answer := .next (s.spdmAlgorithms f.val)

end Sys2Proof.Machine
end

