-- ==== Sys2Proof/Machine/ExecSync.lean ====
section
/-! DEFINITION. The meanings of synchronisation and system instructions; `hi` is imm14[13:8] of a BELL, whose mode bits the row fixes. -/

namespace Sys2Proof.Machine

/-- ENTER (R212): BELL in mode ENTER: arrive at the bell and wait for the release of that epoch. -/
def execEnter (l : LTile) (gd gs : Reg) (id hi : BitVec 6) (s : State) : Answer := .next (s.issue l.val (.enter l gd gs id hi) (opBell 0 gd gs id hi))

/-- ARRIVE (R212): BELL in mode ARRIVE: arrive at the bell and complete in 1 tc. -/
def execArrive (l : LTile) (gd gs : Reg) (id hi : BitVec 6) (s : State) : Answer :=
  .next (s.issue l.val (.arrive l gd gs id hi) (opBell 1 gd gs id hi))

/-- WAIT (R212): BELL in mode WAIT: wait for the release of the oldest outstanding arrival, or return the last record. -/
def execWait (l : LTile) (gd gs : Reg) (id hi : BitVec 6) (s : State) : Answer := .next (s.issue l.val (.wait l gd gs id hi) (opBell 2 gd gs id hi))

/-- BELL_WAIT_COMPLETE (R58): A BELL wait ends in the tc after its epoch's release is applied, and gd gets the release record. -/
def execBellWaitComplete (l : LTile) (n : Nat) (s : State) : Answer := .next (s.tileStep l.val (fun _ t => t.bellComplete n))

/-- WAITC (R92): Wait until an arrival counter reaches gs; completes at issue when already met. -/
def execWaitc (l : LTile) (gd gs : Reg) (imm : BitVec 14) (s : State) : Answer := .next (s.issue l.val (.waitc l gd gs imm) (opWaitc gd gs imm))

/-- WAITC_COMPLETE (R92): A waiting WAITC finds its counter at or above gs and writes the counter value to gd. -/
def execWaitcComplete (l : LTile) (n : Nat) (s : State) : Answer := .next (s.tileStep l.val (fun _ t => t.waitcComplete n))

/-- TSIG (R54): Increment an issue token, saturating at 15 with TOKEN_OVF. -/
def execTsig (l : LTile) (gd gs : Reg) (imm : BitVec 14) (s : State) : Answer := .next (s.issue l.val (.tsig l gd gs imm) (opTsig gd gs imm))

/-- TWAIT (R54): Wait until an issue token is nonzero, then decrement it. -/
def execTwait (l : LTile) (gd gs : Reg) (imm : BitVec 14) (s : State) : Answer := .next (s.issue l.val (.twait l gd gs imm) (opTwait gd gs imm))

/-- TWAIT_COMPLETE (R55): A waiting TWAIT takes the token count once it is nonzero, in the order MX, VX, XC, core. -/
def execTwaitComplete (l : LTile) (n : Nat) (s : State) : Answer := .next (s.tileStep l.val (fun _ t => t.twaitComplete n))

/-- FENCE (R56): Wait until every earlier instruction in the named engine queues has completed. -/
def execFence (l : LTile) (gd gs : Reg) (imm : BitVec 14) (s : State) : Answer := .next (s.issue l.val (.fence l gd gs imm) (opFence gd gs imm))

/-- FENCE_COMPLETE (R56): A waiting FENCE ends when the named queues' earlier instructions have completed. -/
def execFenceComplete (l : LTile) (n : Nat) (s : State) : Answer := .next (s.tileStep l.val (fun _ t => t.fenceComplete n))

/-- HALT (R69): Stop issue and wait for all three queues to drain and complete. -/
def execHalt (l : LTile) (gd gs : Reg) (imm : BitVec 14) (s : State) : Answer := .next (s.issue l.val (.halt l gd gs imm) (opHalt gd gs imm))

/-- HALT_COMPLETE (R69): The queues of a halting tile are empty, tc.status.RUN becomes 2, and the job ends OK when this is its last tile. -/
def execHaltComplete (l : LTile) (n : Nat) (s : State) : Answer := .next (s.tileStep l.val (fun _ t => t.haltComplete n))

/-- EXC (R61): Raise SOFTWARE with imm14 in tc.info. -/
def execExc (l : LTile) (gd gs : Reg) (imm : BitVec 14) (s : State) : Answer := .next (s.issue l.val (.exc l gd gs imm) (opExc gd gs imm))

/-- ERET (R64): Return from the handler to tc.epc and clear HM; ILLEGAL outside handler mode. -/
def execEret (l : LTile) (gd gs : Reg) (imm : BitVec 14) (s : State) : Answer := .next (s.issue l.val (.eret l gd gs imm) (opEret gd gs imm))

/-- CSR_R (R70): Read a tile control register into gd. -/
def execCsrR (l : LTile) (gd gs : Reg) (imm : BitVec 14) (s : State) : Answer := .next (s.issue l.val (.csrR l gd gs imm) (opCsrR gd gs imm))

/-- CSR_W (R70): Write gs to a tile control register. -/
def execCsrW (l : LTile) (gd gs : Reg) (imm : BitVec 14) (s : State) : Answer := .next (s.issueWalk l.val (.csrW l gd gs imm) (opCsrW gd gs imm))

/-- WAIT_LIMIT (R59): A wait's count reaches tc.waitlimit and the core ends the wait with WAIT_LIMIT. -/
def execWaitLimit (l : LTile) (s : State) : Answer := .next (s.tileStep l.val (fun _ t => t.limitReached))

end Sys2Proof.Machine
end

