-- ==== Sys2Proof/Machine/ExecTap.lean ====
section
/-! DEFINITION. The meanings of the test access port: what the pins show, the bits shifted in. -/

namespace Sys2Proof.Machine

/-- BYPASS (R539): TAP instruction BYPASS. -/
def execBypass (s : State) : Answer := .next (s.tapBypass)

/-- IDCODE (R539): TAP instruction IDCODE selects the identification register. -/
def execIdcode (s : State) : Answer := .next (s.tapIdcode)

/-- SAMPLE (R539): TAP instruction SAMPLE captures the boundary. -/
def execSample (pins : List Bool) (s : State) : Answer := .next (s.tapSample pins)

/-- PRELOAD (R539): TAP instruction PRELOAD loads the boundary register. -/
def execPreload (bits : List Bool) (s : State) : Answer := .next (s.tapPreload bits)

/-- EXTEST (R539): TAP instruction EXTEST drives J1 side-band and J6 sense pins in production test. -/
def execExtest (pins bits : List Bool) (s : State) : Answer := .next (s.tapExtest .extest pins bits)

/-- CLAMP (R539): TAP instruction CLAMP in production test. -/
def execClamp (s : State) : Answer := .next (s.tapClamp)

/-- HIGHZ (R539): TAP instruction HIGHZ in production test. -/
def execHighz (s : State) : Answer := .next (s.tapHighz)

/-- EXTEST_PULSE (R539): TAP instruction EXTEST_PULSE on AC-coupled lanes. -/
def execExtestPulse (pins bits : List Bool) (s : State) : Answer := .next (s.tapExtest .extestPulse pins bits)

/-- EXTEST_TRAIN (R539): TAP instruction EXTEST_TRAIN on AC-coupled lanes. -/
def execExtestTrain (pins bits : List Bool) (s : State) : Answer := .next (s.tapExtest .extestTrain pins bits)

/-- HBM_WIR (R539): TAP instruction reaching a stack's IEEE 1500 instruction register. -/
def execHbmWir (h : StackIx) (bits : List Bool) (s : State) : Answer := .next (s.tapWir h.val bits)

/-- HBM_WDR (R539): TAP instruction reaching a stack's IEEE 1500 data register. -/
def execHbmWdr (h : StackIx) (bits : List Bool) (s : State) : Answer := .next (s.tapWdr h.val bits)

/-- LANE_TEST (R539): Vendor TAP instruction reaching the Ranov lane PRBS generators and checkers. -/
def execLaneTest (lanes : BitVec 64) (counts : List Bool) (s : State) : Answer := .next (s.tapLanes lanes counts)

end Sys2Proof.Machine
end

