-- ==== Sys2Proof/Machine/ExecUp.lean ====
section
/-! DEFINITION. The meanings of bring-up. -/

namespace Sys2Proof.Machine

/-- BOOT (R517): The boot ROM verifies eligible manifests in order and starts the loader of the first that passes. -/
def execBoot (second : Option Nat) (s : State) : Answer := .next (s.boot second)

/-- FUNCTION_READY (R534): A function's bring-up work completes and its readiness bit is set, raising vector 2. -/
def execFunctionReady (n : Fin 79) (bad : List Nat) (s : State) : Answer := .next (s.functionReady n.val bad)

/-- BRINGUP_TIMEOUT (R534): A function not ready when its timer expires is marked failed and UNIT_FAILED is posted. -/
def execBringupTimeout (n : Fin 79) (test : Bool) (s : State) : Answer := .next (s.bringupTimeout n.val test)

/-- PERST_DEASSERT (R537): PERST# is deasserted after 20 ms and the PCIe port trains. -/
def execPerstDeassert (s : State) : Answer := .next (s.perstDeassert)

/-- ENTER_COMPLIANCE (R540): The host sets Enter Compliance and the port sends compliance patterns. -/
def execEnterCompliance (s : State) : Answer := .next (s.enterCompliance)

end Sys2Proof.Machine
end

