-- ==== Sys2Proof/Machine/ExecVx.lean ====
section
/-! DEFINITION. The meanings of vector engine instructions as they start. -/

namespace Sys2Proof.Machine

/-- VX_SETVL (R174): Vector engine sets the vector length. -/
def execVxSetvl (l : LTile) (s : State) : Answer := .next (s.tileStep l.val (fun _ t => t.vxSetvl))

/-- VX_EPLOAD (R183): Vector engine loads and checks an element program into a slot. -/
def execVxEpload (l : LTile) (conf : Nat) (s : State) : Answer := .next (s.tileStep l.val (fun _ t => t.vxEpload conf))

/-- VX_CONST (R176): Vector engine sets a constant. -/
def execVxConst (l : LTile) (s : State) : Answer := .next (s.tileStep l.val (fun _ t => t.vxConst))

/-- VX_SDEF (R178): Vector engine sets a stream word. -/
def execVxSdef (l : LTile) (s : State) : Answer := .next (s.tileStep l.val (fun _ t => t.vxSdef))

/-- VX_RUN (R184): Vector engine runs an element program over NVEC vectors with an optional reduction. -/
def execVxRun (l : LTile) (stall conf : Nat) (s : State) : Answer := .next (s.tileStep l.val (fun _ t => t.vxRun stall conf))

/-- VX_CMPR (R191): Vector engine packs the active elements. -/
def execVxCmpr (l : LTile) (stall conf : Nat) (s : State) : Answer := .next (s.tileStep l.val (fun _ t => t.vxCmpr stall conf))

/-- VX_EXPD (R191): Vector engine scatters packed elements back to their positions. -/
def execVxExpd (l : LTile) (stall conf : Nat) (s : State) : Answer := .next (s.tileStep l.val (fun _ t => t.vxExpd stall conf))

/-- VX_OCLD (R197): Vector engine copies scratchpad rows into the operand cache. -/
def execVxOcld (l : LTile) (stall conf : Nat) (s : State) : Answer := .next (s.tileStep l.val (fun _ t => t.vxOcld stall conf))

/-- VX_OCST (R197): Vector engine copies operand-cache rows to the scratchpad. -/
def execVxOcst (l : LTile) (stall conf : Nat) (s : State) : Answer := .next (s.tileStep l.val (fun _ t => t.vxOcst stall conf))

/-- VX_XLD (R171): Vector engine loads or adds 16 exact-sum words into the lane registers, checking each word. -/
def execVxXld (l : LTile) (stall conf : Nat) (s : State) : Answer := .next (s.tileStep l.val (fun _ t => t.vxXld stall conf))

/-- VX_XST (R195): Vector engine stores the lane exact-sum registers or their combined word. -/
def execVxXst (l : LTile) (stall conf : Nat) (s : State) : Answer := .next (s.tileStep l.val (fun _ t => t.vxXst stall conf))

/-- VX_XRND (R170): Vector engine rounds the combined exact-sum word to FP32. -/
def execVxXrnd (l : LTile) (s : State) : Answer := .next (s.tileStep l.val (fun _ t => t.vxXrnd))

/-- VX_INSTR_COMPLETE (R177): A VX instruction completes, writes ga and signals its token when SE is 1. -/
def execVxInstrComplete (l : LTile) (s : State) : Answer := .next (s.tileStep l.val (fun _ t => t.vxComplete))

end Sys2Proof.Machine
end

