-- ==== Sys2Proof/Machine/ExecXc.lean ====
section
/-! DEFINITION. The meanings of exchange unit instructions, and exchange descriptors of the queue or of the walker. -/

namespace Sys2Proof.Machine

/-- XC_PUT (R305): Exchange unit issues count consecutive exchange descriptors. -/
def execXcPut (l : LTile) (s : State) : Answer := .next (s.tileStep l.val (fun env t => t.xcPut env))

/-- XC_OPEN_RECEIVE (R287): Exchange unit opens a receive endpoint over a ring and enters LISTEN. -/
def execXcOpenReceive (l : LTile) (s : State) : Answer := .next (s.tileStep l.val (fun env t => t.xcOpenReceive env))

/-- XC_OPEN_SEND (R288): Exchange unit opens a send endpoint, enters OPENING and sends an open request. -/
def execXcOpenSend (l : LTile) (s : State) : Answer := .next (s.tileStep l.val (fun env t => t.xcOpenSend env))

/-- XC_CLOSE (R299): Exchange unit closes an endpoint, by marker on a send endpoint or by discard and notice on a receive endpoint. -/
def execXcClose (l : LTile) (s : State) : Answer := .next (s.tileStep l.val (fun env t => t.xcClose env))

/-- XC_SEND (R292): Exchange unit sends one message, paying hall passes and padding at a ring wrap. -/
def execXcSend (l : LTile) (s : State) : Answer := .next (s.tileStep l.val (fun env t => t.xcSend env))

/-- SEND_RESUME (R294): A send waiting for hall passes resumes once enough credits have returned. -/
def execSendResume (l : LTile) (n : Nat) (s : State) : Answer := .next (s.tileStep l.val (fun env t => t.sendResume env n))

/-- XC_SELECT (R295): Exchange unit waits until a named receive endpoint holds a ready record. -/
def execXcSelect (l : LTile) (s : State) : Answer := .next (s.tileStep l.val (fun _ t => t.xcSelect))

/-- SELECT_READY (R295): A waiting SELECT finds a named endpoint ready and returns its record word. -/
def execSelectReady (l : LTile) (s : State) : Answer := .next (s.tileStep l.val (fun _ t => t.selectReady))

/-- XC_DONE (R296): Exchange unit consumes the record at the read position and returns its hall passes. -/
def execXcDone (l : LTile) (s : State) : Answer := .next (s.tileStep l.val (fun env t => t.xcDoneRec env))

/-- XC_INSTR_COMPLETE (R285): An XC instruction completes and signals its token when SE is 1. -/
def execXcInstrComplete (l : LTile) (s : State) : Answer := .next (s.tileStep l.val (fun _ t => t.xcComplete))

/-- WRITE (R305): Exchange descriptor WRITE sends LEN bytes as 64-byte packets to a tile. -/
def execWrite (l : LTile) (walker : Bool) (s : State) : Answer := .next (s.tileStep l.val (fun env t => t.xWrite env walker))

/-- REDUCE (R305): Exchange descriptor REDUCE injects packets into a reduction tree. -/
def execReduce (l : LTile) (walker : Bool) (n : Nat) (s : State) : Answer := .next (s.tileStep l.val (fun env t => t.xReduce env walker n))

/-- CBWRITE (R305): Exchange descriptor CBWRITE issues a chalkboard write to a group. -/
def execCbwrite (l : LTile) (walker : Bool) (s : State) : Answer := .next (s.tileStep l.val (fun env t => t.xChalk env walker))

/-- ANNOUNCE (R305): Exchange descriptor ANNOUNCE sends an announce on a flow across a port. -/
def execAnnounce (l : LTile) (walker : Bool) (s : State) : Answer := .next (s.tileStep l.val (fun env t => t.xAnnounce env walker))

/-- DMA (R318): Exchange descriptor DMA hands a DMA descriptor to a stream after its checks, waiting for a free entry. -/
def execDma (l : LTile) (walker : Bool) (s : State) : Answer := .next (s.tileStep l.val (fun env t => t.xDma env walker))

end Sys2Proof.Machine
end

