-- ==== Sys2Proof/Machine/Dispatch.lean ====
section
/-! DEFINITION. One arm for each command. -/

namespace Sys2Proof.Machine

def exec (i : Instr) (s : State) : Host.Outcome State Fault Refusal :=
  match i with
  | .add l gd gs1 gs2 => Sys2Proof.Machine.execAdd l gd gs1 gs2 s
  | .sub l gd gs1 gs2 => Sys2Proof.Machine.execSub l gd gs1 gs2 s
  | .and l gd gs1 gs2 => Sys2Proof.Machine.execAnd l gd gs1 gs2 s
  | .or l gd gs1 gs2 => Sys2Proof.Machine.execOr l gd gs1 gs2 s
  | .xor l gd gs1 gs2 => Sys2Proof.Machine.execXor l gd gs1 gs2 s
  | .shl l gd gs1 gs2 => Sys2Proof.Machine.execShl l gd gs1 gs2 s
  | .shr l gd gs1 gs2 => Sys2Proof.Machine.execShr l gd gs1 gs2 s
  | .sra l gd gs1 gs2 => Sys2Proof.Machine.execSra l gd gs1 gs2 s
  | .slt l gd gs1 gs2 => Sys2Proof.Machine.execSlt l gd gs1 gs2 s
  | .sltu l gd gs1 gs2 => Sys2Proof.Machine.execSltu l gd gs1 gs2 s
  | .min l gd gs1 gs2 => Sys2Proof.Machine.execMin l gd gs1 gs2 s
  | .max l gd gs1 gs2 => Sys2Proof.Machine.execMax l gd gs1 gs2 s
  | .minu l gd gs1 gs2 => Sys2Proof.Machine.execMinu l gd gs1 gs2 s
  | .maxu l gd gs1 gs2 => Sys2Proof.Machine.execMaxu l gd gs1 gs2 s
  | .mul l gd gs1 gs2 => Sys2Proof.Machine.execMul l gd gs1 gs2 s
  | .mulh l gd gs1 gs2 => Sys2Proof.Machine.execMulh l gd gs1 gs2 s
  | .mulhu l gd gs1 gs2 => Sys2Proof.Machine.execMulhu l gd gs1 gs2 s
  | .div l gd gs1 gs2 => Sys2Proof.Machine.execDiv l gd gs1 gs2 s
  | .divu l gd gs1 gs2 => Sys2Proof.Machine.execDivu l gd gs1 gs2 s
  | .rem l gd gs1 gs2 => Sys2Proof.Machine.execRem l gd gs1 gs2 s
  | .remu l gd gs1 gs2 => Sys2Proof.Machine.execRemu l gd gs1 gs2 s
  | .clz l gd gs1 gs2 => Sys2Proof.Machine.execClz l gd gs1 gs2 s
  | .popc l gd gs1 gs2 => Sys2Proof.Machine.execPopc l gd gs1 gs2 s
  | .addi l gd gs1 imm => Sys2Proof.Machine.execAddi l gd gs1 imm s
  | .andi l gd gs1 imm => Sys2Proof.Machine.execAndi l gd gs1 imm s
  | .ori l gd gs1 imm => Sys2Proof.Machine.execOri l gd gs1 imm s
  | .xori l gd gs1 imm => Sys2Proof.Machine.execXori l gd gs1 imm s
  | .shli l gd gs1 imm => Sys2Proof.Machine.execShli l gd gs1 imm s
  | .shri l gd gs1 imm => Sys2Proof.Machine.execShri l gd gs1 imm s
  | .srai l gd gs1 imm => Sys2Proof.Machine.execSrai l gd gs1 imm s
  | .slti l gd gs1 imm => Sys2Proof.Machine.execSlti l gd gs1 imm s
  | .sltiu l gd gs1 imm => Sys2Proof.Machine.execSltiu l gd gs1 imm s
  | .liu l gd imm => Sys2Proof.Machine.execLiu l gd imm s
  | .ldB l gt gs h imm => Sys2Proof.Machine.execLdB l gt gs h imm s
  | .ldBu l gt gs h imm => Sys2Proof.Machine.execLdBu l gt gs h imm s
  | .ldH l gt gs h imm => Sys2Proof.Machine.execLdH l gt gs h imm s
  | .ldHu l gt gs h imm => Sys2Proof.Machine.execLdHu l gt gs h imm s
  | .ldW l gt gs h imm => Sys2Proof.Machine.execLdW l gt gs h imm s
  | .ldWu l gt gs h imm => Sys2Proof.Machine.execLdWu l gt gs h imm s
  | .ldD l gt gs h imm => Sys2Proof.Machine.execLdD l gt gs h imm s
  | .stB l gt gs h imm => Sys2Proof.Machine.execStB l gt gs h imm s
  | .stH l gt gs h imm => Sys2Proof.Machine.execStH l gt gs h imm s
  | .stW l gt gs h imm => Sys2Proof.Machine.execStW l gt gs h imm s
  | .stD l gt gs h imm => Sys2Proof.Machine.execStD l gt gs h imm s
  | .la l gt gs h imm => Sys2Proof.Machine.execLa l gt gs h imm s
  | .ldFe l gt gs h imm => Sys2Proof.Machine.execLdFe l gt gs h imm s
  | .stEf l gt gs h imm => Sys2Proof.Machine.execStEf l gt gs h imm s
  | .ldF l gt gs h imm => Sys2Proof.Machine.execLdF l gt gs h imm s
  | .stF l gt gs h imm => Sys2Proof.Machine.execStF l gt gs h imm s
  | .fullemptyComplete l n => Sys2Proof.Machine.execFullemptyComplete l n s
  | .beq l gs1 gs2 off => Sys2Proof.Machine.execBeq l gs1 gs2 off s
  | .bne l gs1 gs2 off => Sys2Proof.Machine.execBne l gs1 gs2 off s
  | .blt l gs1 gs2 off => Sys2Proof.Machine.execBlt l gs1 gs2 off s
  | .bge l gs1 gs2 off => Sys2Proof.Machine.execBge l gs1 gs2 off s
  | .bltu l gs1 gs2 off => Sys2Proof.Machine.execBltu l gs1 gs2 off s
  | .bgeu l gs1 gs2 off => Sys2Proof.Machine.execBgeu l gs1 gs2 off s
  | .jal l gd off => Sys2Proof.Machine.execJal l gd off s
  | .jalr l gd gs1 imm => Sys2Proof.Machine.execJalr l gd gs1 imm s
  | .enter l gd gs id hi => Sys2Proof.Machine.execEnter l gd gs id hi s
  | .arrive l gd gs id hi => Sys2Proof.Machine.execArrive l gd gs id hi s
  | .wait l gd gs id hi => Sys2Proof.Machine.execWait l gd gs id hi s
  | .bellWaitComplete l n => Sys2Proof.Machine.execBellWaitComplete l n s
  | .waitc l gd gs imm => Sys2Proof.Machine.execWaitc l gd gs imm s
  | .waitcComplete l n => Sys2Proof.Machine.execWaitcComplete l n s
  | .tsig l gd gs imm => Sys2Proof.Machine.execTsig l gd gs imm s
  | .twait l gd gs imm => Sys2Proof.Machine.execTwait l gd gs imm s
  | .twaitComplete l n => Sys2Proof.Machine.execTwaitComplete l n s
  | .fence l gd gs imm => Sys2Proof.Machine.execFence l gd gs imm s
  | .fenceComplete l n => Sys2Proof.Machine.execFenceComplete l n s
  | .halt l gd gs imm => Sys2Proof.Machine.execHalt l gd gs imm s
  | .haltComplete l n => Sys2Proof.Machine.execHaltComplete l n s
  | .exc l gd gs imm => Sys2Proof.Machine.execExc l gd gs imm s
  | .eret l gd gs imm => Sys2Proof.Machine.execEret l gd gs imm s
  | .csrR l gd gs imm => Sys2Proof.Machine.execCsrR l gd gs imm s
  | .csrW l gd gs imm => Sys2Proof.Machine.execCsrW l gd gs imm s
  | .waitLimit l => Sys2Proof.Machine.execWaitLimit l s
  | .engineIssue l op ga gb gc we wtok se stok r0 => Sys2Proof.Machine.execEngineIssue l op ga gb gc we wtok se stok r0 s
  | .queueWaitEnd l n => Sys2Proof.Machine.execQueueWaitEnd l n s
  | .resultWaitEnd l n => Sys2Proof.Machine.execResultWaitEnd l n s
  | .spHandleWrite l h gs => Sys2Proof.Machine.execSpHandleWrite l h gs s
  | .counterSet l c gs => Sys2Proof.Machine.execCounterSet l c gs s
  | .counterSubtract l c gs => Sys2Proof.Machine.execCounterSubtract l c gs s
  | .scaleRecordWrite l w gs => Sys2Proof.Machine.execScaleRecordWrite l w gs s
  | .walkerStart l gs => Sys2Proof.Machine.execWalkerStart l gs s
  | .walkerStop l gs => Sys2Proof.Machine.execWalkerStop l gs s
  | .cbsubWrite l n gs => Sys2Proof.Machine.execCbsubWrite l n gs s
  | .registerWrite f off wide data => Sys2Proof.Machine.execRegisterWrite f off wide data s
  | .freeze x => Sys2Proof.Machine.execFreeze x s
  | .scrubRead x => Sys2Proof.Machine.execScrubRead x s
  | .wipeComplete x failed => Sys2Proof.Machine.execWipeComplete x failed s
  | .mxLoad l conf => Sys2Proof.Machine.execMxLoad l conf s
  | .mxFwd l stall conf => Sys2Proof.Machine.execMxFwd l stall conf s
  | .mxDgrad l stall conf => Sys2Proof.Machine.execMxDgrad l stall conf s
  | .mxWgrad l stall conf => Sys2Proof.Machine.execMxWgrad l stall conf s
  | .mxStore l conf => Sys2Proof.Machine.execMxStore l conf s
  | .mxPass l conf => Sys2Proof.Machine.execMxPass l conf s
  | .mxAload l conf => Sys2Proof.Machine.execMxAload l conf s
  | .mxInstrComplete l => Sys2Proof.Machine.execMxInstrComplete l s
  | .vxSetvl l => Sys2Proof.Machine.execVxSetvl l s
  | .vxEpload l conf => Sys2Proof.Machine.execVxEpload l conf s
  | .vxConst l => Sys2Proof.Machine.execVxConst l s
  | .vxSdef l => Sys2Proof.Machine.execVxSdef l s
  | .vxRun l stall conf => Sys2Proof.Machine.execVxRun l stall conf s
  | .vxCmpr l stall conf => Sys2Proof.Machine.execVxCmpr l stall conf s
  | .vxExpd l stall conf => Sys2Proof.Machine.execVxExpd l stall conf s
  | .vxOcld l stall conf => Sys2Proof.Machine.execVxOcld l stall conf s
  | .vxOcst l stall conf => Sys2Proof.Machine.execVxOcst l stall conf s
  | .vxXld l stall conf => Sys2Proof.Machine.execVxXld l stall conf s
  | .vxXst l stall conf => Sys2Proof.Machine.execVxXst l stall conf s
  | .vxXrnd l => Sys2Proof.Machine.execVxXrnd l s
  | .vxInstrComplete l => Sys2Proof.Machine.execVxInstrComplete l s
  | .xcPut l => Sys2Proof.Machine.execXcPut l s
  | .xcOpenReceive l => Sys2Proof.Machine.execXcOpenReceive l s
  | .xcOpenSend l => Sys2Proof.Machine.execXcOpenSend l s
  | .xcClose l => Sys2Proof.Machine.execXcClose l s
  | .xcSend l => Sys2Proof.Machine.execXcSend l s
  | .sendResume l n => Sys2Proof.Machine.execSendResume l n s
  | .xcSelect l => Sys2Proof.Machine.execXcSelect l s
  | .selectReady l => Sys2Proof.Machine.execSelectReady l s
  | .xcDone l => Sys2Proof.Machine.execXcDone l s
  | .xcInstrComplete l => Sys2Proof.Machine.execXcInstrComplete l s
  | .write l walker => Sys2Proof.Machine.execWrite l walker s
  | .reduce l walker n => Sys2Proof.Machine.execReduce l walker n s
  | .cbwrite l walker => Sys2Proof.Machine.execCbwrite l walker s
  | .announce l walker => Sys2Proof.Machine.execAnnounce l walker s
  | .dma l walker => Sys2Proof.Machine.execDma l walker s
  | .toHbm l k => Sys2Proof.Machine.execToHbm l k s
  | .fromHbm l k => Sys2Proof.Machine.execFromHbm l k s
  | .hbmCopy l k => Sys2Proof.Machine.execHbmCopy l k s
  | .gather l k => Sys2Proof.Machine.execGather l k s
  | .scatter l k => Sys2Proof.Machine.execScatter l k s
  | .ckSave l k => Sys2Proof.Machine.execCkSave l k s
  | .ckLoad l k => Sys2Proof.Machine.execCkLoad l k s
  | .dmaComplete l k => Sys2Proof.Machine.execDmaComplete l k s
  | .translationFaultTimeout l k => Sys2Proof.Machine.execTranslationFaultTimeout l k s
  | .mmFresumeResume p id => Sys2Proof.Machine.execMmFresumeResume p id s
  | .mmFresumeAbort p id => Sys2Proof.Machine.execMmFresumeAbort p id s
  | .mmInval p => Sys2Proof.Machine.execMmInval p s
  | .invalidationComplete p => Sys2Proof.Machine.execInvalidationComplete p s
  | .mmApply p => Sys2Proof.Machine.execMmApply p s
  | .mmChrel p slot => Sys2Proof.Machine.execMmChrel p slot s
  | .mmRegApply p => Sys2Proof.Machine.execMmRegApply p s
  | .regulatorRefill p => Sys2Proof.Machine.execRegulatorRefill p s
  | .bar2Write f off bytes => Sys2Proof.Machine.execBar2Write f off bytes s
  | .bar2Read f off n => Sys2Proof.Machine.execBar2Read f off n s
  | .patrolScrub u => Sys2Proof.Machine.execPatrolScrub u s
  | .hbmTempRead h t => Sys2Proof.Machine.execHbmTempRead h t s
  | .bellArrival p k => Sys2Proof.Machine.execBellArrival p k s
  | .bellRelease p b => Sys2Proof.Machine.execBellRelease p b s
  | .releaseApply l b => Sys2Proof.Machine.execReleaseApply l b s
  | .walkerFiringEnd l => Sys2Proof.Machine.execWalkerFiringEnd l s
  | .lateThresholdUpdate p => Sys2Proof.Machine.execLateThresholdUpdate p s
  | .latenessFold p => Sys2Proof.Machine.execLatenessFold p s
  | .bellArrivalNotice k => Sys2Proof.Machine.execBellArrivalNotice k s
  | .bellReleaseNotice k => Sys2Proof.Machine.execBellReleaseNotice k s
  | .bellTimeout p b => Sys2Proof.Machine.execBellTimeout p b s
  | .bellLost p b => Sys2Proof.Machine.execBellLost p b s
  | .recessHoldExpire p b => Sys2Proof.Machine.execRecessHoldExpire p b s
  | .countUpdate k => Sys2Proof.Machine.execCountUpdate k s
  | .announceReceive k => Sys2Proof.Machine.execAnnounceReceive k s
  | .announceExpired p flow => Sys2Proof.Machine.execAnnounceExpired p flow s
  | .remoteWriteDeliver k bad => Sys2Proof.Machine.execRemoteWriteDeliver k bad s
  | .reduceMerge p tree node => Sys2Proof.Machine.execReduceMerge p tree node s
  | .chalkboardGrant => Sys2Proof.Machine.execChalkboardGrant s
  | .chalkboardDeliver l bad => Sys2Proof.Machine.execChalkboardDeliver l bad s
  | .countWordApply l => Sys2Proof.Machine.execCountWordApply l s
  | .chartWord l x p valid hold => Sys2Proof.Machine.execChartWord l x p valid hold s
  | .writeFailureNotice k => Sys2Proof.Machine.execWriteFailureNotice k s
  | .openRequest k => Sys2Proof.Machine.execOpenRequest k s
  | .openReply k => Sys2Proof.Machine.execOpenReply k s
  | .openRequestTimeout l ep => Sys2Proof.Machine.execOpenRequestTimeout l ep s
  | .hallPassReturn k => Sys2Proof.Machine.execHallPassReturn k s
  | .messageFlit k => Sys2Proof.Machine.execMessageFlit k s
  | .partialMessageTimeout l ep => Sys2Proof.Machine.execPartialMessageTimeout l ep s
  | .truncationNotice k => Sys2Proof.Machine.execTruncationNotice k s
  | .channelCloseMarker k => Sys2Proof.Machine.execChannelCloseMarker k s
  | .closeNotice k => Sys2Proof.Machine.execCloseNotice k s
  | .portDetectPulse q => Sys2Proof.Machine.execPortDetectPulse q s
  | .partnerDetected q => Sys2Proof.Machine.execPartnerDetected q s
  | .trainComplete q lanes => Sys2Proof.Machine.execTrainComplete q lanes s
  | .trainTimeout q => Sys2Proof.Machine.execTrainTimeout q s
  | .capabilityRecord q => Sys2Proof.Machine.execCapabilityRecord q s
  | .negotiateTimeout q => Sys2Proof.Machine.execNegotiateTimeout q s
  | .retrainComplete q => Sys2Proof.Machine.execRetrainComplete q s
  | .retrainTimeout q => Sys2Proof.Machine.execRetrainTimeout q s
  | .frameReceive q frame => Sys2Proof.Machine.execFrameReceive q frame s
  | .laneLossOfSignal q lane => Sys2Proof.Machine.execLaneLossOfSignal q lane s
  | .writeContext q => Sys2Proof.Machine.execWriteContext q s
  | .msgContext q => Sys2Proof.Machine.execMsgContext q s
  | .throttle k => Sys2Proof.Machine.execThrottle k s
  | .timeRequestSend q => Sys2Proof.Machine.execTimeRequestSend q s
  | .timeRequest k => Sys2Proof.Machine.execTimeRequest k s
  | .timeReply k => Sys2Proof.Machine.execTimeReply k s
  | .lkApply q => Sys2Proof.Machine.execLkApply q s
  | .commandSubmit f slot header whole => Sys2Proof.Machine.execCommandSubmit f slot header whole s
  | .cmdTimeout f slot => Sys2Proof.Machine.execCmdTimeout f slot s
  | .cmdDeferred f slot => Sys2Proof.Machine.execCmdDeferred f slot s
  | .cmdDone f => Sys2Proof.Machine.execCmdDone f s
  | .replyWrite f => Sys2Proof.Machine.execReplyWrite f s
  | .eventRingWrite f => Sys2Proof.Machine.execEventRingWrite f s
  | .interruptModerationExpire f v => Sys2Proof.Machine.execInterruptModerationExpire f v s
  | .cbApply f => Sys2Proof.Machine.execCbApply f s
  | .evApply f => Sys2Proof.Machine.execEvApply f s
  | .functionLevelReset f => Sys2Proof.Machine.execFunctionLevelReset f s
  | .hotReset => Sys2Proof.Machine.execHotReset s
  | .completionTimeout f slot moved poisoned => Sys2Proof.Machine.execCompletionTimeout f slot moved poisoned s
  | .negotiate f slot => Sys2Proof.Machine.execNegotiate f slot s
  | .queryPartition f slot => Sys2Proof.Machine.execQueryPartition f slot s
  | .queryBellLateness f slot => Sys2Proof.Machine.execQueryBellLateness f slot s
  | .queryPartitionCounts f slot => Sys2Proof.Machine.execQueryPartitionCounts f slot s
  | .partCreate f slot => Sys2Proof.Machine.execPartCreate f slot s
  | .partDestroy f slot second => Sys2Proof.Machine.execPartDestroy f slot second s
  | .partReset f slot second => Sys2Proof.Machine.execPartReset f slot second s
  | .loadImage f slot => Sys2Proof.Machine.execLoadImage f slot s
  | .bindTimetable f slot => Sys2Proof.Machine.execBindTimetable f slot s
  | .jobStart f slot => Sys2Proof.Machine.execJobStart f slot s
  | .jobKill f slot => Sys2Proof.Machine.execJobKill f slot s
  | .partitionEnd p failed => Sys2Proof.Machine.execPartitionEnd p failed s
  | .preempt f slot => Sys2Proof.Machine.execPreempt f slot s
  | .preemptSave p => Sys2Proof.Machine.execPreemptSave p s
  | .resume f slot => Sys2Proof.Machine.execResume f slot s
  | .recess f slot => Sys2Proof.Machine.execRecess f slot s
  | .substituteSwap l => Sys2Proof.Machine.execSubstituteSwap l s
  | .dmaHostToDva f slot => Sys2Proof.Machine.execDmaHostToDva f slot s
  | .dmaHostFromDva f slot => Sys2Proof.Machine.execDmaHostFromDva f slot s
  | .powerCapSet f slot second => Sys2Proof.Machine.execPowerCapSet f slot second s
  | .powerQuery f slot => Sys2Proof.Machine.execPowerQuery f slot s
  | .fwStage f slot => Sys2Proof.Machine.execFwStage f slot s
  | .fwActivate f slot => Sys2Proof.Machine.execFwActivate f slot s
  | .attest f slot => Sys2Proof.Machine.execAttest f slot s
  | .logRead f slot => Sys2Proof.Machine.execLogRead f slot s
  | .logReadModule f slot => Sys2Proof.Machine.execLogReadModule f slot s
  | .gradebookRead f slot => Sys2Proof.Machine.execGradebookRead f slot s
  | .linkWiden f slot => Sys2Proof.Machine.execLinkWiden f slot s
  | .linkRetrain f slot => Sys2Proof.Machine.execLinkRetrain f slot s
  | .linkRetireLane f slot => Sys2Proof.Machine.execLinkRetireLane f slot s
  | .linkTest f slot reports => Sys2Proof.Machine.execLinkTest f slot reports s
  | .testSchedule f slot => Sys2Proof.Machine.execTestSchedule f slot s
  | .lifecycleProvision f slot second => Sys2Proof.Machine.execLifecycleProvision f slot second s
  | .lifecycleDeploy f slot second => Sys2Proof.Machine.execLifecycleDeploy f slot second s
  | .lifecycleReturn f slot second => Sys2Proof.Machine.execLifecycleReturn f slot second s
  | .lifecycleRetire f slot second => Sys2Proof.Machine.execLifecycleRetire f slot second s
  | .lifecycleWipeComplete => Sys2Proof.Machine.execLifecycleWipeComplete s
  | .debugRead f p => Sys2Proof.Machine.execDebugRead f p s
  | .ptApply p => Sys2Proof.Machine.execPtApply p s
  | .spdmGetVersion f => Sys2Proof.Machine.execSpdmGetVersion f s
  | .spdmGetCertificate f slot off len => Sys2Proof.Machine.execSpdmGetCertificate f slot off len s
  | .spdmChallenge f slot => Sys2Proof.Machine.execSpdmChallenge f slot s
  | .spdmGetMeasurements f index sign => Sys2Proof.Machine.execSpdmGetMeasurements f index sign s
  | .getPqCertificate f off len => Sys2Proof.Machine.execGetPqCertificate f off len s
  | .getPqSignature f => Sys2Proof.Machine.execGetPqSignature f s
  | .pldmSetPowerCap watts second => Sys2Proof.Machine.execPldmSetPowerCap watts second s
  | .pldmGetSensorReading n => Sys2Proof.Machine.execPldmGetSensorReading n s
  | .pldmFruRead => Sys2Proof.Machine.execPldmFruRead s
  | .pldmFirmwareUpdate package => Sys2Proof.Machine.execPldmFirmwareUpdate package s
  | .pldmRecoveryUpdate package second => Sys2Proof.Machine.execPldmRecoveryUpdate package second s
  | .pldmPartitionRequest => Sys2Proof.Machine.execPldmPartitionRequest s
  | .inputSample mv => Sys2Proof.Machine.execInputSample mv s
  | .powerFail => Sys2Proof.Machine.execPowerFail s
  | .powerOn testEn => Sys2Proof.Machine.execPowerOn testEn s
  | .railTimeout k => Sys2Proof.Machine.execRailTimeout k s
  | .fastLoop est aim => Sys2Proof.Machine.execFastLoop est aim s
  | .measurementInterval mw => Sys2Proof.Machine.execMeasurementInterval mw s
  | .calibrationWindow e m => Sys2Proof.Machine.execCalibrationWindow e m s
  | .pwCapUnmet => Sys2Proof.Machine.execPwCapUnmet s
  | .droopTrip x mv severe => Sys2Proof.Machine.execDroopTrip x mv severe s
  | .droopRecovery x => Sys2Proof.Machine.execDroopRecovery x s
  | .pwApply => Sys2Proof.Machine.execPwApply s
  | .thermalRead d tj => Sys2Proof.Machine.execThermalRead d tj s
  | .pwThrottle => Sys2Proof.Machine.execPwThrottle s
  | .throttleRepeat => Sys2Proof.Machine.execThrottleRepeat s
  | .throttleNoticeExpire p origin => Sys2Proof.Machine.execThrottleNoticeExpire p origin s
  | .pwCoolant cin cout => Sys2Proof.Machine.execPwCoolant cin cout s
  | .classDReset p second third => Sys2Proof.Machine.execClassDReset p second third s
  | .proctorCompare id sig void => Sys2Proof.Machine.execProctorCompare id sig void s
  | .proctorVerdict id sig void => Sys2Proof.Machine.execProctorVerdict id sig void s
  | .gradebookFlush => Sys2Proof.Machine.execGradebookFlush s
  | .coreWatchdog c => Sys2Proof.Machine.execCoreWatchdog c s
  | .coreMemoryError c => Sys2Proof.Machine.execCoreMemoryError c s
  | .coreRestartComplete c => Sys2Proof.Machine.execCoreRestartComplete c s
  | .fwCoreHandover second => Sys2Proof.Machine.execFwCoreHandover second s
  | .fwSelfCheckTimeout => Sys2Proof.Machine.execFwSelfCheckTimeout s
  | .tileTestDue l => Sys2Proof.Machine.execTileTestDue l s
  | .testDone kind unit failed => Sys2Proof.Machine.execTestDone kind unit failed s
  | .testOverdue l => Sys2Proof.Machine.execTestOverdue l s
  | .boot second => Sys2Proof.Machine.execBoot second s
  | .functionReady n bad => Sys2Proof.Machine.execFunctionReady n bad s
  | .bringupTimeout n test => Sys2Proof.Machine.execBringupTimeout n test s
  | .perstDeassert => Sys2Proof.Machine.execPerstDeassert s
  | .enterCompliance => Sys2Proof.Machine.execEnterCompliance s
  | .bypass => Sys2Proof.Machine.execBypass s
  | .idcode => Sys2Proof.Machine.execIdcode s
  | .sample pins => Sys2Proof.Machine.execSample pins s
  | .preload bits => Sys2Proof.Machine.execPreload bits s
  | .extest pins bits => Sys2Proof.Machine.execExtest pins bits s
  | .clamp => Sys2Proof.Machine.execClamp s
  | .highz => Sys2Proof.Machine.execHighz s
  | .extestPulse pins bits => Sys2Proof.Machine.execExtestPulse pins bits s
  | .extestTrain pins bits => Sys2Proof.Machine.execExtestTrain pins bits s
  | .hbmWir h bits => Sys2Proof.Machine.execHbmWir h bits s
  | .hbmWdr h bits => Sys2Proof.Machine.execHbmWdr h bits s
  | .laneTest lanes counts => Sys2Proof.Machine.execLaneTest lanes counts s
  | .droopSupplyBack x => Sys2Proof.Machine.execDroopSupplyBack x s
  | .slotParameterWrite f slot off bytes => Sys2Proof.Machine.execSlotParameterWrite f slot off bytes s
  | .spdmGetCapabilities f => Sys2Proof.Machine.execSpdmGetCapabilities f s
  | .spdmNegotiateAlgorithms f => Sys2Proof.Machine.execSpdmNegotiateAlgorithms f s
  | .recessWorkDone p b => Sys2Proof.Machine.execRecessWorkDone p b s

end Sys2Proof.Machine
end

