-- ==== Sys2Proof/Machine/Tick.lean ====
section
/-! DEFINITION. One nanosecond of module time in which no command arrives: the ports send what falls due, and the islands of running
tiles lose the pulses that the power controls withhold (R354, R365, R474, R477; assumption 1). -/

namespace Sys2Proof.Machine

/-- Whether a job of some partition runs the tile at a site. -/
def State.siteRuns (s : State) (x : Nat) : Bool :=
  match (s.seatedAt x).bind s.partOf with
  | some p => (s.part p).state = .running || (s.part p).state = .preempting
  | none => false

/-- What the ns leaves at a site. -/
def State.pulsed (s : State) (x : Nat) (t : Tile) : Tile :=
  if s.siteRuns x then t.pulses (withheld (s.fraction x) s.now) else t

/-- The ns passes. -/
def State.tick (s : State) : State :=
  { s with now := s.now + 1
           ports := s.ports.mapIdx (fun q x => x.tick q s.now)
           tiles := s.tiles.map (fun e => (e.1, s.pulsed e.1 e.2)) }

end Sys2Proof.Machine
end

