-- ==== Sys2Proof/WellFormed.lean ====
section
/-! DEFINITION. When a command is one that its sender can form: reserved fields of an instruction word hold zero (R40), an access to a
window stays in it and on its alignment (R401, R405, R411), a named unit exists (R16, Table 16.7), and a wait takes at least one tc
(R58). The block gives every command an effect, well-formed or not; a reserved field, for one, raises ILLEGAL. -/

namespace Sys2Proof

/-- A synchronisation instruction's fields: which registers are reserved, and how many bits of imm14 are used (Table 2.4). -/
def sysFields (gdRes gsRes : Bool) (used : Nat) (gd gs : Reg) (imm : BitVec 14) : Bool :=
  !(gdRes && gd != 0) && !(gsRes && gs != 0) && decide (imm.toNat < 2 ^ used)

/-- Each check of a command, by what it holds to. -/
def Instr.wf (i : Instr) : Bool :=
  match i with
  -- reserved fields (R40)
  | .clz _ _ _ r => r == 0
  | .popc _ _ _ r => r == 0
  | .shli _ _ _ n => decide (n.toNat < 64)
  | .shri _ _ _ n => decide (n.toNat < 64)
  | .srai _ _ _ n => decide (n.toNat < 64)
  | .enter _ _ _ _ hi => hi == 0
  | .arrive _ _ _ _ hi => hi == 0
  | .wait _ _ _ _ hi => hi == 0
  | .waitc _ d a n => sysFields false false 4 d a n
  | .tsig _ d a n => sysFields true true 3 d a n
  | .twait _ d a n => sysFields true true 3 d a n
  | .fence _ d a n => sysFields true true 3 d a n
  | .halt _ d a n => sysFields true true 0 d a n
  | .exc _ d a n => sysFields true true 14 d a n
  | .eret _ d a n => sysFields true true 0 d a n
  | .csrR _ _ a _ => a == 0
  | .csrW _ d _ _ => d == 0
  | .engineIssue _ _ _ _ _ _ _ _ _ r0 => !r0
  -- a wait lasts at least one tc (R58)
  | .fullemptyComplete _ n => decide (0 < n)
  | .bellWaitComplete _ n => decide (0 < n)
  | .waitcComplete _ n => decide (0 < n)
  | .twaitComplete _ n => decide (0 < n)
  | .fenceComplete _ n => decide (0 < n)
  | .haltComplete _ n => decide (0 < n)
  | .queueWaitEnd _ n => decide (0 < n)
  | .resultWaitEnd _ n => decide (0 < n)
  -- host accesses (R401, R405, R411)
  | .registerWrite _ off wide _ => off.toNat % (if wide then 8 else 4) == 0
  | .bar2Write _ _ bytes => decide (0 < bytes.length)
  | .bar2Read _ _ n => decide (0 < n)
  | .slotParameterWrite _ _ off bytes => decide (8 ≤ off.toNat) && decide (off.toNat + bytes.length ≤ 256)
  -- frames are 272 bytes (Table 11.4)
  | .frameReceive _ frame => frame.length == 272
  -- units (R16, Table 16.7)
  | .patrolScrub u => decide (u < 2 ^ 33)
  | .testDone kind unit _ =>
    (kind == 1 && decide (unit < 3072)) || (kind == 2 && decide (unit < 3136)) || (kind == 3 && decide (unit < 256))
  | .throttleNoticeExpire _ origin => decide (origin < 4096)
  | .pldmGetSensorReading n => decide (n < 8)
  | _ => true

end Sys2Proof
end

