-- ==== Sys2Proof/Safety.lean ====
section
/-! DEFINITION. What counts as a safe run of the block, and what no step of it may undo, in the terms the statements use. -/

namespace Sys2Proof

open Machine

/-- A safe outcome: the block goes on. -/
def goesOn (o : Answer) : Bool :=
  match o with
  | .next _ => true
  | .fault _ => false
  | .refused _ => false

/-- R512, Table 17.1: every fuse blown in `a` is blown in `b`; the root keys stay, and once the module has left BLANK its UDS stays. -/
def fusesKept (a b : Otp) : Prop :=
  a.svn ≤ b.svn ∧ a.revoked &&& b.revoked = a.revoked ∧ a.lc ≤ b.lc ∧ (a.udsKill = true → b.udsKill = true) ∧ a.slots = b.slots ∧
    (0 < a.lc → a.uds = b.uds)

/-- A tile's stores are in canonical form: its scratchpad's bytes and full bits, and its operand cache. -/
def canonical (t : Tile) : Bool := Mem.wf t.pad.mem && Tab.rising t.pad.full && Mem.wf t.vx.cache

/-- Tiles by number in canonical form, each with its own stores so. -/
def tilesOk (m : Tab Tile) : Bool := Tab.rising m && m.all (fun e => canonical e.2)

/-- A function's command slots in canonical form. -/
def slotsOk (f : Fn) : Bool := Mem.wf f.slots && Tab.rising f.full

/-- The tiles that a pre-emption saved, in canonical form. -/
def savedOk (x : Part) : Bool :=
  match x.saved with
  | some v => tilesOk v.tiles
  | none => true

/-- Every addressed store in canonical form: host memory, the seating chart, HBM, the locker, the command slots, and the stores of every
tile, in place or saved. -/
def storesOk (s : State) : Bool :=
  Mem.wf s.host && Tab.rising s.seats && (Tab.rising s.hbm.cells && Tab.rising s.hbm.keys) &&
    (Tab.rising s.locker.cells && Tab.rising s.locker.keys) && tilesOk s.tiles && s.fns.toList.all slotsOk && s.parts.toList.all savedOk

/-! ### A tile's core, as the statements speak of it -/

/-- A job of partition `p` runs the tile of duty `l`; its core runs, waits for nothing and can fetch at its pc (R38, R58, R71); no stored
word of its scratchpad is wrong (R96), and its stores are in canonical form. -/
structure Ready (s : State) (p l : Nat) : Prop where
  runs : s.runs l = some p
  running : (s.tile l).core.run = .running
  free : (s.tile l).core.wait = none
  fetch : (s.tile l).fetchable (s.tile l).core.pc = true
  whole : (s.tile l).pad.ecc = []
  counted : (s.tile l).pad.corrWords = []
  sorted : canonical (s.tile l) = true

/-- No register of a list waits for an engine's value (R53). -/
abbrev noPend (t : Tile) (rs : List Reg) : Prop := ∀ r ∈ rs, t.core.isPend r = false

/-- `t'` is `t` but for the timing of the core: its tc, the tc in which its results are readable, and its loop buffer (R48, R49). -/
def upToTiming (t t' : Tile) : Prop :=
  t' = { t with core := { t.core with cycle := t'.core.cycle, ready := t'.core.ready, loopRows := t'.core.loopRows } }

/-- The command leaves the tile of duty `l` as `t2`, timing aside, and everything else of the module as it was. -/
def leaves (i : Instr) (s : State) (l : Nat) (t2 : Tile) : Prop :=
  ∃ t', exec i s = .next (s.setTile l t') ∧ upToTiming t2 t' ∧ (s.tile l).core.cycle ≤ t'.core.cycle

/-- A tile with another core. -/
def withCore (t : Tile) (c : Core) : Tile := { t with core := c }

/-- The registers after a write: a write to g0 is discarded (R37). -/
def regAfter (c : Core) (gd : Reg) (v : Word) : Vector Word 32 := if gd = 0 then c.g else c.g.set gd.toNat v

/-- A core past the instruction at its pc. -/
def past (c : Core) : Core := { c with pc := c.pc + 4, instret := c.instret + 1 }

/-- A core that has written one register and is past the instruction. -/
def wrote (c : Core) (gd : Reg) (v : Word) : Core := { past c with g := regAfter c gd v }

/-- A core that waits from now on (R58, R59). -/
def waits (c : Core) (w : WaitOn) : Core := { c with wait := some ⟨w, c.waitlimit⟩ }

/-- A core whose wait has ended after `n` tc (R72). -/
def woken (c : Core) (n : Nat) : Core := { c with wait := none, waitcycles := c.waitcycles + BitVec.ofNat 64 n }

/-- A core in its handler after an exception that it takes (R61, R63). -/
def inHandler (c : Core) (code : Nat) (info : Word) (epc : BitVec 20) : Core :=
  { c with cause := BitVec.ofNat 64 code, info := info, epc := epc, hm := true, wait := none
           pc := BitVec.ofNat 20 (c.evec.toNat / 4 % 2 ^ 18 * 4) }

/-- The command raises a resumable synchronous exception of the core that a handler takes: the tile is in its handler, the fault log has
its record (R63, R65), and nothing else of the module has changed. -/
def traps (i : Instr) (s : State) (p l : Nat) (code : Nat) (info : Word) (epc : BitVec 20) : Prop :=
  ∃ t' n, exec i s = .next ((s.setTile l t').partLog p 1 l [.d code, .d info.toNat, .h epc.toNat, .d n]) ∧
    upToTiming (withCore (s.tile l) (inHandler (s.tile l).core code info epc)) t'

/-- The tile takes resumable exceptions in its handler (R63, R64). -/
abbrev handles (t : Tile) : Prop := bit t.core.evec 0 = true ∧ t.core.hm = false

end Sys2Proof
end

