-- ==== Sys2Proof/Certificates/Slice0/Obligations.lean ====
section
/-! DEFINITION. The statements of this row for the provers, with the tables of the manual that they quantify over. A command's constructor
stands in a table beside what the manual says it does. -/

namespace Sys2Proof.Claims

/-- Table 2.3: the register operations with two sources, and the result of each. -/
def regTable : List ((LTile → Reg → Reg → Reg → Instr) × (Word → Word → Word)) :=
  [(.add, fun a b => BitVec.ofNat 64 (a.toNat + b.toNat)), (.sub, fun a b => BitVec.ofInt 64 (a.toInt - b.toInt)), (.and, fun a b => a &&& b),
    (.or, fun a b => a ||| b), (.xor, fun a b => a ^^^ b), (.shl, fun a b => BitVec.ofNat 64 (a.toNat * 2 ^ (b.toNat % 64))),
    (.shr, fun a b => BitVec.ofNat 64 (a.toNat / 2 ^ (b.toNat % 64))), (.sra, fun a b => BitVec.ofInt 64 (a.toInt / 2 ^ (b.toNat % 64))),
    (.slt, fun a b => if a.toInt < b.toInt then 1 else 0), (.sltu, fun a b => if a.toNat < b.toNat then 1 else 0),
    (.min, fun a b => BitVec.ofInt 64 (Min.min a.toInt b.toInt)), (.max, fun a b => BitVec.ofInt 64 (Max.max a.toInt b.toInt)),
    (.minu, fun a b => BitVec.ofNat 64 (Min.min a.toNat b.toNat)), (.maxu, fun a b => BitVec.ofNat 64 (Max.max a.toNat b.toNat)),
    (.mul, fun a b => BitVec.ofNat 64 (a.toNat * b.toNat)), (.mulh, fun a b => BitVec.ofInt 64 (a.toInt * b.toInt / 2 ^ 64)),
    (.mulhu, fun a b => BitVec.ofNat 64 (a.toNat * b.toNat / 2 ^ 64))]

/-- R44 and Table 2.3: the divisions, by the case of their operands. -/
def divTable : List ((LTile → Reg → Reg → Reg → Instr) × (Word → Word → Word)) :=
  [(.div, fun a b => if b = 0 then BitVec.allOnes 64 else BitVec.ofInt 64 (Int.tdiv a.toInt b.toInt)),
    (.divu, fun a b => if b = 0 then BitVec.allOnes 64 else BitVec.ofNat 64 (a.toNat / b.toNat)),
    (.rem, fun a b => if b = 0 then a else BitVec.ofInt 64 (Int.tmod a.toInt b.toInt)),
    (.remu, fun a b => if b = 0 then a else BitVec.ofNat 64 (a.toNat % b.toNat))]

/-- Table 2.3: the operations with one source register and an immediate, how each extends imm14, and the result. -/
def immTable : List ((LTile → Reg → Reg → BitVec 14 → Instr) × (Word → BitVec 14 → Word)) :=
  [(.addi, fun a i => BitVec.ofInt 64 (a.toInt + i.toInt)), (.andi, fun a i => a &&& BitVec.ofNat 64 i.toNat),
    (.ori, fun a i => a ||| BitVec.ofNat 64 i.toNat), (.xori, fun a i => a ^^^ BitVec.ofNat 64 i.toNat),
    (.slti, fun a i => if a.toInt < i.toInt then 1 else 0), (.sltiu, fun a i => if a.toNat < (BitVec.ofInt 64 i.toInt).toNat then 1 else 0)]

/-- Table 2.3: the shifts by an immediate; imm14[13:6] is reserved. -/
def shiftTable : List ((LTile → Reg → Reg → BitVec 14 → Instr) × (Word → Nat → Word)) :=
  [(.shli, fun a n => BitVec.ofNat 64 (a.toNat * 2 ^ n)), (.shri, fun a n => BitVec.ofNat 64 (a.toNat / 2 ^ n)),
    (.srai, fun a n => BitVec.ofInt 64 (a.toInt / 2 ^ n))]

end Sys2Proof.Claims

open Sys2Proof Sys2Proof.Machine Sys2Proof.Claims

/-- A step takes the command at the front of the queue: it is `exec` of that command on the state with the queue's rest. -/
def Sys2Proof.Claims.stepTakesFront : Prop :=
  ∀ (s : State) (c : Instr) (rest : List Instr), s.pending = c :: rest → step s = exec c { s with pending := rest }

/-- R43, R37: ADD to MULHU and CLZ, POPC of Table 2.3 write the result of their row to gd, from the values that gs1 and gs2 held, a write to
g0 being discarded; nothing else of the module changes but the pc, the retired count and the core's timing. -/
def Sys2Proof.Claims.registerOperations : Prop :=
  (∀ e ∈ regTable, ∀ (s : State) (p : Nat) (l : LTile) (gd gs1 gs2 : Reg), Ready s p l → noPend (s.tile l) [gd, gs1, gs2] →
    leaves (e.1 l gd gs1 gs2) s l
      (withCore (s.tile l) (wrote (s.tile l).core gd (e.2 ((s.tile l).core.rd gs1) ((s.tile l).core.rd gs2))))) ∧
  (∀ (s : State) (p : Nat) (l : LTile) (gd gs1 : Reg), Ready s p l → noPend (s.tile l) [gd, gs1] →
    ∃ v, leaves (.clz l gd gs1 0) s l (withCore (s.tile l) (wrote (s.tile l).core gd v)) ∧ v.toNat ≤ 64 ∧
      (∀ k < v.toNat, ((s.tile l).core.rd gs1).getLsbD (63 - k) = false) ∧
      (v.toNat < 64 → ((s.tile l).core.rd gs1).getLsbD (63 - v.toNat) = true)) ∧
  (∀ (s : State) (p : Nat) (l : LTile) (gd gs1 : Reg), Ready s p l → noPend (s.tile l) [gd, gs1] →
    leaves (.popc l gd gs1 0) s l (withCore (s.tile l) (wrote (s.tile l).core gd
      (BitVec.ofNat 64 ((List.range 64).countP (fun k => ((s.tile l).core.rd gs1).getLsbD k))))))

/-- R44: the divisions of Table 2.3 never raise an exception, give the stated quotient or remainder, and take 34 tc whatever the operands. -/
def Sys2Proof.Claims.divisions : Prop :=
  ∀ e ∈ divTable, ∀ (s : State) (p : Nat) (l : LTile) (gd gs1 gs2 : Reg), Ready s p l → noPend (s.tile l) [gd, gs1, gs2] →
    ∃ t', exec (e.1 l gd gs1 gs2) s = .next (s.setTile l t') ∧
      upToTiming (withCore (s.tile l) (wrote (s.tile l).core gd (e.2 ((s.tile l).core.rd gs1) ((s.tile l).core.rd gs2)))) t' ∧
      (s.tile l).core.cycle < t'.core.cycle ∧ (gd ≠ 0 → t'.core.ready[gd.toNat] + 1 = t'.core.cycle + 34)

/-- R41, R43: the immediate operations of Table 2.3, the shifts among them, and LIU. -/
def Sys2Proof.Claims.immediateOperations : Prop :=
  (∀ e ∈ immTable, ∀ (s : State) (p : Nat) (l : LTile) (gd gs1 : Reg) (imm : BitVec 14), Ready s p l → noPend (s.tile l) [gd, gs1] →
    leaves (e.1 l gd gs1 imm) s l (withCore (s.tile l) (wrote (s.tile l).core gd (e.2 ((s.tile l).core.rd gs1) imm)))) ∧
  (∀ e ∈ shiftTable, ∀ (s : State) (p : Nat) (l : LTile) (gd gs1 : Reg) (imm : BitVec 14), imm.toNat < 64 → Ready s p l →
    noPend (s.tile l) [gd, gs1] →
    leaves (e.1 l gd gs1 imm) s l (withCore (s.tile l) (wrote (s.tile l).core gd (e.2 ((s.tile l).core.rd gs1) imm.toNat)))) ∧
  (∀ (s : State) (p : Nat) (l : LTile) (gd : Reg) (imm : BitVec 19), Ready s p l → noPend (s.tile l) [gd] →
    leaves (.liu l gd imm) s l (withCore (s.tile l) (wrote (s.tile l).core gd (BitVec.ofInt 64 (imm.toInt * 2 ^ 14)))))

namespace Sys2Proof.Claims

/-- Table 2.3: the loads, their size in bytes, and how the value read is extended. -/
def loadTable : List ((LTile → Reg → Reg → BitVec 6 → BitVec 8 → Instr) × Nat × (Nat → Word)) :=
  [(.ldB, 1, fun v => BitVec.ofInt 64 (BitVec.ofNat 8 v).toInt), (.ldBu, 1, fun v => BitVec.ofNat 64 v),
    (.ldH, 2, fun v => BitVec.ofInt 64 (BitVec.ofNat 16 v).toInt), (.ldHu, 2, fun v => BitVec.ofNat 64 v),
    (.ldW, 4, fun v => BitVec.ofInt 64 (BitVec.ofNat 32 v).toInt), (.ldWu, 4, fun v => BitVec.ofNat 64 v),
    (.ldD, 8, fun v => BitVec.ofNat 64 v), (.ldF, 8, fun v => BitVec.ofNat 64 v)]

/-- Table 2.3: the stores, their size in bytes, and whether the word is set full (ST.F, R85). -/
def storeTable : List ((LTile → Reg → Reg → BitVec 6 → BitVec 8 → Instr) × Nat × Bool) :=
  [(.stB, 1, false), (.stH, 2, false), (.stW, 4, false), (.stD, 8, false), (.stF, 8, true)]

/-- R42: the byte offset that an access of `size` bytes addresses. -/
def offsetOf (t : Tile) (gs : Reg) (imm : BitVec 8) (size : Nat) : Nat := (t.core.rd gs).toNat + imm.toNat * size

/-- R42: the checks of an access pass. -/
abbrev allowed (w : Word) (a size : Nat) (write : Bool) : Prop :=
  hValid w = true ∧ (if write then hW w else hR w) = true ∧ a + size ≤ hLen w ∧ a % size = 0

/-- R85, R86: the full bit of the word at an offset of a buffer. -/
def fullAt (t : Tile) (w : Word) (a : Nat) : Bool := t.pad.isFull (wordOf (hPlace w a))

/-- A scratchpad after a store of the little-endian bytes of `v` at an offset of a buffer, with the full bit of the word afterwards where
the access gives it one: every other byte and every other full bit is as before. -/
def stored (q q' : Pad) (w : Word) (a size : Nat) (v : Word) (full : Option Bool) : Prop :=
  (∀ i < size, (Mem.read q'.mem (hPlace w (a + i))).toNat = v.toNat / 256 ^ i % 256) ∧
  (∀ b, (∀ i < size, b ≠ hPlace w (a + i)) → Mem.read q'.mem b = Mem.read q.mem b) ∧
  (∀ k, q'.isFull k = if k = wordOf (hPlace w a) then full.getD (q.isFull k) else q.isFull k) ∧
  q' = { q with mem := q'.mem, full := q'.full }

end Sys2Proof.Claims

/-- R42, R43, R45: a load that passes the checks of R42 writes to gt the bytes of the buffer at offset a, extended as its row says. -/
def Sys2Proof.Claims.loads : Prop :=
  ∀ e ∈ loadTable, ∀ (s : State) (p : Nat) (l : LTile) (gt gs : Reg) (h : BitVec 6) (imm : BitVec 8),
    let t := s.tile l
    let w := t.pad.h[h.toNat]
    let a := offsetOf t gs imm e.2.1
    Ready s p l → noPend t [gt, gs] → allowed w a e.2.1 false →
    leaves (e.1 l gt gs h imm) s l (withCore t (wrote t.core gt (e.2.2 (leVal ((List.range e.2.1).map (fun i => Mem.read t.pad.mem (hPlace w (a + i))))))))

/-- R43: LA gives the local address of a byte of the buffer. -/
def Sys2Proof.Claims.localAddress : Prop :=
  ∀ (s : State) (p : Nat) (l : LTile) (gt gs : Reg) (h : BitVec 6) (imm : BitVec 8),
    let t := s.tile l
    let w := t.pad.h[h.toNat]
    let a := offsetOf t gs imm 1
    Ready s p l → noPend t [gt, gs] → hValid w = true → a + 1 ≤ hLen w →
    leaves (.la l gt gs h imm) s l (withCore t (wrote t.core gt (BitVec.ofNat 64 (hBase w + a))))

/-- R42, R43, R85: a store that passes the checks writes the low bytes of gt at offset a of the buffer and no other byte; ST.F also sets the
word's full bit, and no other store changes one. -/
def Sys2Proof.Claims.stores : Prop :=
  ∀ e ∈ storeTable, ∀ (s : State) (p : Nat) (l : LTile) (gt gs : Reg) (h : BitVec 6) (imm : BitVec 8),
    let t := s.tile l
    let w := t.pad.h[h.toNat]
    let a := offsetOf t gs imm e.2.1
    Ready s p l → noPend t [gt, gs] → allowed w a e.2.1 true →
    ∃ q, leaves (e.1 l gt gs h imm) s l (withCore { t with pad := q } (past t.core)) ∧
      stored t.pad q w a e.2.1 (t.core.rd gt) (if e.2.2 then some true else none)

/-- R86: LD.FE on a full word returns it and leaves it empty; ST.EF on an empty word stores and leaves it full; each waits while the word is
in the other state, and FULLEMPTY_COMPLETE does the access once the word is ready. -/
def Sys2Proof.Claims.fullEmpty : Prop :=
  (∀ (s : State) (p : Nat) (l : LTile) (gt gs : Reg) (h : BitVec 6) (imm : BitVec 8),
    let t := s.tile l
    let w := t.pad.h[h.toNat]
    let a := offsetOf t gs imm 8
    Ready s p l → noPend t [gt, gs] → allowed w a 8 false →
    if fullAt t w a then
      leaves (.ldFe l gt gs h imm) s l (withCore { t with pad := t.pad.setFull (wordOf (hPlace w a)) false }
        (wrote t.core gt (BitVec.ofNat 64 (leVal ((List.range 8).map (fun i => Mem.read t.pad.mem (hPlace w (a + i))))))))
    else leaves (.ldFe l gt gs h imm) s l (withCore t (waits t.core (.fullempty (.ldFe l gt gs h imm) true gt h (BitVec.ofNat 64 a))))) ∧
  (∀ (s : State) (p : Nat) (l : LTile) (gt gs : Reg) (h : BitVec 6) (imm : BitVec 8),
    let t := s.tile l
    let w := t.pad.h[h.toNat]
    let a := offsetOf t gs imm 8
    Ready s p l → noPend t [gt, gs] → allowed w a 8 true →
    if fullAt t w a then
      leaves (.stEf l gt gs h imm) s l (withCore t (waits t.core (.fullempty (.stEf l gt gs h imm) false gt h (BitVec.ofNat 64 a))))
    else
      ∃ q, leaves (.stEf l gt gs h imm) s l (withCore { t with pad := q } (past t.core)) ∧ stored t.pad q w a 8 (t.core.rd gt) (some true)) ∧
  (∀ (s : State) (p : Nat) (l : LTile) (i : Instr) (load : Bool) (gt : Reg) (h : BitVec 6) (off lim : Word) (n : Nat),
    let t := s.tile l
    let w := t.pad.h[h.toNat]
    let a := off.toNat
    s.runs l = some p → t.core.wait = some ⟨.fullempty i load gt h off, lim⟩ → t.pad.ecc = [] → t.pad.corrWords = [] → canonical t = true →
    limitAllows lim n = true → allowed w a 8 (!load) → fullAt t w a = load →
    if load then
      leaves (.fullemptyComplete l n) s l (withCore { t with pad := t.pad.setFull (wordOf (hPlace w a)) false }
        (wrote (woken t.core n) gt (BitVec.ofNat 64 (leVal ((List.range 8).map (fun i => Mem.read t.pad.mem (hPlace w (a + i))))))))
    else
      ∃ q, leaves (.fullemptyComplete l n) s l (withCore { t with pad := q } (past (woken t.core n))) ∧
        stored t.pad q w a 8 (t.core.rd gt) (some true)) ∧
  (∀ (s : State) (p : Nat) (l : LTile) (i : Instr) (load : Bool) (gt : Reg) (h : BitVec 6) (off lim : Word) (n : Nat),
    let t := s.tile l
    s.runs l = some p → t.core.wait = some ⟨.fullempty i load gt h off, lim⟩ → t.pad.corrWords = [] → limitAllows lim n = true →
    hValid t.pad.h[h.toNat] = false →
    leaves (.fullemptyComplete l n) s l (withCore { t with pad := { t.pad with closed := true, closedH := h } } (past (woken t.core n))))

/-- R42: an access that fails its checks performs no part and raises RIGHTS, BOUNDS or MISALIGN, the first that applies, with the offset, the
handle and whether it writes in tc.info. -/
def Sys2Proof.Claims.accessChecks : Prop :=
  ∀ (s : State) (p : Nat) (l : LTile) (gt gs : Reg) (h : BitVec 6) (imm : BitVec 8),
    let t := s.tile l
    let w := t.pad.h[h.toNat]
    Ready s p l → noPend t [gt, gs] → handles t →
    ∀ (mk : LTile → Reg → Reg → BitVec 6 → BitVec 8 → Instr) (size : Nat) (write : Bool),
      ((∃ f, (mk, size, f) ∈ loadTable) ∧ write = false) ∨ ((∃ f, (mk, size, f) ∈ storeTable) ∧ write = true) ∨
        (mk = .ldFe ∧ size = 8 ∧ write = false) ∨ (mk = .stEf ∧ size = 8 ∧ write = true) →
      let a := offsetOf t gs imm size
      let info : Word := BitVec.ofNat 64 (a % 2 ^ 20 + h.toNat * 2 ^ 24 + (if write then 2 ^ 32 else 0))
      ((hValid w = false ∨ (if write then hW w else hR w) = false) → traps (mk l gt gs h imm) s p l 0x05 info t.core.pc) ∧
      (hValid w = true → (if write then hW w else hR w) = true → hLen w < a + size → traps (mk l gt gs h imm) s p l 0x04 info t.core.pc) ∧
      (hValid w = true → (if write then hW w else hR w) = true → a + size ≤ hLen w → a % size ≠ 0 →
        traps (mk l gt gs h imm) s p l 0x03 info t.core.pc)

namespace Sys2Proof.Claims

/-- Table 2.3: the conditional branches and their comparisons. -/
def branchTable : List ((LTile → Reg → Reg → BitVec 14 → Instr) × (Word → Word → Prop)) :=
  [(.beq, fun a b => a = b), (.bne, fun a b => a ≠ b), (.blt, fun a b => a.toInt < b.toInt), (.bge, fun a b => b.toInt ≤ a.toInt),
    (.bltu, fun a b => a.toNat < b.toNat), (.bgeu, fun a b => b.toNat ≤ a.toNat)]

/-- A core that has gone to another pc. -/
def wentTo (c : Core) (pc : BitVec 20) : Core := { c with pc := pc, instret := c.instret + 1 }

end Sys2Proof.Claims

/-- R41, R43: a conditional branch goes to PC + 4 × off14 when its comparison holds and to the next instruction otherwise; no register
changes. -/
def Sys2Proof.Claims.branches : Prop :=
  ∀ e ∈ branchTable, ∀ (s : State) (p : Nat) (l : LTile) (gs1 gs2 : Reg) (off : BitVec 14),
    let t := s.tile l
    let target := BitVec.ofInt 20 (t.core.pc.toNat + 4 * off.toInt)
    Ready s p l → noPend t [gs1, gs2] → t.core.pc.toNat % 4 = 0 →
    (e.2 (t.core.rd gs1) (t.core.rd gs2) → t.fetchable target = true → leaves (e.1 l gs1 gs2 off) s l (withCore t (wentTo t.core target))) ∧
    (¬ e.2 (t.core.rd gs1) (t.core.rd gs2) → leaves (e.1 l gs1 gs2 off) s l (withCore t (past t.core)))

/-- R41, R43: JAL and JALR write PC + 4 to gd and go to their target, of which JALR reads gs1 before it writes gd. -/
def Sys2Proof.Claims.jumps : Prop :=
  (∀ (s : State) (p : Nat) (l : LTile) (gd : Reg) (off : BitVec 19),
    let t := s.tile l
    let target := BitVec.ofInt 20 (t.core.pc.toNat + 4 * off.toInt)
    Ready s p l → noPend t [gd] → t.core.pc.toNat % 4 = 0 → t.fetchable target = true →
    leaves (.jal l gd off) s l (withCore t { wentTo t.core target with g := regAfter t.core gd (BitVec.ofNat 64 ((t.core.pc.toNat + 4) % 2 ^ 20)) })) ∧
  (∀ (s : State) (p : Nat) (l : LTile) (gd gs1 : Reg) (imm : BitVec 14),
    let t := s.tile l
    let target := BitVec.ofInt 20 ((t.core.rd gs1).toNat + 4 * imm.toInt)
    Ready s p l → noPend t [gd, gs1] → target.toNat % 4 = 0 → t.fetchable target = true →
    leaves (.jalr l gd gs1 imm) s l (withCore t { wentTo t.core target with g := regAfter t.core gd (BitVec.ofNat 64 ((t.core.pc.toNat + 4) % 2 ^ 20)) }))

/-- R38: an instruction at a pc that cannot be fetched does not execute: FETCH is raised with the offset. -/
def Sys2Proof.Claims.fetchChecked : Prop :=
  ∀ e ∈ regTable, ∀ (s : State) (p : Nat) (l : LTile) (gd gs1 gs2 : Reg),
    let t := s.tile l
    s.runs l = some p → t.core.run = .running → t.core.wait = none → t.pad.corrWords = [] → t.fetchable t.core.pc = false → handles t →
    traps (e.1 l gd gs1 gs2) s p l 0x02 (BitVec.ofNat 64 t.core.pc.toNat) t.core.pc

/-- R40: a nonzero reserved field raises ILLEGAL with the instruction word, and nothing is executed. -/
def Sys2Proof.Claims.reservedFields : Prop :=
  ∀ (s : State) (p : Nat) (l : LTile),
    let t := s.tile l
    Ready s p l → handles t →
    (∀ (gd gs1 gs2 : Reg), gs2 ≠ 0 → traps (.clz l gd gs1 gs2) s p l 0x01
      (BitVec.ofNat 64 (0x01000000 + gd.toNat * 2 ^ 19 + gs1.toNat * 2 ^ 14 + gs2.toNat * 2 ^ 9 + 0x020)) t.core.pc) ∧
    (∀ (gd gs1 : Reg) (imm : BitVec 14), 64 ≤ imm.toNat → traps (.shli l gd gs1 imm) s p l 0x01
      (BitVec.ofNat 64 (0x06000000 + gd.toNat * 2 ^ 19 + gs1.toNat * 2 ^ 14 + imm.toNat)) t.core.pc) ∧
    (∀ (gd gs : Reg) (imm : BitVec 14), gd ≠ 0 ∨ gs ≠ 0 ∨ imm ≠ 0 → traps (.halt l gd gs imm) s p l 0x01
      (BitVec.ofNat 64 (0x45000000 + gd.toNat * 2 ^ 19 + gs.toNat * 2 ^ 14 + imm.toNat)) t.core.pc) ∧
    (∀ (gd gs : Reg) (imm : BitVec 14), csrKnown imm.toNat = false → traps (.csrR l gd gs imm) s p l 0x01
      (BitVec.ofNat 64 (0x48000000 + gd.toNat * 2 ^ 19 + gs.toNat * 2 ^ 14 + imm.toNat)) t.core.pc)

/-- R211, R212, R214: ENTER and ARRIVE on a bell that exists, of which the tile is a member, with no entry under way that has been seen
late and fewer than two epochs outstanding, make the tile's arrival for the next epoch, with the flags of gs[7:0]; ENTER then waits for
that epoch and ARRIVE returns a record with the epoch and status ARRIVED. -/
def Sys2Proof.Claims.bellEntry : Prop :=
  ∀ (s : State) (p : Nat) (l : LTile) (gd gs : Reg) (id : BitVec 6),
    let t := s.tile l
    let x := t.bl.bells[id.toNat]
    let v := t.core.rd gs
    let bl := { t.bl with bells := t.bl.bells.set id.toNat { x with next := x.next + 1, out := x.out + 1 } }
    let entered (s' : State) : State := s'.modPart p (fun y => { y with
      onWay := y.onWay ++ [⟨l.val, id.toNat, x.next, v.setWidth 8, bit v 8, t.xcq.issued, t.xc.walked, none⟩] })
    Ready s p l → noPend t [gd, gs] → x.exists_ = true → x.member = true → x.late = false → x.out < 2 → t.bl.resume = none →
    t.sr.ovfpend = false → t.sr.fatal = false →
    (∃ t', exec (.enter l gd gs id 0) s = .next (entered (s.setTile l t')) ∧
      upToTiming (withCore { t with bl := bl } (waits t.core (.bell gd id x.next))) t') ∧
    (x.recess = false → ∃ t', exec (.arrive l gd gs id 0) s = .next (entered (s.setTile l t')) ∧
      upToTiming (withCore { t with bl := bl } (wrote t.core gd (BitVec.ofNat 64 (x.next.toNat * 2 ^ 32 + 5 * 2 ^ 9)))) t')

/-- R214, R215, R58: WAIT on a bell with nothing outstanding returns its record at once; with an epoch outstanding it waits for the oldest;
BELL_WAIT_COMPLETE ends the wait of ENTER or WAIT once that epoch has been released, with the release record in gd. -/
def Sys2Proof.Claims.bellWaits : Prop :=
  (∀ (s : State) (p : Nat) (l : LTile) (gd gs : Reg) (id : BitVec 6),
    let t := s.tile l
    let x := t.bl.bells[id.toNat]
    Ready s p l → noPend t [gd] → x.exists_ = true → x.member = true → x.recess = false → x.late = false → t.bl.resume = none →
    if x.out = 0 then leaves (.wait l gd gs id 0) s l (withCore t (wrote t.core gd x.rel))
    else leaves (.wait l gd gs id 0) s l (withCore t (waits t.core (.bell gd id (x.next - BitVec.ofNat 32 x.out))))) ∧
  (∀ (s : State) (p : Nat) (l : LTile) (gd : Reg) (id : BitVec 6) (e : BitVec 32) (lim : Word) (n : Nat),
    let t := s.tile l
    let x := t.bl.bells[id.toNat]
    s.runs l = some p → t.core.wait = some ⟨.bell gd id e, lim⟩ → t.pad.corrWords = [] → limitAllows lim n = true →
    x.out < serialDist x.next e → serialDist x.next e < 2 ^ 31 →
    leaves (.bellWaitComplete l n) s l (withCore t (wrote (woken t.core n) gd x.rel)))

/-- R213: a bell entered two epochs ahead raises BELL_OVERRUN, which is also posted to the partition's function, and makes no arrival. -/
def Sys2Proof.Claims.bellOverrun : Prop :=
  ∀ (s : State) (p : Nat) (l : LTile) (gd gs : Reg) (id : BitVec 6),
    let t := s.tile l
    let x := t.bl.bells[id.toNat]
    Ready s p l → noPend t [gd, gs] → handles t → x.exists_ = true → x.member = true → x.late = false → x.out = 2 → t.bl.resume = none →
    ∀ i ∈ [Instr.enter l gd gs id 0, .arrive l gd gs id 0], ∃ t' n, exec i s = .next (((s.setTile l t').partEvent p 0x1002 [.h l, .h id.toNat, .h x.next.toNat]).partLog p 1 l
        [.d 0x07, .d id.toNat, .h t.core.pc.toNat, .d n]) ∧
      upToTiming (withCore t (inHandler t.core 0x07 (BitVec.ofNat 64 id.toNat) t.core.pc)) t'

/-- R43, R54, R56, R92: WAITC, TWAIT, TSIG and FENCE whose condition holds complete at once, and those whose condition does not hold wait. -/
def Sys2Proof.Claims.synchronisation : Prop :=
  ∀ (s : State) (p : Nat) (l : LTile), Ready s p l →
    let t := s.tile l
    (∀ (gd gs : Reg) (k : BitVec 4), noPend t [gd, gs] →
      let v := t.pad.ctr[k.toNat]
      if (t.core.rd gs).toNat ≤ v.toNat then leaves (.waitc l gd gs (k.setWidth 14)) s l (withCore t (wrote t.core gd v))
      else leaves (.waitc l gd gs (k.setWidth 14)) s l (withCore t (waits t.core (.waitc gd k (t.core.rd gs))))) ∧
    (∀ k : BitVec 3,
      let taken := { past t.core with tokens := t.core.tokens.set k.toNat (t.core.tokens[k.toNat] - 1) }
      if t.contenders k 3 < (t.core.tokens[k.toNat]).toNat then leaves (.twait l 0 0 (k.setWidth 14)) s l (withCore t taken)
      else leaves (.twait l 0 0 (k.setWidth 14)) s l (withCore t (waits t.core (.twait k)))) ∧
    (∀ k : BitVec 3, t.core.tokens[k.toNat] ≠ 15 → leaves (.tsig l 0 0 (k.setWidth 14)) s l
      (withCore t { past t.core with tokens := t.core.tokens.set k.toNat (t.core.tokens[k.toNat] + 1) })) ∧
    (∀ mask : BitVec 3,
      let mark (b : Bool) (q : EngQ) : Option Nat := if b then some q.issued else none
      let done (b : Bool) (q : EngQ) : Prop := b = true → q.issued ≤ q.completed
      (done (mask.getLsbD 0) t.mxq → done (mask.getLsbD 1) t.vxq → done (mask.getLsbD 2) t.xcq →
        leaves (.fence l 0 0 (mask.setWidth 14)) s l (withCore t (past t.core))) ∧
      (¬ (done (mask.getLsbD 0) t.mxq ∧ done (mask.getLsbD 1) t.vxq ∧ done (mask.getLsbD 2) t.xcq) →
        leaves (.fence l 0 0 (mask.setWidth 14)) s l
          (withCore t (waits t.core (.fence (mark (mask.getLsbD 0) t.mxq) (mark (mask.getLsbD 1) t.vxq) (mark (mask.getLsbD 2) t.xcq))))))

/-- R58, R60, R72: a WAITC, TWAIT or FENCE wait ends in the tc after its condition became true, within its limit, has its effect then, and
adds its length to tc.waitcycles. -/
def Sys2Proof.Claims.waitsEnd : Prop :=
  ∀ (s : State) (p : Nat) (l : LTile) (lim : Word) (n : Nat),
    let t := s.tile l
    s.runs l = some p → t.pad.corrWords = [] → 0 < n → (lim = 0 ∨ n ≤ lim.toNat + 1) →
    (∀ (gd : Reg) (k : BitVec 4) (target : Word), t.core.wait = some ⟨.waitc gd k target, lim⟩ → target.toNat ≤ (t.pad.ctr[k.toNat]).toNat →
      leaves (.waitcComplete l n) s l (withCore t (wrote (woken t.core n) gd t.pad.ctr[k.toNat]))) ∧
    (∀ k : BitVec 3, t.core.wait = some ⟨.twait k, lim⟩ → t.contenders k 3 < (t.core.tokens[k.toNat]).toNat →
      leaves (.twaitComplete l n) s l
        (withCore t { past (woken t.core n) with tokens := t.core.tokens.set k.toNat (t.core.tokens[k.toNat] - 1) })) ∧
    (∀ mx vx xc : Option Nat, t.core.wait = some ⟨.fence mx vx xc, lim⟩ → (∀ k, mx = some k → k ≤ t.mxq.completed) →
      (∀ k, vx = some k → k ≤ t.vxq.completed) → (∀ k, xc = some k → k ≤ t.xcq.completed) →
      leaves (.fenceComplete l n) s l (withCore t (past (woken t.core n))))

/-- R69, R446: HALT with every queue empty and every engine instruction complete stops the core with RUN 2; with work left it waits, and
HALT_COMPLETE stops it later; a job whose other tiles have not all halted goes on. -/
def Sys2Proof.Claims.halts : Prop :=
  ∀ (s : State) (p : Nat) (l : LTile),
    let t := s.tile l
    let drained : Prop := ∀ q ∈ [t.mxq, t.vxq, t.xcq], q.waiting = [] ∧ q.started = []
    let others : Prop := ∃ k ∈ (s.part p).tiles, (s.seat k).site ≠ (s.seat l).site ∧ (s.tile k).core.run ≠ .halted
    (Ready s p l → drained → others → leaves (.halt l 0 0 0) s l (withCore t { past t.core with run := .halted })) ∧
    (Ready s p l → ¬ drained → leaves (.halt l 0 0 0) s l (withCore t (waits t.core .halt))) ∧
    (∀ (lim : Word) (n : Nat), s.runs l = some p → t.pad.corrWords = [] → t.core.wait = some ⟨.halt, lim⟩ → limitAllows lim n = true → drained →
      others → leaves (.haltComplete l n) s l (withCore t { past (woken t.core n) with run := .halted }))

/-- R61, R63, R65: EXC raises SOFTWARE with imm14 in tc.info and the next instruction in tc.epc; a handler takes it without a record in the
fault log. ERET in handler mode goes to tc.epc and leaves handler mode; outside handler mode it raises ILLEGAL (R64). -/
def Sys2Proof.Claims.handlers : Prop :=
  ∀ (s : State) (p : Nat) (l : LTile), Ready s p l →
    let t := s.tile l
    (∀ imm : BitVec 14, handles t → leaves (.exc l 0 0 imm) s l (withCore t
      { inHandler t.core 0x09 (BitVec.ofNat 64 imm.toNat) (t.core.pc + 4) with instret := t.core.instret + 1 })) ∧
    (t.core.hm = true → t.core.epc.toNat % 4 = 0 → t.fetchable t.core.epc = true →
      leaves (.eret l 0 0 0) s l (withCore t { wentTo t.core t.core.epc with hm := false })) ∧
    (handles t → traps (.eret l 0 0 0) s p l 0x01 0x47000000 t.core.pc)

/-- R59, R60, R61: a wait whose count reaches its nonzero limit with its condition false ends with WAIT_LIMIT, whose tc.info holds the wait
kind, at the waiting instruction; with a limit of 0 it never does, nor when the condition holds. -/
def Sys2Proof.Claims.waitLimits : Prop :=
  ∀ (s : State) (p : Nat) (l : LTile) (w : WaitOn) (lim : Word),
    let t := s.tile l
    s.runs l = some p → t.core.wait = some ⟨w, lim⟩ → t.pad.corrWords = [] → (∀ gd id e, w ≠ .bell gd id e) → t.bl.resume = none →
    (lim ≠ 0 → t.waitMet w = false → handles t →
      ∃ t' n, exec (.waitLimit l) s = .next ((s.setTile l t').partLog p 1 l [.d 0x06, .d w.kind, .h t.core.pc.toNat, .d n]) ∧
        upToTiming (withCore t { inHandler t.core 0x06 (BitVec.ofNat 64 w.kind) t.core.pc with
          waitcycles := t.core.waitcycles + BitVec.ofNat 64 lim.toNat }) t') ∧
    (lim = 0 ∨ t.waitMet w = true → exec (.waitLimit l) s = .next (s.setTile l t))

/-- R64, R66: an exception with no handler to take it, or in handler mode, halts the tile: RUN 3, the queues' entries that have not started
discarded; in handler mode the cause is DOUBLE with the second exception's code in tc.info. -/
def Sys2Proof.Claims.exceptionsHalt : Prop :=
  ∀ (s : State) (p : Nat) (l : LTile) (imm : BitVec 14),
    let t := s.tile l
    Ready s p l → (bit t.core.evec 0 = false ∨ t.core.hm = true) →
    ∃ s', exec (.exc l 0 0 imm) s = .next s' ∧ (s'.siteTile (s.seat l).site).core.run = .faulted ∧
      (s'.siteTile (s.seat l).site).core.cause = (if t.core.hm then 0x0B else 0x09) ∧
      (s'.siteTile (s.seat l).site).core.info = (if t.core.hm then 0x09 else BitVec.ofNat 64 imm.toNat) ∧
      (s'.siteTile (s.seat l).site).mxq.waiting = [] ∧ (s'.siteTile (s.seat l).site).vxq.waiting = [] ∧
      (s'.siteTile (s.seat l).site).xcq.waiting = [] ∧ (s'.siteTile (s.seat l).site).mxq.started = t.mxq.started ∧
      ((s.part p).state = .running → (s'.part p).state = .ending ∧ (s'.part p).ending = some .halt)

namespace Sys2Proof.Claims

/-- Registers of a tile by address, and what a read of each gives (Tables 2.8, 3.4, 4.13, 5.2, 6.12, 7.11, 8.12, 9.11). -/
def csrTable : List (Nat × (State → Tile → Word)) :=
  [(0x000, fun _ t => t.core.idReg), (0x001, fun _ t => t.core.partReg), (0x003, fun _ t => t.core.cause),
    (0x004, fun _ t => BitVec.ofNat 64 t.core.epc.toNat), (0x005, fun _ t => t.core.info), (0x006, fun _ t => t.core.evec),
    (0x007, fun _ t => t.core.scratch), (0x008, fun _ t => t.core.waitlimit), (0x010, fun _ t => BitVec.ofNat 64 t.core.cycle),
    (0x011, fun _ t => t.core.instret), (0x012, fun _ t => t.core.waitcycles), (0x013, fun _ t => t.core.freezes),
    (0x014, fun _ t => t.core.skipped), (0x015, fun s _ => BitVec.ofNat 64 s.now), (0x120, fun _ t => t.vx.elems), (0x121, fun _ t => t.vx.busy),
    (0x122, fun _ t => t.vx.stall), (0x123, fun _ t => t.vx.instr), (0x201, fun _ t => BitVec.ofNat 64 t.mx.srk.toNat), (0x202, fun _ t => t.mx.seed),
    (0x204, fun _ t => t.mx.passes), (0x205, fun _ t => t.mx.busy), (0x206, fun _ t => t.mx.stall), (0x207, fun _ t => t.mx.loads),
    (0x208, fun _ t => t.mx.srpasses), (0x209, fun _ t => t.mx.acorr), (0x20A, fun _ t => t.mx.sig), (0x280, fun _ t => BitVec.ofNat 64 t.sr.sel.toNat),
    (0x283, fun _ t => t.sr.ovfmask), (0x360, fun _ t => BitVec.ofNat 64 t.xc.selrot.toNat), (0x362, fun _ t => t.xc.wdenied),
    (0x363, fun _ t => t.xc.latedrop), (0x364, fun _ t => t.xc.truncs), (0x365, fun _ t => t.xc.closedrop), (0x3F0, fun _ t => t.xc.cbrx),
    (0x3F1, fun _ t => t.xc.cbdrop), (0x3F2, fun _ t => t.xc.inj), (0x3F3, fun _ t => t.xc.ej), (0x3F4, fun _ t => t.xc.redwait),
    (0x3F5, fun _ t => t.xc.foreign), (0x404, fun _ t => t.pad.corrected), (0x405, fun _ t => t.pad.conflicts), (0x410, fun _ t => t.pad.ctr[0]),
    (0x41F, fun _ t => t.pad.ctr[15]), (0x440, fun _ t => t.pad.h[0]), (0x47F, fun _ t => t.pad.h[63]), (0x501, fun _ t => BitVec.ofNat 64 t.bl.pos.toNat),
    (0x502, fun _ t => t.bl.fired), (0x503, fun _ t => t.bl.step), (0x506, fun _ t => t.bl.releases), (0x580, fun _ t => t.bl.bells[0].rel),
    (0x5BF, fun _ t => t.bl.bells[63].rel)]

/-- Tables 4.4, 6.1 and 9.2: the engine instructions by opcode, their engine, which of ga, gb and gc their row gives as g0, and whether they
return a value in ga. -/
def engineTable : List (BitVec 8 × Eng × (Bool × Bool × Bool) × Bool) :=
  [(0x80, .mx, (false, false, true), false), (0x84, .mx, (false, false, true), false), (0x85, .mx, (false, false, true), false),
    (0x86, .mx, (false, false, true), false), (0x88, .mx, (false, false, true), false), (0x89, .mx, (true, false, true), false),
    (0x8A, .mx, (false, false, false), false), (0xA0, .vx, (false, false, true), true), (0xA1, .vx, (false, false, true), false),
    (0xA2, .vx, (false, false, true), false), (0xA3, .vx, (false, false, true), false), (0xA4, .vx, (false, false, true), true),
    (0xA6, .vx, (false, false, true), true), (0xA7, .vx, (false, false, true), true), (0xA8, .vx, (false, false, true), false),
    (0xA9, .vx, (false, false, true), false), (0xAA, .vx, (false, false, true), false), (0xAB, .vx, (false, false, true), false),
    (0xAC, .vx, (false, true, true), true), (0xC0, .xc, (false, false, true), false), (0xC1, .xc, (false, false, false), true),
    (0xC2, .xc, (false, false, true), true), (0xC3, .xc, (false, false, false), true), (0xC4, .xc, (false, false, true), true),
    (0xC5, .xc, (false, false, true), true)]

/-- A core with a register marked as waiting for an engine's value, or as it was (R53); g0 never waits. -/
def awaits (c : Core) (r : Reg) (b : Bool) : Core := if b ∧ r ≠ 0 then { c with pend := c.pend ||| (1#32 <<< r.toNat) } else c

/-- A tile with one more instruction issued to a queue. -/
def queued (t : Tile) (g : Eng) (e : QEntry) : Tile :=
  let add (q : EngQ) : EngQ := { q with waiting := q.waiting ++ [e], issued := q.issued + 1 }
  match g with
  | .mx => { t with mxq := add t.mxq }
  | .vx => { t with vxq := add t.vxq }
  | .xc => { t with xcq := add t.xcq }

/-- The queue of an engine. -/
def queueOf (t : Tile) (g : Eng) : EngQ := match g with | .mx => t.mxq | .vx => t.vxq | .xc => t.xcq

end Sys2Proof.Claims

/-- R43, R70: CSR.R writes the register's value to gd and changes nothing else. -/
def Sys2Proof.Claims.registerReads : Prop :=
  (∀ e ∈ csrTable, ∀ (s : State) (p : Nat) (l : LTile) (gd : Reg), Ready s p l → noPend (s.tile l) [gd] →
    leaves (.csrR l gd 0 (BitVec.ofNat 14 e.1)) s l (withCore (s.tile l) (wrote (s.tile l).core gd (e.2 s (s.tile l))))) ∧
  (∀ (s : State) (p : Nat) (l : LTile) (gd : Reg) (a : BitVec 14), csrKnown a.toNat = true → Ready s p l → noPend (s.tile l) [gd] →
    ∃ v, leaves (.csrR l gd 0 a) s l (withCore (s.tile l) (wrote (s.tile l).core gd v)))

/-- R9, R43, R70: what CSR.W leaves in each writable register of the core, the engines and the scratchpad; a write of an RO register leaves
everything as it is. -/
def Sys2Proof.Claims.registerWrites : Prop :=
  ∀ (s : State) (p : Nat) (l : LTile) (gs : Reg),
    let t := s.tile l
    let v := t.core.rd gs
    Ready s p l → noPend t [gs] → t.bl.firing = none → t.xc.walkCur = none →
    let writes (a : BitVec 14) (t2 : Tile) : Prop := leaves (.csrW l 0 gs a) s l (withCore t2 (past t2.core))
    writes 0x002 (withCore t { t.core with froze := t.core.froze && !v.getLsbD 16, skip := t.core.skip && !v.getLsbD 17 }) ∧
    writes 0x004 (withCore t { t.core with epc := BitVec.ofNat 20 (v.toNat / 4 * 4) }) ∧
    writes 0x007 (withCore t { t.core with scratch := v }) ∧
    writes 0x008 (withCore t { t.core with waitlimit := v }) ∧
    writes 0x100 { t with vx := { t.vx with
      vlzero := t.vx.vlzero && !v.getLsbD 0, prange := t.vx.prange && !v.getLsbD 1, sat := t.vx.sat && !v.getLsbD 2
      fovf := t.vx.fovf && !v.getLsbD 3, finv := t.vx.finv && !v.getLsbD 4, fdz := t.vx.fdz && !v.getLsbD 5 } } ∧
    writes 0x200 { t with mx := { t.mx with nan := t.mx.nan && !v.getLsbD 0, inf := t.mx.inf && !v.getLsbD 1 } } ∧
    writes 0x280 { t with sr := { t.sr with sel := BitVec.ofNat 6 v.toNat } } ∧
    writes 0x283 { t with sr := { t.sr with ovfmask := t.sr.ovfmask &&& ~~~v } } ∧
    writes 0x361 { t with xc := { t.xc with denied := t.xc.denied && !v.getLsbD 0 } } ∧
    writes 0x401 { t with pad := { t.pad with overwrite := t.pad.overwrite && !v.getLsbD 0, closed := t.pad.closed && !v.getLsbD 1 } } ∧
    (∀ a ∈ [0x000#14, 0x003, 0x005, 0x010, 0x011, 0x015, 0x120, 0x202, 0x204, 0x20A, 0x300, 0x362, 0x3F0, 0x404, 0x502, 0x506, 0x580], writes a t)

/-- R80, R81: a handle write replaces the entry when its checks pass; a write that fails one leaves the entry with VALID 0 and sets BADENT and
LAST; a write to an entry that a channel owns is discarded and sets REFUSED and LAST. -/
def Sys2Proof.Claims.handleWrites : Prop :=
  ∀ (s : State) (p : Nat) (l : LTile) (h : BitVec 6) (gs : Reg),
    let t := s.tile l
    let w := t.core.rd gs &&& 0x00007FFFFFFFFF1F
    let ok : Prop := hValid w = true → hBase w + hLen w ≤ 2 ^ 20 ∧ (hSkew w ≠ 0 → hBase w % 1024 = 0 ∧ hLen w % 1024 = 0) ∧
      (∀ k : Fin 64, k.val ≠ h.toNat → hValid t.pad.h[k] = true → hSkew t.pad.h[k] ≠ hSkew w → ∀ a b,
        hBase w ≤ a → a < hBase w + hLen w → hBase t.pad.h[k] ≤ b → b < hBase t.pad.h[k] + hLen t.pad.h[k] → a / 1024 ≠ b / 1024)
    let set (v : Word) : Vector Word 64 := t.pad.h.set h.toNat v
    let writes (q : Pad) : Prop := leaves (.spHandleWrite l h gs) s l (withCore { t with pad := q } (past t.core))
    Ready s p l → noPend t [gs] →
    (hOwn t.pad.h[h.toNat] = true → writes { t.pad with refused := true, last := h }) ∧
    (hOwn t.pad.h[h.toNat] = false → ok → writes { t.pad with h := set w }) ∧
    (hOwn t.pad.h[h.toNat] = false → ¬ ok → writes { t.pad with h := set (w &&& ~~~1#64), badent := true, last := h })

/-- R93: a counter write sets the counter; a subtract write takes the value from it, and one that would pass below zero leaves 0 and sets the
counter's bit of UNDER. -/
def Sys2Proof.Claims.counterWrites : Prop :=
  ∀ (s : State) (p : Nat) (l : LTile) (c : BitVec 4) (gs : Reg),
    let t := s.tile l
    let v := t.core.rd gs
    let old := t.pad.ctr[c.toNat]
    let writes (i : Instr) (q : Pad) : Prop := leaves i s l (withCore { t with pad := q } (past t.core))
    Ready s p l → noPend t [gs] →
    writes (.counterSet l c gs) { t.pad with ctr := t.pad.ctr.set c.toNat v } ∧
    (v.toNat ≤ old.toNat → writes (.counterSubtract l c gs) { t.pad with ctr := t.pad.ctr.set c.toNat (BitVec.ofNat 64 (old.toNat - v.toNat)) }) ∧
    (old.toNat < v.toNat → writes (.counterSubtract l c gs)
      { t.pad with ctr := t.pad.ctr.set c.toNat 0, under := t.pad.under ||| BitVec.ofNat 16 (2 ^ c.toNat) })

/-- R153, R280: a write of a word of the selected scale record changes that record alone, a first word that R155 refuses nothing but BADENT
and LAST; a write of a chalkboard subscription replaces it whole. -/
def Sys2Proof.Claims.recordAndSubscriptionWrites : Prop :=
  ∀ (s : State) (p : Nat) (l : LTile) (gs : Reg),
    let t := s.tile l
    let v := t.core.rd gs
    let old := t.sr.recs[t.sr.sel.toNat]
    Ready s p l → noPend t [gs] →
    (∀ k : BitVec 3, (k = 0 → w0Ok v = true) →
      ∃ r, leaves (.scaleRecordWrite l k gs) s l (withCore { t with sr := { t.sr with recs := t.sr.recs.set t.sr.sel.toNat r } } (past t.core)) ∧
        (k = 0 → r.sexp = BitVec.ofNat 8 v.toNat ∧ r.amax = old.amax ∧ r.hist = old.hist ∧ r.ovfwin = old.ovfwin) ∧
        (k = 1 → r = { old with amax := BitVec.ofNat 32 v.toNat, used := v.getLsbD 32, nonfin := v.getLsbD 33 }) ∧
        (k = 2 → r = { old with hist := BitVec.ofNat 128 (old.hist.toNat / 2 ^ 64 * 2 ^ 64 + v.toNat) }) ∧
        (k = 3 → r = { old with hist := BitVec.ofNat 128 (v.toNat * 2 ^ 64 + old.hist.toNat % 2 ^ 64) }) ∧
        (k = 4 → r = { old with nz := v.toNat % 2 ^ 48 }) ∧ (k = 5 → r = { old with ftz := v.toNat % 2 ^ 48 }) ∧
        (k = 6 → r = { old with ovf := v.toNat % 2 ^ 32, qz := v.toNat / 2 ^ 32 % 2 ^ 16, qu := v.toNat / 2 ^ 48 }) ∧ (k = 7 → r = old)) ∧
    (w0Ok v = false → leaves (.scaleRecordWrite l 0 gs) s l
      (withCore { t with pad := { t.pad with badent := true, last := 0x3F } } (past t.core))) ∧
    (∀ n : BitVec 4, leaves (.cbsubWrite l n gs) s l
      (withCore { t with xc := { t.xc with cbsub := t.xc.cbsub.set n.toNat (BitVec.ofNat 14 (v.toNat &&& 0x3FF3)) } } (past t.core)))

/-- R241, R242: a write of 1 to bl.ttctl.RUN starts a stopped walker at bl.ttpos when the record there passes its checks, and leaves it stopped
with BADREC otherwise; a write of 0 stops a running walker at once with cause 7 and discards latched releases, or, in a firing, at
its end. -/
def Sys2Proof.Claims.walkerControl : Prop :=
  ∀ (s : State) (p : Nat) (l : LTile) (gs : Reg),
    let t := s.tile l
    let v := t.core.rd gs
    let writes (i : Instr) (b : Bl) : Prop := leaves i s l (withCore { t with bl := b } (past t.core))
    let halted (b : Bl) (cause : Nat) : Bl :=
      { b with run := false, stopcause := cause, latched := [], firing := none, stopping := false, again := none }
    Ready s p l → noPend t [gs] → t.xc.walkCur = none →
    (v.getLsbD 0 = true → t.bl.run = false → t.bl.firing = none → (∃ r, t.phaseOk t.bl.pos.toNat = some r) →
      writes (.walkerStart l gs) { t.bl with run := true, stopcause := 0, again := none }) ∧
    (v.getLsbD 0 = true → t.bl.run = false → t.bl.firing = none → t.phaseOk t.bl.pos.toNat = none → writes (.walkerStart l gs) (halted t.bl 5)) ∧
    (v.getLsbD 0 = false → t.bl.run = true → t.bl.firing = none → writes (.walkerStop l gs) (halted t.bl 7)) ∧
    (∀ k n, v.getLsbD 0 = false → t.bl.run = true → t.bl.firing = some (k, n) → n ≤ k → writes (.walkerStop l gs) { t.bl with stopping := true })

/-- R39, R51, R53: an engine instruction of an assigned opcode with its reserved fields 0 enters its engine's queue with the values its
registers hold, and a destination register is marked pending; on a full queue the core waits. -/
def Sys2Proof.Claims.engineIssue : Prop :=
  ∀ e ∈ engineTable, ∀ (s : State) (p : Nat) (l : LTile) (ga gb gc : Reg) (we : Bool) (wtok : BitVec 3) (se : Bool) (stok : BitVec 3),
    let t := s.tile l
    let i : Instr := .engineIssue l e.1 ga gb gc we wtok se stok false
    Ready s p l → noPend t [ga, gb, gc] → (e.2.2.1.1 = true → ga = 0) → (e.2.2.1.2.1 = true → gb = 0) → (e.2.2.1.2.2 = true → gc = 0) →
    ((queueOf t e.2.1).waiting.length < 16 →
      leaves i s l (withCore (queued t e.2.1 ⟨e.1, t.core.pc, ga, t.core.rd ga, t.core.rd gb, t.core.rd gc, we, wtok, se, stok⟩)
        (past (awaits t.core ga e.2.2.2)))) ∧
    (16 ≤ (queueOf t e.2.1).waiting.length → leaves i s l (withCore t (waits t.core (.queue i))))

/-- R51, R53, R58: an instruction held for a full queue, or for a pending register, issues once the entry or the value is there. -/
def Sys2Proof.Claims.heldIssue : Prop :=
  (∀ e ∈ engineTable, ∀ (s : State) (p : Nat) (l : LTile) (ga gb gc : Reg) (we : Bool) (wtok : BitVec 3) (se : Bool) (stok : BitVec 3) (lim : Word) (n : Nat),
    let t := s.tile l
    let i : Instr := .engineIssue l e.1 ga gb gc we wtok se stok false
    s.runs l = some p → t.core.run = .running → t.core.wait = some ⟨.queue i, lim⟩ → t.fetchable t.core.pc = true → t.pad.ecc = [] →
    t.pad.corrWords = [] → noPend t [ga, gb, gc] → limitAllows lim n = true → (e.2.2.1.1 = true → ga = 0) → (e.2.2.1.2.1 = true → gb = 0) →
    (e.2.2.1.2.2 = true → gc = 0) → (queueOf t e.2.1).waiting.length < 16 →
    leaves (.queueWaitEnd l n) s l (withCore (queued t e.2.1 ⟨e.1, t.core.pc, ga, t.core.rd ga, t.core.rd gb, t.core.rd gc, we, wtok, se, stok⟩)
      (past (awaits (woken t.core n) ga e.2.2.2)))) ∧
  (∀ (s : State) (p : Nat) (l : LTile) (gd gs1 gs2 : Reg) (lim : Word) (n : Nat),
    let t := s.tile l
    s.runs l = some p → t.core.run = .running → t.core.wait = some ⟨.result (.add l gd gs1 gs2), lim⟩ → t.fetchable t.core.pc = true → t.pad.ecc = [] →
    t.pad.corrWords = [] → noPend t [gd, gs1, gs2] → limitAllows lim n = true →
    leaves (.resultWaitEnd l n) s l
      (withCore t (wrote (woken t.core n) gd (BitVec.ofNat 64 ((t.core.rd gs1).toNat + (t.core.rd gs2).toNat)))))

/-- R53: a core instruction that names a pending register does not execute: the core waits with kind RESULT. -/
def Sys2Proof.Claims.pendingRegisters : Prop :=
  ∀ e ∈ regTable, ∀ (s : State) (p : Nat) (l : LTile) (gd gs1 gs2 : Reg), Ready s p l → ¬ noPend (s.tile l) [gd, gs1, gs2] →
    leaves (e.1 l gd gs1 gs2) s l (withCore (s.tile l) (waits (s.tile l).core (.result (e.1 l gd gs1 gs2))))

namespace Sys2Proof.Claims

/-- R51, R54, R122: the instruction at the head of an engine's queue may start: its wait token is there, no stored word of the tile's
scratchpad is wrong (R96), and the vector engine and the exchange unit run nothing else. -/
structure Starts (s : State) (p : Nat) (l : LTile) (g : Eng) (op : BitVec 8) (e : QEntry) (rest : List QEntry) : Prop where
  runs : s.runs l = some p
  head : (queueOf (s.tile l) g).waiting = e :: rest
  isOp : e.op = op
  token : e.we = true → (s.tile l).mayTake e.wtok g.rank = true
  whole : (s.tile l).pad.ecc = []
  counted : (s.tile l).pad.corrWords = []
  alone : g = .mx ∨ (queueOf (s.tile l) g).started = []
  sorted : canonical (s.tile l) = true

/-- R129, R134, R203: the engines' state is whole, no row waits for the chained path, and no run of the vector engine waits for one. -/
structure Settled (t : Tile) : Prop where
  sound : t.mx.parity = false ∧ t.mx.accErr = []
  path : t.mx.chainWait = []
  vector : t.vx.run = none
  ready : ∀ x ∈ t.mxq.started, x.ready = true

/-- A tile with another queue of an engine. -/
def withQueue (t : Tile) (g : Eng) (q : EngQ) : Tile :=
  match g with
  | .mx => { t with mxq := q }
  | .vx => { t with vxq := q }
  | .xc => { t with xcq := q }

/-- The head of a queue has started: its entry is free, its wait token taken, and it completes with `ret`. -/
def began (t : Tile) (g : Eng) (e : QEntry) (rest : List QEntry) (ret : Option Word) : Tile :=
  let q := queueOf t g
  let t1 := withQueue t g { q with waiting := rest, started := q.started ++ [⟨e, true, ret⟩] }
  if e.we then withCore t1 { t1.core with tokens := t1.core.tokens.set e.wtok.toNat (t1.core.tokens[e.wtok.toNat] - 1) } else t1

/-- The command leaves the tile as `t2`, timing aside, asks `as` of the module, and leaves everything else as it was. -/
def leavesActs (i : Instr) (s : State) (p l : Nat) (t2 : Tile) (as : List Act) : Prop :=
  ∃ t', exec i s = .next ((s.setTile l t').acts p l as) ∧ upToTiming t2 t'

/-- R77: the scratchpad with more engine-slot conflicts. -/
def conflicts (q : Pad) (n : Nat) : Pad := { q with conflicts := q.conflicts + BitVec.ofNat 64 n }

/-- The bytes of a buffer from an offset. -/
def bytesAt (t : Tile) (w : Word) (off n : Nat) : List Byte := (List.range n).map (fun i => Mem.read t.pad.mem (hPlace w (off + i)))

/-- Table 4.8, RIGHTS, BOUNDS and MISALIGN for `n` rows of `size` bytes of an operand. -/
abbrev rowsOk (t : Tile) (w : Word) (write : Bool) (size n al : Nat) : Prop :=
  hValid (t.hOf w) = true ∧ (if write then hW (t.hOf w) else hR (t.hOf w)) = true ∧ rowsExtent (owOff w) (owStride w) size n ≤ hLen (t.hOf w) ∧
    owOff w % al = 0 ∧ owStride w % al = 0

/-- The reserved bits of an operand word are 0 (R116). -/
abbrev plainWord (w : Word) : Prop := w &&& 0x80000000FC000000 = 0

/-- R149: the records and what is asked of the module after a report. -/
def reported (x : Scale) (w : Word) (r : Rep) (target : Nat) : Scale × List Act :=
  if owNoscale w then (x, [])
  else ((x.report (owSrec w) r target).1, match (x.report (owSrec w) r target).2 with | some c => [.stepFail (owSrec w).toNat c] | none => [])

end Sys2Proof.Claims

/-- R107 to R110: MX.LOAD with its checks passed puts a block into a plane. A load between equal formats copies the patterns and reports
nothing; an E2M1 block holds its elements and its scale bytes; a converting load rounds each element to the block's format under the
record's exponent and reports to the record. -/
def Sys2Proof.Claims.matrixLoads : Prop :=
  ∀ (s : State) (p : Nat) (l : LTile) (e : QEntry) (rest : List QEntry) (conf : Nat),
    let t := s.tile l
    let w := e.va
    let src := owFmt w
    let fmt := e.vb.toNat / 16 % 16
    let sexp := t.sr.exp (owNoscale w) (owSrec w)
    let put (b : Block) : Mx := { (if e.vb.getLsbD 0 then { t.mx with p1 := some b } else { t.mx with p0 := some b }) with loads := t.mx.loads + 1 }
    let row (i : Nat) : List Byte := bytesAt t (t.hOf w) (owOff w + i * owStride w) (fmtBytes src * 32)
    let after (b : Block) (sr : Scale) : Tile := began { t with mx := put b, sr := sr, pad := conflicts t.pad conf } .mx e rest none
    Starts s p l .mx 0x80 e rest → Settled t → plainWord w → e.vb &&& 0xFFFFFFFFFFFFFF0E = 0 →
    (src = fmt → 1 ≤ src → src ≤ 4 → rowsOk t w false (32 * fmtBytes src) 32 (rowAlign src) →
      leaves (.mxLoad l conf) s l (after ⟨fmt, sexp, (List.range 32).map (fun i => elems src (row i) 32), []⟩ t.sr)) ∧
    (src = 5 → fmt = 5 → rowsOk t w false 1088 1 64 →
      ∃ b, leaves (.mxLoad l conf) s l (after b t.sr) ∧ b.fmt = 5 ∧ b.sexp = sexp ∧
        ∀ i < 32, ∀ c < 64,
          nth (nth b.cells i []) c 99 =
            (Mem.read t.pad.mem (hPlace (t.hOf w) (owOff w + 32 * i + c / 2))).toNat / (if c % 2 = 0 then 1 else 16) % 16 ∧
          nth (nth b.e8m0 i []) (c / 32) 999 = (Mem.read t.pad.mem (hPlace (t.hOf w) (owOff w + 1024 + 2 * i + c / 32))).toNat) ∧
    ((src = 1 ∨ src = 2) → (fmt = 3 ∨ fmt = 4) → rowsOk t w false 64 32 64 →
      ∃ rep, ∃ b, leavesActs (.mxLoad l conf) s p l (after b (reported t.sr w rep fmt).1) (reported t.sr w rep fmt).2 ∧ b.fmt = fmt ∧ b.sexp = sexp ∧
        ∀ i < 32, ∀ c < 32, nth (nth b.cells i []) c 999 =
          (((Fmt.ofCode fmt).getD .e4m3).convert (valueOf src (nth (elems src (row i) 32) c 0))
            (nth (elems src (row i) 32) c 0 / 2 ^ 15 % 2 == 1) sexp).1)

namespace Sys2Proof.Claims

/-- R111, R114: the compute instructions, by opcode, with the vector of the plane that lane k multiplies and the vector streamed for row i. -/
def computeTable : List ((LTile → Nat → Nat → Instr) × BitVec 8 × (Block → Nat → List Machine.Num) × (Tile → Word → Nat → Nat → List Machine.Num)) :=
  [(.mxFwd, 0x84, fun b k => b.rowVals k, fun t w rows i => streamVals (owFmt w) ((List.range (if owFmt w = 5 then (rows + 31) / 32 else rows)).map
      (fun n => bytesAt t (t.hOf w) (owOff w + n * owStride w) ((rowBytes (owFmt w)).getD 0))) i),
    (.mxDgrad, 0x85, fun b k => b.colVals k, fun t w rows i => streamVals (owFmt w) ((List.range rows).map
      (fun n => bytesAt t (t.hOf w) (owOff w + n * owStride w) ((rowBytes (owFmt w)).getD 0))) i),
    (.mxWgrad, 0x86, fun b k => b.colVals k, fun t w rows i => (List.range 32).map (fun n =>
      nth ((elems (owFmt w) (bytesAt t (t.hOf w) (owOff w + n * owStride w) (rows * fmtBytes (owFmt w))) rows).map (valueOf (owFmt w))) i .nan))]

/-- Table 4.8 for a compute instruction of an opcode: RIGHTS, BOUNDS, MISALIGN. -/
abbrev computeOk (t : Tile) (op : BitVec 8) (w : Word) (rows : Nat) : Prop :=
  if op = 0x86 then
    hValid (t.hOf w) = true ∧ hR (t.hOf w) = true ∧ rowsExtent (owOff w) (owStride w) (rows * fmtBytes (owFmt w)) 32 ≤ hLen (t.hOf w) ∧
      owOff w % 64 + rows * fmtBytes (owFmt w) ≤ 64 ∧ owStride w % 64 = 0
  else rowsOk t w false ((rowBytes (owFmt w)).getD 0) (if owFmt w = 5 then (rows + 31) / 32 else rows) (rowAlign (owFmt w))

/-- R128: the random number of an element, when its row's count has reached a nonzero mx.srk. -/
def drawOf (t : Tile) (logical : Nat) (before k j : Nat) : Option Nat :=
  if t.mx.srk ≠ 0 ∧ t.mx.srk.toNat ≤ before then some (srDraw t.mx.seed t.bl.step logical before k j) else none

end Sys2Proof.Claims

/-- R111 to R114, R123, R125 to R129: a compute instruction with its checks passed and ROWS not 0 makes one pass for each of its accumulator
rows: every element becomes the sum of its products, under the two scale exponents, and of what it held unless ZERO, rounded once; the
row's count rises by the products of an element. With PASS each row then enters the chained path and the output signature. Every other
row, and every counter but passes, busy, stall and srpasses, is as before. With ROWS 0 the instruction changes nothing. -/
def Sys2Proof.Claims.matrixComputes : Prop :=
  ∀ c ∈ computeTable, ∀ (s : State) (p : Nat) (l : LTile) (e : QEntry) (rest : List QEntry) (stall conf : Nat) (b : Block),
    let t := s.tile l
    let w := e.va
    let first := cwAcc e.vb
    let rows := cwRows e.vb
    let sexp := t.sr.exp (owNoscale w) (owSrec w) + b.sexp
    Starts s p l .mx c.2.1 e rest → Settled t → plainWord w → e.vb &&& 0xFFFFFFFFFFFF0000 = 0 →
    (rows = 0 → leaves (c.1 l stall conf) s l (began t .mx e rest none)) ∧
    (rows ≠ 0 → first + rows ≤ 64 → t.mx.plane (cwPlane e.vb) = some b → widthClass b.fmt = widthClass (owFmt w) → widthClass (owFmt w) ≠ 0 →
      (c.2.1 ≠ 0x84 → b.fmt ≠ 5) → computeOk t c.2.1 w rows → (cwPass e.vb = true → t.mx.chain.length + rows ≤ 8) →
      ∃ m, leaves (c.1 l stall conf) s l (began { t with mx := m, pad := conflicts t.pad conf } .mx e rest none) ∧
        m = { t.mx with acc := m.acc, acnt := m.acnt, nan := m.nan, inf := m.inf, srpasses := m.srpasses, chain := m.chain, sig := m.sig
                        passes := t.mx.passes + BitVec.ofNat 64 rows, stall := t.mx.stall + BitVec.ofNat 64 stall
                        busy := t.mx.busy + BitVec.ofNat 64 (rows * (if owFmt w = 1 ∨ owFmt w = 2 then 4 else 1)) } ∧
        (∀ j : Fin 64, (j.val < first ∨ first + rows ≤ j.val) → m.acc[j] = t.mx.acc[j] ∧ m.acnt[j] = t.mx.acnt[j]) ∧
        (∀ j : Fin 64, first ≤ j.val → j.val < first + rows →
          let before := if cwZero e.vb then 0 else t.mx.acnt[j].toNat
          m.acnt[j].toNat = Nat.min (2 ^ 32 - 1) (before + (if owFmt w = 5 then 64 else 32)) ∧
          ∀ k : Fin 32, m.acc[j][k] = passElem (drawOf t l before k j) (if cwZero e.vb then none else some t.mx.acc[j][k]) sexp
            (products (c.2.2.1 b k) (c.2.2.2 t w rows (j.val - first)))) ∧
        (t.mx.nan = true → m.nan = true) ∧ (t.mx.inf = true → m.inf = true) ∧
        (cwPass e.vb = false → m.chain = t.mx.chain ∧ m.sig = t.mx.sig) ∧
        (cwPass e.vb = true →
          m.chain = t.mx.chain ++ (List.range rows).map (fun i => ⟨first + i, (nth m.acc.toList (first + i) (Vector.replicate 32 0)).toList⟩) ∧
          m.sig = ((List.range rows).flatMap (fun i => rowFp32 (nth m.acc.toList (first + i) (Vector.replicate 32 0)).toList)).foldl crc64Byte t.mx.sig))

/-- R115 to R118, R135: MX.STORE writes each of its accumulator rows to the scratchpad, in FP32 unscaled as the bits stand and otherwise
converted under the record's exponent, and every other byte is as before; CLEAR then zeroes the row and its count. Every row enters the
output signature. -/
def Sys2Proof.Claims.matrixStores : Prop :=
  ∀ (s : State) (p : Nat) (l : LTile) (e : QEntry) (rest : List QEntry) (conf : Nat),
    let t := s.tile l
    let w := e.va
    let z := fmtBytes (owFmt w)
    let first := cwAcc e.vb
    let rows := cwRows e.vb
    let old (i : Nat) : List (BitVec 32) := (nth t.mx.acc.toList (first + i) (Vector.replicate 32 0)).toList
    let place (i k b : Nat) : Nat := hPlace (t.hOf w) (owOff w + i * owStride w + z * k + b)
    Starts s p l .mx 0x88 e rest → Settled t → plainWord w → e.vb &&& 0xFFFFFFFFFFFFC000 = 0 → owFmt w ≤ 4 → rows ≠ 0 → first + rows ≤ 64 →
    rowsOk t w true (32 * z) rows (rowAlign (owFmt w)) → hBase (t.hOf w) + hLen (t.hOf w) ≤ 2 ^ 20 → 32 * z ≤ owStride w →
    ∃ q m sr as, leavesActs (.mxStore l conf) s p l (began { t with pad := conflicts q conf, mx := m, sr := sr } .mx e rest none) as ∧
      q = { t.pad with mem := q.mem } ∧ (owNoscale w = true → sr = t.sr ∧ as = []) ∧
      (∀ i < rows, ∀ k < 32, ∀ b < z, (Mem.read q.mem (place i k b)).toNat =
        (if owFmt w = 0 ∧ owNoscale w = true then (nth (old i) k 0).toNat
         else (((Fmt.ofCode (owFmt w)).getD .fp32).convert (f32 (nth (old i) k 0)) ((nth (old i) k 0).getLsbD 31)
            (t.sr.exp (owNoscale w) (owSrec w))).1) / 256 ^ b % 256) ∧
      (∀ a, (∀ i < rows, ∀ k < 32, ∀ b < z, a ≠ place i k b) → Mem.read q.mem a = Mem.read t.pad.mem a) ∧
      m = { t.mx with acc := m.acc, acnt := m.acnt, sig := ((List.range rows).flatMap (fun i => rowFp32 (old i))).foldl crc64Byte t.mx.sig } ∧
      (∀ j : Fin 64, (m.acc[j], m.acnt[j]) =
        if cwZero e.vb ∧ first ≤ j.val ∧ j.val < first + rows then (Vector.replicate 32 0, 0) else (t.mx.acc[j], t.mx.acnt[j]))

/-- R129, R135: MX.PASS sends its rows into the chained path, in order, and into the output signature; CLEAR zeroes them. R116: MX.ALOAD
fills its rows from FP32 values times the record's factor, each rounded once, and sets their counts. Other rows are as before. -/
def Sys2Proof.Claims.matrixPassAndLoad : Prop :=
  (∀ (s : State) (p : Nat) (l : LTile) (e : QEntry) (rest : List QEntry) (conf : Nat),
    let t := s.tile l
    let first := cwAcc e.vb
    let rows := cwRows e.vb
    let old (i : Nat) : List (BitVec 32) := (nth t.mx.acc.toList (first + i) (Vector.replicate 32 0)).toList
    Starts s p l .mx 0x89 e rest → Settled t → e.vb &&& 0xFFFFFFFFFFFFC000 = 0 → rows ≠ 0 → first + rows ≤ 64 → t.mx.chain.length + rows ≤ 8 →
    ∃ m, leaves (.mxPass l conf) s l (began { t with mx := m, pad := conflicts t.pad conf } .mx e rest none) ∧
      m = { t.mx with acc := m.acc, acnt := m.acnt, chain := t.mx.chain ++ (List.range rows).map (fun i => ⟨first + i, old i⟩)
                      sig := ((List.range rows).flatMap (fun i => rowFp32 (old i))).foldl crc64Byte t.mx.sig } ∧
      (∀ j : Fin 64, (m.acc[j], m.acnt[j]) =
        if cwZero e.vb ∧ first ≤ j.val ∧ j.val < first + rows then (Vector.replicate 32 0, 0) else (t.mx.acc[j], t.mx.acnt[j]))) ∧
  (∀ (s : State) (p : Nat) (l : LTile) (e : QEntry) (rest : List QEntry) (conf : Nat),
    let t := s.tile l
    let w := e.va
    let first := cwAcc e.vb
    let rows := cwRows e.vb
    let src (i k : Nat) : Nat := leVal (bytesAt t (t.hOf w) (owOff w + i * owStride w + 4 * k) 4)
    Starts s p l .mx 0x8A e rest → Settled t → plainWord w → e.vb &&& 0xFFFFFFFFFFFFC000 = 0 → cwZero e.vb = false → e.vc.toNat < 2 ^ 32 → owFmt w = 0 →
    rows ≠ 0 → first + rows ≤ 64 → rowsOk t w false 128 rows 64 →
    ∃ m, leaves (.mxAload l conf) s l (began { t with mx := m, pad := conflicts t.pad conf } .mx e rest none) ∧
      m = { t.mx with acc := m.acc, acnt := m.acnt, inf := m.inf } ∧ (t.mx.inf = true → m.inf = true) ∧
      (∀ j : Fin 64, (j.val < first ∨ first + rows ≤ j.val) → m.acc[j] = t.mx.acc[j] ∧ m.acnt[j] = t.mx.acnt[j]) ∧
      (∀ j : Fin 64, first ≤ j.val → j.val < first + rows → m.acnt[j].toNat = e.vc.toNat ∧
        ∀ k : Fin 32, m.acc[j][k] = BitVec.ofNat 32
          (Fmt.fp32.ofNum ((Fmt.fp32.decode (src (j.val - first) k)).scale (t.sr.exp (owNoscale w) (owSrec w)))).1))

/-- R123, R177, R285, R52 to R54: an instruction that has done its work completes: its queue counts it, its value goes to ga, which no
longer waits, and its token rises by one when SE is 1; nothing else changes, but that the vector engine counts it too. -/
def Sys2Proof.Claims.completions : Prop :=
  ∀ (g : Eng) (s : State) (p : Nat) (l : LTile) (x : Started) (rest : List Started),
    let t := s.tile l
    let q := queueOf t g
    let i : Instr := match g with | .mx => .mxInstrComplete l | .vx => .vxInstrComplete l | .xc => .xcInstrComplete l
    s.runs l = some p → t.pad.corrWords = [] → q.started = x :: rest → x.ready = true →
    (x.e.se = true → t.core.tokens[x.e.stok.toNat] ≠ 15) →
    let t1 := withQueue t g { q with started := rest, completed := q.completed + 1 }
    let t2 : Tile := if g = .vx then { t1 with vx := { t1.vx with instr := t1.vx.instr + 1 } } else t1
    let c : Core := match x.ret with
      | some v => if x.e.ga = 0 then t.core else
          { t.core with g := t.core.g.set x.e.ga.toNat v, pend := t.core.pend &&& ~~~(1#32 <<< x.e.ga.toNat) }
      | none => t.core
    leaves i s l (withCore t2 (if x.e.se then { c with tokens := c.tokens.set x.e.stok.toNat (c.tokens[x.e.stok.toNat] + 1) } else c))

/-- R174, R176, R178, R170: VX.SETVL sets the vector length to gb, limited to 1–64, and returns it; VX.CONST and VX.SDEF set one constant
and one stream word; VX.XRND returns the combined exact sum rounded once. -/
def Sys2Proof.Claims.vectorSets : Prop :=
  ∀ (s : State) (p : Nat) (l : LTile) (e : QEntry) (rest : List QEntry),
    let t := s.tile l
    let n := e.vb.toNat
    let sets (i : Instr) (v : Vx) (ret : Option Word) : Prop := leaves i s l (began { t with vx := v } .vx e rest ret)
    (Starts s p l .vx 0xA0 e rest → Settled t →
      sets (.vxSetvl l) { t.vx with vl := Nat.max 1 (Nat.min n 64), vlzero := t.vx.vlzero || n == 0 } (some (BitVec.ofNat 64 (Nat.max 1 (Nat.min n 64))))) ∧
    (Starts s p l .vx 0xA2 e rest → Settled t → (h : n < 8) → sets (.vxConst l) { t.vx with c := t.vx.c.set n (BitVec.ofNat 32 e.va.toNat) } none) ∧
    (Starts s p l .vx 0xA3 e rest → Settled t → (h : n < 5) → sets (.vxSdef l) { t.vx with s := t.vx.s.set n e.va } none) ∧
    (Starts s p l .vx 0xAC e rest → Settled t → sets (.vxXrnd l) { t.vx with fovf := t.vx.fovf || (combined t.vx.xs.toList).round.2 }
      (some (BitVec.ofNat 64 (combined t.vx.xs.toList).round.1.toNat)))

/-- R183: VX.EPLOAD puts LEN words of the scratchpad, each a legal element instruction, into a slot. R197: VX.OCLD copies rows of the
scratchpad into the operand cache and VX.OCST copies rows of it back; every other byte is as before. -/
def Sys2Proof.Claims.vectorTransfers : Prop :=
  ∀ (s : State) (p : Nat) (l : LTile) (e : QEntry) (rest : List QEntry) (stall conf : Nat),
    let t := s.tile l
    let len := e.vb.toNat / 16 % 64
    let slot := e.vb.toNat % 4
    let row := e.vb.toNat % 128
    let rows := e.vb.toNat / 256 % 256
    let off := owOff e.va
    let h := t.hOf e.va
    let stalled (v : Vx) : Vx := { v with stall := v.stall + BitVec.ofNat 64 stall }
    let ws : List (BitVec 32) := (List.range len).map (fun k => BitVec.ofNat 32 (leVal (bytesAt t h (off + 4 * k) 4)))
    e.va.toNat < 2 ^ 26 → hValid h = true →
    (Starts s p l .vx 0xA1 e rest → Settled t → e.vb &&& 0xFFFFFFFFFFFFFC0C = 0 → 1 ≤ len → len ≤ 32 → hR h = true → off + 4 * len ≤ hLen h → off % 4 = 0 →
      (∀ x ∈ ws, epWordOk x = true) →
      leaves (.vxEpload l conf) s l (began { t with pad := conflicts t.pad conf, vx := { t.vx with prog := t.vx.prog.set! slot ws } } .vx e rest none)) ∧
    (Starts s p l .vx 0xA8 e rest → Settled t → e.vb &&& 0xFFFFFFFFFFFF0080 = 0 → 1 ≤ rows → row + rows ≤ 128 → hR h = true → off + 64 * rows ≤ hLen h →
      off % 64 = 0 →
      ∃ m, leaves (.vxOcld l stall conf) s l (began { t with pad := conflicts t.pad conf, vx := { stalled t.vx with cache := m } } .vx e rest none) ∧
        (∀ i < 64 * rows, Mem.read m (64 * row + i) = Mem.read t.pad.mem (hPlace h (off + i))) ∧
        (∀ a, (a < 64 * row ∨ 64 * (row + rows) ≤ a) → Mem.read m a = Mem.read t.vx.cache a)) ∧
    (Starts s p l .vx 0xA9 e rest → Settled t → e.vb &&& 0xFFFFFFFFFFFF0080 = 0 → 1 ≤ rows → row + rows ≤ 128 → hW h = true → off + 64 * rows ≤ hLen h →
      off % 64 = 0 →
      ∃ q, leaves (.vxOcst l stall conf) s l (began { t with pad := conflicts q conf, vx := stalled t.vx } .vx e rest none) ∧ q = { t.pad with mem := q.mem } ∧
        (∀ i < 64 * rows, Mem.read q.mem (hPlace h (off + i)) = Mem.read t.vx.cache (64 * row + i)) ∧
        (∀ a, (∀ i < 64 * rows, a ≠ hPlace h (off + i)) → Mem.read q.mem a = Mem.read t.pad.mem a))

/-- R170, R171, R195: VX.XLD loads the 16 lane words of an area, or adds them, when none has a reserved bit set; VX.XST stores the 16 lane
words, or their sum, and no other byte. -/
def Sys2Proof.Claims.exactSums : Prop :=
  ∀ (s : State) (p : Nat) (l : LTile) (e : QEntry) (rest : List QEntry) (stall conf : Nat),
    let t := s.tile l
    let off := owOff e.va
    let h := t.hOf e.va
    let n := if e.vb = 0 then 768 else 48
    let stalled (v : Vx) : Vx := { v with stall := v.stall + BitVec.ofNat 64 stall }
    e.va.toNat < 2 ^ 26 → hValid h = true → e.vb.toNat ≤ 1 →
    (Starts s p l .vx 0xAA e rest → Settled t → hR h = true → off + 768 ≤ hLen h →
      ∀ xs : Vector XWord 16, (∀ k : Fin 16, XWord.ofBytes (bytesAt t h (off + 48 * k) 48) = some xs[k]) →
      let sums : Vector XWord 16 := Vector.ofFn (fun k =>
        ⟨t.vx.xs[k].v + xs[k].v, t.vx.xs[k].pinf || xs[k].pinf, t.vx.xs[k].ninf || xs[k].ninf, t.vx.xs[k].nan || xs[k].nan⟩)
      leaves (.vxXld l stall conf) s l
        (began { t with pad := conflicts t.pad conf, vx := { stalled t.vx with xs := if e.vb = 1 then sums else xs } } .vx e rest none)) ∧
    (Starts s p l .vx 0xAB e rest → Settled t → hW h = true → off + n ≤ hLen h →
      ∃ q, leaves (.vxXst l stall conf) s l (began { t with pad := conflicts q conf, vx := stalled t.vx } .vx e rest none) ∧ q = { t.pad with mem := q.mem } ∧
        (∀ i < n, Mem.read q.mem (hPlace h (off + i)) =
          (if e.vb = 0 then t.vx.xs.toList.flatMap XWord.bytes else (combined t.vx.xs.toList).bytes).getD i 0) ∧
        (∀ a, (∀ i < n, a ≠ hPlace h (off + i)) → Mem.read q.mem a = Mem.read t.pad.mem a))

namespace Sys2Proof.Claims

/-- The vector instructions that run over vectors, with the checks of Table 6.9 and R191. -/
def runTable : List ((LTile → Nat → Nat → Instr) × BitVec 8 × (Tile → QEntry → Option VFault)) :=
  [(.vxRun, 0xA4, vxRunCheck), (.vxCmpr, 0xA6, vxPackCheck false), (.vxExpd, 0xA7, vxPackCheck true)]

/-- A stream word for FP32 elements of the scratchpad, unscaled, neither reserved nor broadcast. -/
abbrev plainStream (w : Word) : Prop := swEn w = true ∧ swSrc w = 0 ∧ owFmt w = 0 ∧ owNoscale w = true ∧ swBcast w = false

/-- Element `k` of the first vector of a plain stream. -/
def elemAt (t : Tile) (w : Word) (k : Nat) : BitVec 32 := laneOf 0 (leVal (bytesAt t (t.hOf w) (owOff w + 4 * k) 4)) 0

end Sys2Proof.Claims

/-- R176 to R178, R184, R191, R192, R196, R201: VX.RUN, VX.CMPR and VX.EXPD with their checks passed and no chained stream go through
their NVEC vectors: the instruction is then ready to complete, with 0 for ga where VX.RUN makes no reduction; vs.elems counts every
element; the core, the matrix engine, the exchange unit, the other queues, the handles, counters and full bits are as before. With NVEC 0
they do nothing and return 0. -/
def Sys2Proof.Claims.vectorRuns : Prop :=
  ∀ c ∈ runTable, ∀ (s : State) (p : Nat) (l : LTile) (e : QEntry) (rest : List QEntry) (stall conf : Nat),
    let t := s.tile l
    let nvec := rcNvec e.vb
    let t0 : Tile := { t with pad := conflicts t.pad conf, vx := { t.vx with stall := t.vx.stall + BitVec.ofNat 64 stall } }
    Starts s p l .vx c.2.1 e rest → Settled t → c.2.2 t e = none →
    (nvec = 0 → leaves (c.1 l stall conf) s l (began t0 .vx e rest (some 0))) ∧
    (nvec ≠ 0 → (∀ k ∈ [0, 1, 2], swEn (nth t.vx.s.toList k 0) = true → swSrc (nth t.vx.s.toList k 0) ≠ 2) →
      ∃ s' v, exec (c.1 l stall conf) s = .next s' ∧ (c.2.1 = 0xA4 → rcRed e.vb = 0 → v = 0) ∧
        let t' := s'.tile l
        t' = { began t0 .vx e rest (some v) with pad := t'.pad, vx := t'.vx, sr := t'.sr } ∧
        t'.pad = { t0.pad with mem := t'.pad.mem } ∧ t'.vx.run = none ∧
        t'.vx.elems = t.vx.elems + BitVec.ofNat 64 ((nvec - 1) * t.vx.vl + (if rcTail e.vb = 0 then t.vx.vl else rcTail e.vb)) ∧
        (t'.vx.prog, t'.vx.c, t'.vx.s, t'.vx.vl, t'.vx.stall, t'.vx.instr) = (t.vx.prog, t.vx.c, t.vx.s, t.vx.vl, t0.vx.stall, t.vx.instr))

/-- R180, R181, R184, R185, R191: what one vector writes. VX.RUN with a program of one ADD, SUB or MUL from streams i0 and i1 to o0 writes the
result for each element of the vector; VX.CMPR writes the elements whose mask is not zero, packed in order, and returns how many;
VX.EXPD puts packed elements where the mask is not zero and writes the other input's element elsewhere. No other byte changes. -/
def Sys2Proof.Claims.vectorResults : Prop :=
  ∀ (s : State) (p : Nat) (l : LTile) (e : QEntry) (rest : List QEntry) (stall conf : Nat),
    let t := s.tile l
    let n := t.vx.vl
    let w (k : Nat) : Word := nth t.vx.s.toList k 0
    let lane (k i : Nat) : BitVec 32 := elemAt t (w k) i
    let mask (i : Nat) : Bool := lane 1 i != 0
    let ones (i : Nat) : Nat := ((List.range i).filter mask).length
    let out := w 3
    let writes (i : Instr) (m : Nat) (f : Nat → BitVec 32) (ret : Word) : Prop :=
      ∃ s', exec i s = .next s' ∧ (s'.tile l).vxq.started = [⟨e, true, some ret⟩] ∧
        (∀ k < m, ∀ b < 4, (Mem.read (s'.tile l).pad.mem (hPlace (t.hOf out) (owOff out + 4 * k + b))).toNat = (f k).toNat / 256 ^ b % 256) ∧
        (∀ a, (∀ k < 4 * m, a ≠ hPlace (t.hOf out) (owOff out + k)) → Mem.read (s'.tile l).pad.mem a = Mem.read t.pad.mem a)
    rcNvec e.vb = 1 → rcTail e.vb = 0 → n ≤ 64 → (∀ k ∈ [0, 1, 3], plainStream (w k)) → swEn (w 4) = false →
    (Starts s p l .vx 0xA4 e rest → Settled t → vxRunCheck t e = none → rcRed e.vb = 0 → swEn (w 2) = false →
      (nth t.vx.prog.toList (rcSlot e.vb) []).length = 1 →
      (∀ op ∈ [1, 2, 3], (nth t.vx.prog.toList (rcSlot e.vb) []).head? = some (BitVec.ofNat 32 (op * 2 ^ 26 + 12 * 2 ^ 21 + 8 * 2 ^ 16 + 9 * 2 ^ 11 + 31 * 2 ^ 6)) →
        writes (.vxRun l stall conf) n (fun k => (epScalar op (lane 0 k) (lane 1 k) 0).1) 0)) ∧
    (Starts s p l .vx 0xA6 e rest → Settled t → vxPackCheck false t e = none → swEn (w 2) = false →
      ∃ f, writes (.vxCmpr l stall conf) (ones n) f (BitVec.ofNat 64 (ones n)) ∧ ∀ i < n, mask i = true → f (ones i) = lane 0 i) ∧
    (Starts s p l .vx 0xA7 e rest → Settled t → vxPackCheck true t e = none → plainStream (w 2) →
      writes (.vxExpd l stall conf) n (fun i => if mask i then lane 0 (ones i) else lane 2 i) (BitVec.ofNat 64 (ones n)))

namespace Sys2Proof.Claims

/-- The handle entry of a number. -/
def handleOf (t : Tile) (n : Nat) : Word := nth t.pad.h.toList n 0

/-- A tile with another endpoint. -/
def withEp (t : Tile) (k : Nat) (e : Endpoint) : Tile := { t with xc := { t.xc with ep := t.xc.ep.set! k e } }

/-- A tile with another handle entry. -/
def withHandle (t : Tile) (n : Nat) (w : Word) : Tile := { t with pad := { t.pad with h := t.pad.h.set! n w } }

/-- A tile that has injected `n` more flits. -/
def injected (t : Tile) (n : Nat) : Tile := { t with xc := { t.xc with inj := t.xc.inj + BitVec.ofNat 64 n } }

/-- An XC instruction has started and waits. -/
def xcWaits (t : Tile) (e : QEntry) (rest : List QEntry) (r : XcRun) : Tile :=
  let t1 := began t .xc e rest none
  { t1 with xc := { t1.xc with run := some r }, xcq := { t1.xcq with started := [⟨e, false, none⟩] } }

/-- The XC instruction in progress is ready with a value. -/
def xcReady (t : Tile) (e : QEntry) (ret : Option Word) : Tile :=
  { t with xc := { t.xc with run := none }, xcq := { t.xcq with started := [⟨e, true, ret⟩] } }

/-- The ends of an item from an endpoint to its peer (R283). -/
def endsOf (x : Endpoint) (k rel : Nat) : Ends := ⟨x.peerep.toNat, k, x.peertile.toNat, rel⟩

/-- A control item from an endpoint to its peer: across its port, or to a tile of the partition. -/
def toPeer (x : Endpoint) (k rel : Nat) (mk : Ends → Ctl) : Act :=
  if x.remote then .cell x.port.toNat (mk (endsOf x k rel)) else .pkt x.peertile.toNat [] (.ctl (mk (endsOf x k rel)))

/-- A value that returns a status and nothing else (R284). -/
def status (n : Nat) : Option Word := some (BitVec.ofNat 64 n)

/-- The handle of a scratchpad ring: OWN and VALID cleared as the channel lets go of it (R83, R299, R300). -/
def letGo (t : Tile) (x : Endpoint) : Tile :=
  if x.rloc then t else withHandle t x.handle.toNat (handleOf t x.handle.toNat &&& ~~~0x21#64)

end Sys2Proof.Claims

/-- R284, R286, R287: an open of a receive endpoint over a ring that passes the checks makes the endpoint LISTEN at read position 0 and
sets OWN on a scratchpad ring's handle; with an open request held, it is OPEN at once and the request is answered OK with the ring's
units. An open that fails a check returns BADARG and changes nothing. -/
def Sys2Proof.Claims.receiveOpens : Prop :=
  ∀ (s : State) (p : Nat) (l : LTile) (e : QEntry) (rest : List QEntry),
    let t := s.tile l
    let k := fld e.vb 0 4
    let n := fld e.vb 8 6
    let h := handleOf t n
    let rloc := bit e.vb 5
    let units := if rloc then fld e.vc 32 32 else hLen h / 64
    let old := t.epAt k
    let good : Prop := (old.state = .idle ∨ old.state = .closed) ∧ fld e.vc 0 27 ≤ 100000 ∧
      (if rloc then 16 ≤ units ∧ units ≤ 4194304 ∧ s.rangeMapped p (units * 64 / 65536 + 2) (fld e.vb 22 42 * 64) (units * 64) = true
       else hValid h = true ∧ hR h = true ∧ hRmt h = true ∧ hOwn h = false ∧ hLen h % 64 = 0 ∧ 128 ≤ hLen h)
    let listens : Endpoint :=
      { old with state := .listen, send := false, rloc := rloc, remote := false, port := 0, peerep := 0, peertile := 0, pend := 0, pendSeq := 0,
                 runits := units, pos := 0, credits := 0, seq := 0, ptmo := fld e.vc 0 27, handle := BitVec.ofNat 6 n, dva := fld e.vb 22 42 * 64,
                 wpos := 0, recs := [], asm := none, held := none }
    let owned : Tile := if rloc then t else withHandle t n (h ||| 0x20)
    Starts s p l .xc 0xC1 e rest → bit e.vb 4 = false →
    (if rloc then e.vb &&& 0x3FFFC0 = 0 ∧ e.vc &&& 0xF8000000 = 0 else e.vb &&& 0xFFFFFFFFFFFFC0C0 = 0 ∧ e.vc &&& 0xFFFFFFFFF8000000 = 0) →
    (good → old.held = none → leaves (.xcOpenReceive l) s l (began (withEp owned k listens) .xc e rest (status 0))) ∧
    (∀ a, good → old.held = some a →
      leavesActs (.xcOpenReceive l) s p l
        (injected (began (withEp owned k { listens with
          state := .isOpen, remote := a.port.isSome, port := BitVec.ofNat 4 (a.port.getD 0), peerep := BitVec.ofNat 4 a.ends.sep,
          peertile := BitVec.ofNat 12 a.ends.srctile }) .xc e rest (status 0)) 1)
        [match a.port with
         | some q => .cell q (.openRep ⟨a.ends.sep, a.ends.dep, a.ends.srctile, a.ends.dtile⟩ 0 units)
         | none => .pkt a.ends.srctile [] (.ctl (.openRep ⟨a.ends.sep, a.ends.dep, a.ends.srctile, a.ends.dtile⟩ 0 units))]) ∧
    (¬ good → leaves (.xcOpenReceive l) s l (began t .xc e rest (status 2)))

/-- R286, R288: an open of a send endpoint makes the endpoint OPENING and sends an open request to the peer; the instruction waits for the
reply. A peer that does not exist, or an endpoint in use, is BADARG. -/
def Sys2Proof.Claims.sendOpens : Prop :=
  ∀ (s : State) (p : Nat) (l : LTile) (e : QEntry) (rest : List QEntry),
    let t := s.tile l
    let k := fld e.vb 0 4
    let old := t.epAt k
    let remote := bit e.vb 5
    let good : Prop := (old.state = .idle ∨ old.state = .closed) ∧
      (if remote then (s.part p).ports.testBit (fld e.vb 8 4) = true else fld e.vb 16 12 < (s.part p).count)
    let opening : Endpoint :=
      { old with state := .opening, send := true, rloc := false, remote := remote, port := BitVec.ofNat 4 (fld e.vb 8 4),
                 peerep := BitVec.ofNat 4 (fld e.vb 12 4), peertile := BitVec.ofNat 12 (fld e.vb 16 12), pend := 0, pendSeq := 0, runits := 0,
                 pos := 0, credits := 0, seq := 0, recs := [], asm := none }
    Starts s p l .xc 0xC1 e rest → bit e.vb 4 = true → e.vb &&& 0xFFFFFFFFF00000C0 = 0 → (remote = false → fld e.vb 8 4 = 0) → e.vc = 0 →
    (good → leavesActs (.xcOpenSend l) s p l (injected (xcWaits (withEp t k opening) e rest (.openSend k)) 1)
      [toPeer opening k ((s.part p).relOf l) .openReq]) ∧
    (¬ good → leaves (.xcOpenSend l) s l (began t .xc e rest (status 2)))

/-- R299 to R301: XC.CLOSE returns BADARG for an IDLE endpoint and makes a CLOSED one IDLE; a send endpoint sends its peer a close marker
behind its messages; a receive endpoint discards what it holds, counted by xc.closedrop, lets go of its ring, and unless it was
listening tells its peer. -/
def Sys2Proof.Claims.closes : Prop :=
  ∀ (s : State) (p : Nat) (l : LTile) (e : QEntry) (rest : List QEntry),
    let t := s.tile l
    let k := fld e.vb 0 4
    let x := t.epAt k
    let rel := (s.part p).relOf l
    let held := (x.recs.map (·.flits)).sum + (match x.asm with | some a => a.got | none => 0)
    let dropped : Tile :=
      let t1 := withEp (letGo t x) k { x with state := .idle, recs := [], asm := none }
      { t1 with xc := { t1.xc with closedrop := t1.xc.closedrop + BitVec.ofNat 64 held } }
    Starts s p l .xc 0xC2 e rest → e.vb.toNat < 16 →
    (x.state = .idle → leaves (.xcClose l) s l (began t .xc e rest (status 2))) ∧
    (x.state = .closed → leaves (.xcClose l) s l (began (withEp t k { x with state := .idle }) .xc e rest (status 0))) ∧
    (x.state ≠ .idle → x.state ≠ .closed → x.send = true →
      leavesActs (.xcClose l) s p l (injected (began (withEp t k { x with state := .idle }) .xc e rest (status 0)) 1)
        [if x.remote then .cross x.port.toNat (.close (endsOf x k rel)) else .pkt x.peertile.toNat [] (.marker (endsOf x k rel))]) ∧
    (x.state = .listen → x.send = false → leaves (.xcClose l) s l (began dropped .xc e rest (status 0))) ∧
    (x.state = .opening ∨ x.state = .isOpen ∨ x.state = .draining → x.send = false →
      leavesActs (.xcClose l) s p l (injected (began dropped .xc e rest (status 0)) 1) [toPeer x k rel .closeNotice])

namespace Sys2Proof.Claims

/-- R289: the units of a message of `len` bytes. -/
def msgUnits (len : Nat) : Nat := 1 + (len + 63) / 64

/-- R293, R360: what a message of `len` bytes at an offset of a buffer puts on its way. -/
def messageOf (t : Tile) (x : Endpoint) (k rel off len : Nat) (h : Word) (tag : BitVec 32) : List Act :=
  if x.remote then
    (List.range (Nat.max 1 ((len + 16383) / 16384))).map (fun i =>
      let bs := bytesAt t h (off + 16384 * i) (Nat.min 16384 (len - 16384 * i))
      .cross x.port.toNat (if i = 0 then .msg (endsOf x k rel) len x.seq tag bs else .msgc (endsOf x k rel) (i * 16384) x.seq bs))
  else
    (List.range (Nat.max 1 ((len + 63) / 64))).map (fun i =>
      .pkt x.peertile.toNat [] (.flit ⟨endsOf x k rel, x.seq, len, tag, msgUnits len, false, i, bytesAt t h (off + 64 * i) (Nat.min 64 (len - 64 * i))⟩))

/-- R292: a PAD of `units` units. -/
def padOf (x : Endpoint) (k rel units : Nat) : Act :=
  if x.remote then .cross x.port.toNat (.pad (endsOf x k rel) x.seq units)
  else .pkt x.peertile.toNat [] (.flit ⟨endsOf x k rel, x.seq, 0, 0, units, true, 0, []⟩)

/-- What a send does with the hall passes of an endpoint: the acts, the endpoint, and whether the message has gone (R292, R293). -/
def sent (t : Tile) (x : Endpoint) (k rel off len : Nat) (h : Word) (tag : BitVec 32) : List Act × Endpoint × Bool :=
  let u := msgUnits len
  let room := x.runits - x.pos
  let gone (x : Endpoint) : Endpoint :=
    { x with credits := x.credits - u, pos := (x.pos + u) % x.runits, seq := x.seq + 1, msgs := x.msgs + 1 }
  if u ≤ room then
    if u ≤ x.credits then (messageOf t x k rel off len h tag, gone x, true) else ([], x, false)
  else if x.credits < room then ([], x, false)
  else
    let y := { x with credits := x.credits - room, pos := 0 }
    if u ≤ y.credits then (padOf x k rel room :: messageOf t y k rel off len h tag, gone y, true) else ([padOf x k rel room], y, false)

end Sys2Proof.Claims

/-- R291 to R294: XC.SEND on an OPEN endpoint that holds the message's hall passes, padding to the ring's end where the message would wrap,
sends it and returns OK with its SEQ; without them it waits, and SEND_RESUME goes on once they are there. A CLOSED endpoint returns
CLOSED, one whose PEND is TIMEOUT returns that once, and any other BADARG. -/
def Sys2Proof.Claims.sends : Prop :=
  (∀ (s : State) (p : Nat) (l : LTile) (e : QEntry) (rest : List QEntry),
    let t := s.tile l
    let k := fld e.vb 28 4
    let x := t.epAt k
    let h := handleOf t (fld e.vb 20 6)
    let off := fld e.vb 0 20
    let len := fld e.vc 0 24
    let tag := BitVec.ofNat 32 (fld e.vc 32 32)
    let r := sent t x k ((s.part p).relOf l) off len h tag
    Starts s p l .xc 0xC3 e rest → e.vb &&& 0xFFFFFFFF0C000000 = 0 → e.vc &&& 0xFF000000 = 0 → hValid h = true → hR h = true →
    off + len ≤ hLen h → off % 8 = 0 →
    (x.send = true → x.state = .isOpen → x.pend.toNat ≠ 8 → msgUnits len ≤ x.runits →
      leavesActs (.xcSend l) s p l (injected
        (if r.2.2 then began { withEp t k r.2.1 with xc := { (withEp t k r.2.1).xc with run := none } } .xc e rest (some (BitVec.ofNat 64 (x.seq.toNat * 2 ^ 32)))
         else xcWaits (withEp t k r.2.1) e rest (.send k off len h tag)) r.1.length) r.1) ∧
    (x.send = true → x.state = .isOpen → x.pend.toNat ≠ 8 → x.runits < msgUnits len → leaves (.xcSend l) s l (began t .xc e rest (status 2))) ∧
    (x.send = true → x.state = .isOpen → x.pend.toNat = 8 →
      leaves (.xcSend l) s l (began (withEp t k { x with pend := 0 }) .xc e rest (some (BitVec.ofNat 64 (x.pendSeq.toNat * 2 ^ 32 + 8))))) ∧
    (x.send = true → x.state = .closed → leaves (.xcSend l) s l (began t .xc e rest (status 7))) ∧
    (x.send = false ∨ (x.state ≠ .isOpen ∧ x.state ≠ .closed) → leaves (.xcSend l) s l (began t .xc e rest (status 2)))) ∧
  (∀ (s : State) (p : Nat) (l : LTile) (e : QEntry) (k : Fin 16) (off len : Nat) (h : Word) (tag : BitVec 32) (n : Nat),
    let t := s.tile l
    let x := { t.epAt k with stall := (t.epAt k).stall + BitVec.ofNat 64 n }
    let r := sent t x k ((s.part p).relOf l) off len h tag
    s.runs l = some p → t.pad.ecc = [] → t.pad.corrWords = [] → t.xc.run = some (.send k off len h tag) → t.xcq.started = [⟨e, false, none⟩] →
    r.2.2 = true →
    leavesActs (.sendResume l n) s p l (injected (xcReady (withEp t k r.2.1) e (some (BitVec.ofNat 64 (x.seq.toNat * 2 ^ 32)))) r.1.length) r.1)

namespace Sys2Proof.Claims

/-- R295, R296: the record at the read position: the first that is no PAD. -/
def frontOf (x : Endpoint) : Option RingRec := (x.recs.filter (fun r => r.kind ≠ 2)).head?

/-- R295: an endpoint with something for a SELECT. -/
abbrev selects (x : Endpoint) : Prop := (frontOf x).isSome = true ∨ x.state = .closed

/-- Table 9.6: what a SELECT returns for endpoint `k`. -/
def selected (x : Endpoint) (k : Nat) : Word :=
  match frontOf x with
  | some r => BitVec.ofNat 64 ((if r.kind = 3 then 12 else 0) + k * 2 ^ 8 + r.len % 2 ^ 24 * 2 ^ 16 + (r.at_ + 1) % x.runits % 2 ^ 22 * 2 ^ 42)
  | none => BitVec.ofNat 64 (7 + k * 2 ^ 8)

/-- R295: endpoint `k` is the first ready one that a SELECT names, counting up from 0, or with ROT from after xc.selrot. -/
abbrev chosen (t : Tile) (mask : Nat) (rot : Bool) (k : Fin 16) : Prop :=
  let rank (j : Fin 16) : Nat := if rot then (j.val + 15 - t.xc.selrot.toNat) % 16 else j.val
  mask.testBit k = true ∧ selects (t.epAt k) ∧ ∀ j : Fin 16, mask.testBit j = true → selects (t.epAt j) → rank k ≤ rank j

/-- The tile after a SELECT that chose `k`, its instruction not yet marked. -/
def rotated (t : Tile) (rot : Bool) (k : Fin 16) : Tile := if rot then { t with xc := { t.xc with selrot := BitVec.ofNat 4 k } } else t

end Sys2Proof.Claims

/-- R295: XC.SELECT returns the word of the first ready endpoint that it names, waits while none is, and is BADARG when it names more than
eight or one that cannot receive; SELECT_READY ends the wait once one is ready. -/
def Sys2Proof.Claims.selections : Prop :=
  (∀ (s : State) (p : Nat) (l : LTile) (e : QEntry) (rest : List QEntry),
    let t := s.tile l
    let mask := fld e.vb 0 16
    let rot := bit e.vb 16
    let named : Prop := ((List.range 16).filter (fun j => mask.testBit j)).length ≤ 8 ∧ ∀ j : Fin 16, mask.testBit j = true →
      (t.epAt j).send = false ∧ (t.epAt j).state ≠ .idle ∧ (t.epAt j).state ≠ .opening
    Starts s p l .xc 0xC4 e rest → e.vb.toNat < 2 ^ 17 →
    (¬ named → leaves (.xcSelect l) s l (began t .xc e rest (status 2))) ∧
    (mask = 0 → leaves (.xcSelect l) s l (began t .xc e rest (status 0x1000))) ∧
    (∀ k : Fin 16, named → chosen t mask rot k →
      leaves (.xcSelect l) s l (began { rotated t rot k with xc := { (rotated t rot k).xc with run := none } } .xc e rest (some (selected (t.epAt k) k)))) ∧
    (named → mask ≠ 0 → (∀ j : Fin 16, mask.testBit j = true → ¬ selects (t.epAt j)) →
      leaves (.xcSelect l) s l (xcWaits t e rest (.select mask rot)))) ∧
  (∀ (s : State) (p : Nat) (l : LTile) (e : QEntry) (mask : Nat) (rot : Bool) (k : Fin 16),
    let t := s.tile l
    s.runs l = some p → t.pad.corrWords = [] → t.xc.run = some (.select mask rot) → t.xcq.started = [⟨e, false, none⟩] → chosen t mask rot k →
    leaves (.selectReady l) s l (xcReady (rotated t rot k) e (some (selected (t.epAt k) k))))

/-- R296, R299: XC.DONE consumes the message at the read position: its header word is empty, the position moves over it and over a PAD
behind it, and an OPEN endpoint returns their hall passes; the last record of a DRAINING endpoint closes it. With no message it is
BADARG. -/
def Sys2Proof.Claims.consumes : Prop :=
  ∀ (s : State) (p : Nat) (l : LTile) (e : QEntry) (rest : List QEntry),
    let t := s.tile l
    let k := fld e.vb 0 4
    let x := t.epAt k
    let rel := (s.part p).relOf l
    let empty (t : Tile) (r : RingRec) : Tile :=
      if x.rloc then t else { t with pad := t.pad.setFull (wordOf (hPlace (handleOf t x.handle.toNat) (r.at_ * 64))) false }
    Starts s p l .xc 0xC5 e rest → e.vb.toNat < 16 →
    (x.send = true ∨ x.recs = [] ∨ (∃ r rs, x.recs = r :: rs ∧ r.kind = 2) → leaves (.xcDone l) s l (began t .xc e rest (status 2))) ∧
    (∀ r rs, x.send = false → x.recs = r :: rs → r.kind ≠ 2 →
      let y : Endpoint := { x with recs := rs, pos := (x.pos + r.units) % x.runits, msgs := x.msgs + 1 }
      (x.state = .isOpen → (∀ q ∈ rs.head?, q.kind ≠ 2) →
        leavesActs (.xcDone l) s p l (injected (began (withEp (empty t r) k y) .xc e rest (status 0)) 1)
          [toPeer x k rel (fun b => .passes b.dep b.dtile r.units)]) ∧
      (∀ q qs, x.state = .isOpen → rs = q :: qs → q.kind = 2 →
        leavesActs (.xcDone l) s p l
          (injected (began (withEp (empty (empty t r) q) k { y with recs := qs, pos := (y.pos + q.units) % x.runits }) .xc e rest (status 0)) 1)
          [toPeer x k rel (fun b => .passes b.dep b.dtile (r.units + q.units))]) ∧
      (x.state = .draining → rs = [] →
        leaves (.xcDone l) s l (began (withEp (letGo (empty t r) x) k { y with state := .closed }) .xc e rest (status 0))) ∧
      (∀ q ∈ rs.head?, x.state = .draining → q.kind ≠ 2 → leaves (.xcDone l) s l (began (withEp (empty t r) k y) .xc e rest (status 0))))

namespace Sys2Proof.Claims

/-- R307: the descriptor at an offset of a buffer is reached, and passes its checks, as `c`. -/
abbrev reaches (s : State) (p l : Nat) (buf : Word) (off : Nat) (c : XCur) : Prop := ((s.tile l).reach (s.env p l) buf off).2 = .ok c

/-- R284, R305, R241: what is left at a tile once the descriptor at hand has been issued: the next one is reached, or the XC.PUT is ready,
or the walker's firing has issued its last. -/
def movesOn (s : State) (p l : Nat) (t : Tile) (walker : Bool) (t2 : Tile) : Prop :=
  if walker then
    ∃ k n, t.bl.firing = some (k, n) ∧
      let t1 : Tile := { t with xc := { t.xc with walkCur := none, walked := t.xc.walked + 1 }, bl := { t.bl with firing := some (k + 1, n) } }
      ((n ≤ k + 1 ∧ t2 = t1) ∨
        (k + 1 < n ∧ ∃ c, reaches s p l (handleOf t 1) (t.bl.pos.toNat + 32 + 32 * (k + 1)) c ∧ t2 = { t1 with xc := { t1.xc with walkCur := some c } }))
  else
    ∃ h off count idx e, t.xc.run = some (.put h off count idx) ∧ t.xcq.started = [⟨e, false, none⟩] ∧
      ((idx + 1 = count ∧ t2 = xcReady { t with xc := { t.xc with putCur := none } } e none) ∨
        (idx + 1 ≠ count ∧ ∃ c, reaches s p l h (off + 32 * (idx + 1)) c ∧
          t2 = { t with xc := { t.xc with putCur := some c, run := some (.put h off count (idx + 1)) } }))

/-- The descriptor at hand of the queue's XC.PUT or of the walker's firing. -/
abbrev atHand (t : Tile) (walker : Bool) (c : XCur) : Prop := if walker then t.xc.walkCur = some c else t.xc.putCur = some c

/-- A tile with another descriptor at hand. -/
def handed (t : Tile) (walker : Bool) (c : XCur) : Tile :=
  if walker then { t with xc := { t.xc with walkCur := some c } } else { t with xc := { t.xc with putCur := some c } }

/-- The descriptor at hand may be issued. -/
structure Issues (s : State) (p : Nat) (l : LTile) (walker : Bool) (kind : Nat) (c : XCur) : Prop where
  runs : s.runs l = some p
  whole : (s.tile l).pad.ecc = []
  counted : (s.tile l).pad.corrWords = []
  hand : atHand (s.tile l) walker c
  isKind : c.d.kind = kind

/-- R205: what marks a write of the descriptor at hand: the tile, whether the walker issued it, and where it stands among their writes. -/
def tagOf (t : Tile) (l : Nat) (walker : Bool) : Tag := ⟨l, walker, if walker then t.xc.walked else t.xcq.completed⟩

/-- R305: a piece of a descriptor's data as a write body. -/
def bodyOf (t : Tile) (c : XCur) (rel off n : Nat) : WriteBody :=
  ⟨c.d.dsth, c.d.dstoff + off, bytesAt t c.src (c.d.srcoff + off) n, if c.d.cnt then some c.d.ctr else none, c.d.setfull,
    if c.d.flowen then some c.d.flow else none, some rel⟩

end Sys2Proof.Claims

/-- R284, R305, R307: XC.PUT of no descriptors is ready at once; of one or more, its first descriptor is reached and the instruction goes
on. -/
def Sys2Proof.Claims.puts : Prop :=
  ∀ (s : State) (p : Nat) (l : LTile) (e : QEntry) (rest : List QEntry),
    let t := s.tile l
    let h := handleOf t (fld e.va 20 6)
    let off := fld e.va 0 20
    let n := e.vb.toNat
    Starts s p l .xc 0xC0 e rest → e.va.toNat < 2 ^ 26 → n ≤ 1024 → hValid h = true → hR h = true → off % 32 = 0 →
    (n = 0 → leaves (.xcPut l) s l (began { t with xc := { t.xc with run := none } } .xc e rest none)) ∧
    (∀ c, n ≠ 0 → reaches s p l h off c →
      leaves (.xcPut l) s l (xcWaits { t with xc := { t.xc with putCur := some c } } e rest (.put h off n 0)))

/-- R305, R360: WRITE sends LEN bytes as packets of 64 to a tile of the partition, or as contexts of 16,384 bytes across a port. -/
def Sys2Proof.Claims.writesSent : Prop :=
  ∀ (s : State) (p : Nat) (l : LTile) (walker : Bool) (c : XCur) (t2 : Tile),
    let t := s.tile l
    let rel := (s.part p).relOf l
    let z := if c.d.remote then 16384 else 64
    let acts := (List.range (Nat.max 1 ((c.d.len + z - 1) / z))).map (fun i =>
      let b := bodyOf t c rel (z * i) (Nat.min z (c.d.len - z * i))
      if c.d.remote then Act.cross c.d.port (.write b c.d.dtile rel) else .pkt c.d.dtile [tagOf t l walker] (.write b))
    Issues s p l walker 1 c → movesOn s p l t walker t2 → leavesActs (.write l walker) s p l (injected t2 acts.length) acts

/-- R260, R261, R305: REDUCE puts its packets into the tile's own queue of the tree, the root's with the write that each sum becomes, as far
as the queue has room, and counts the tc it waited. -/
def Sys2Proof.Claims.reducesSent : Prop :=
  ∀ (s : State) (p : Nat) (l : LTile) (walker : Bool) (c : XCur) (n : Nat),
    let t := s.tile l
    let x := s.part p
    let rel := x.relOf l
    let left := c.d.len / 64 - c.sent
    let waited : Tile := { t with xc := { t.xc with redwait := t.xc.redwait + BitVec.ofNat 64 n } }
    let sentOne (node : TreeNode) (i : Nat) : Act := .reduce c.d.tree ⟨bytesAt t c.src (c.d.srcoff + 64 * (c.sent + i)) 64,
      if node.parent.isNone then some { bodyOf t c rel (64 * (c.sent + i)) 0 with writer := none } else none, [tagOf t l walker]⟩
    Issues s p l walker 2 c →
    ∀ node, Tab.find? x.trees (4096 * c.d.tree + rel) = some node → c.sent ≤ c.d.len / 64 → (c.d.len / 64 ≠ 0 → c.sent < c.d.len / 64) →
    (∀ t2, left ≤ 4 - node.own.length → movesOn s p l waited walker t2 →
      leavesActs (.reduce l walker n) s p l (injected t2 left) ((List.range left).map (sentOne node))) ∧
    (0 < 4 - node.own.length → 4 - node.own.length < left →
      leavesActs (.reduce l walker n) s p l
        (injected (handed waited walker { c with sent := c.sent + (4 - node.own.length) }) (4 - node.own.length))
        ((List.range (4 - node.own.length)).map (sentOne node)))

/-- R264, R234, R305: CBWRITE hands its data to the chalkboard root for a group; ANNOUNCE hands an announce to its port, with a word or
without. -/
def Sys2Proof.Claims.boardAndAnnounce : Prop :=
  ∀ (s : State) (p : Nat) (l : LTile) (walker : Bool) (c : XCur) (t2 : Tile),
    let t := s.tile l
    let d := c.d
    movesOn s p l t walker t2 →
    (Issues s p l walker 3 c → leavesActs (.cbwrite l walker) s p l (injected t2 1)
      [.chalk d.group d.dstoff (bytesAt t c.src d.srcoff d.len) d.setfull d.cnt (tagOf t l walker)]) ∧
    (Issues s p l walker 4 c → leavesActs (.announce l walker) s p l (injected t2 1)
      [.cell d.port (.announce (if d.word then some (BitVec.ofNat 64 (leVal (bytesAt t c.src d.srcoff 8))) else none) d.ctr d.flow d.dtile d.count d.dsth
        d.dstoff)])

/-- R318: a DMA descriptor at hand enters its stream's queue when an entry is free, and waits otherwise. -/
def Sys2Proof.Claims.dmaAccepted : Prop :=
  ∀ (s : State) (p : Nat) (l : LTile) (walker : Bool) (c : XCur) (d : DmaDesc) (k : Fin 4) (t2 : Tile),
    let t := s.tile l
    let x := t.xc.streams[k]
    Issues s p l walker 5 c → c.dma = some d → c.d.stream = k.val →
    (x.queue.length < 8 →
      movesOn s p l { t with xc := { t.xc with streams := t.xc.streams.set k { x with queue := x.queue ++ [d] } } } walker t2 →
      leaves (.dma l walker) s l t2) ∧
    (8 ≤ x.queue.length → leaves (.dma l walker) s l t)

/-- R255, R256, R264, R266, R306, R369: what a tile asks of the module: an item for a tile of its partition is injected with the
partition's index, and one for a tile that its partition does not have is refused; a cell or context for a port waits there, unless the
port is DOWN; a chalkboard write waits for its grant; a reduction packet stands behind the tile's others. -/
def Sys2Proof.Claims.asked : Prop :=
  ∀ (s : State) (p l : Nat),
    (∀ (r : Nat) (tags : List Tag) (b : Body), r < (s.part p).count → (s.seat ((s.part p).logical r)).valid = true →
      (s.seat ((s.part p).logical r)).part = p →
      s.act p l (.pkt r tags b) = { s with net := s.net ++ [⟨.tile l, .tile ((s.part p).logical r), p, tags, b⟩] }) ∧
    (∀ (r : Nat) (tags : List Tag) (w : WriteBody) (m : Nat), (s.part p).count ≤ r → w.writer = some m →
      s.act p l (.pkt r tags (.write w)) =
        { s with net := s.net ++ [⟨.tile l, .tile ((s.part p).logical m), p, [], .ctl (.writeFail m r 1 1)⟩] }) ∧
    (∀ (k : Fin 16) (c : Ctl), (s.port k).state ≠ .down →
      s.act p l (.cell k c) = s.setPort k { s.port k with cells := (s.port k).cells ++ [c] }) ∧
    (∀ (k : Fin 16) (c : Ctl), (s.port k).state = .down → s.act p l (.cell k c) = s) ∧
    (∀ (g off : Nat) (bs : List Byte) (full count : Bool) (tag : Tag), s.act p l (.chalk g off bs full count tag) =
      { s with board := { s.board with reqs := s.board.reqs ++ [⟨p, .data g off bs full count, tag⟩] } }) ∧
    (∀ (tree : Nat) (node : TreeNode) (q : RedPkt), Tab.find? (s.part p).trees (4096 * tree + (s.part p).relOf l) = some node →
      let grown : TreeNode := { node with own := node.own ++ [q] }
      s.act p l (.reduce tree q) =
        s.modPart p (fun x => { x with trees := Tab.put x.trees (4096 * tree + (s.part p).relOf l) grown }))

namespace Sys2Proof.Claims

/-- R255, R256, R274, R491: packet `k` in flight is the next of its source, destination and virtual channel, and reaches the tile of duty
`l` in its own partition, which is not held, refused or being wiped; no sample shadows the tile (R497), and no stored word of its
scratchpad is wrong (R96). -/
structure Arrives (s : State) (k : Nat) (x : Packet) (l : Nat) : Prop where
  there : s.net[k]? = some x
  turn : ∀ y ∈ s.net.take k, ¬ (y.src = x.src ∧ y.dst = x.dst ∧ y.body.vc = x.body.vc)
  dst : x.dst = .tile l
  free : (s.seat l).hold = false
  allowed : (s.part x.part).refused = false
  valid : (s.seat l).valid = true
  mine : (s.seat l).part = x.part
  awake : (s.tile l).pad.wiping = false
  unwatched : ∀ y ∈ s.faults.samples, ¬ (y.tile = l ∧ y.state = .live)
  whole : (s.tile l).pad.ecc = []
  counted : (s.tile l).pad.corrWords = []
  sorted : canonical (s.tile l) = true

/-- The state after packet `k` has reached a tile, which becomes `t` with one flit more ejected and asks `as` of the module. -/
def reached (s : State) (k p l : Nat) (t : Tile) (as : List Act) : State :=
  (({ s with net := s.net.take k ++ s.net.drop (k + 1) }).setTile l
    { injected t as.length with xc := { (injected t as.length).xc with ej := (injected t as.length).xc.ej + 1 } }).acts p l as

/-- A scratchpad after bytes from outside: the bytes from an offset of a buffer, with SETFULL the full bits of the words they cover (R87),
and nothing else but OVERWRITE, set when such a word was full. -/
def landed (q q' : Pad) (h : Word) (off : Nat) (bs : List Byte) (setfull : Bool) : Prop :=
  let covered (w : Nat) : Bool := setfull && (List.range 8).all (fun b => (List.range bs.length).any (fun i => hPlace h (off + i) == 8 * w + b))
  (∀ i < bs.length, Mem.read q'.mem (hPlace h (off + i)) = bs.getD i 0) ∧
  (∀ a, (∀ i < bs.length, a ≠ hPlace h (off + i)) → Mem.read q'.mem a = Mem.read q.mem a) ∧
  (∀ w, q'.isFull w = (q.isFull w || covered w)) ∧
  (q'.overwrite = true ↔ q.overwrite = true ∨ ∃ w, covered w = true ∧ q.isFull w = true) ∧
  q' = { q with mem := q'.mem, full := q'.full, overwrite := q'.overwrite }

/-- R84: why a write from outside is refused: REASON 2 for an entry that is not VALID, 3 without RMT, 4 beyond its length. -/
def refusal (h : Word) (off n : Nat) : Option Nat :=
  if hValid h = false then some 2 else if hRmt h = false then some 3 else if hLen h < off + n then some 4 else none

end Sys2Proof.Claims

/-- R84, R87, R91, R233, R306: a remote write that its entry allows is written at its destination, advances its counter by one and, on a flow,
sends a count to the flow's home; one that is not allowed writes nothing and tells its writer the reason, here or across the port. A
count word of an announce advances a counter. -/
def Sys2Proof.Claims.remoteWrites : Prop :=
  ∀ (s : State) (k : Nat) (x : Packet) (l : LTile), Arrives s k x l →
    let t := s.tile l
    let counted (t : Tile) (q : Pad) (c : Option Nat) : Tile := match c with
      | some c => { t with pad := { q with ctr := q.ctr.setIfInBounds c (nth q.ctr.toList c 0 + 1) } }
      | none => { t with pad := q }
    (∀ w, x.body = .write w → w.data.length ≤ 64 → refusal (handleOf t w.handle) w.off w.data.length = none →
      ∃ q, landed t.pad q (handleOf t w.handle) w.off w.data w.setfull ∧
        let s1 := reached s k x.part l (counted t q w.ctr) []
        (w.flow = none → exec (.remoteWriteDeliver k false) s = .next s1) ∧
        (∀ f y, w.flow = some f → Tab.find? (s.part x.part).flows f = some y →
          exec (.remoteWriteDeliver k false) s =
            .next { s1 with net := s1.net ++ [⟨.tile l, .port y.home, x.part, [], .count f w.data.length⟩] })) ∧
    (∀ w r, x.body = .write w → refusal (handleOf t w.handle) w.off w.data.length = some r →
      let s1 := reached s k x.part l t []
      let ft := (s.part x.part).relOf l
      (∀ (q : Fin 16) m, x.src = .port q → w.writer = some m → (s.port q).state ≠ .down →
        exec (.remoteWriteDeliver k false) s = .next (s1.setPort q { s.port q with cells := (s.port q).cells ++ [.writeFail m ft 1 r] })) ∧
      (∀ j m, x.src = .tile j → w.writer = some m → exec (.remoteWriteDeliver k false) s =
        .next { s1 with net := s1.net ++ [⟨.tile l, .tile ((s.part x.part).logical m), x.part, [], .ctl (.writeFail m ft 1 r)⟩] }) ∧
      (w.writer = none → exec (.remoteWriteDeliver k false) s = .next s1)) ∧
    (∀ w c f d n h o, x.body = .ctl (.announce w c f d n h o) →
      exec (.remoteWriteDeliver k false) s = .next (reached s k x.part l (counted t t.pad (some c)) []))

/-- R306: a failure notice at the writer counts in xc.wdenied, and the first since xc.wfault was cleared is recorded. R84, R256: a packet of
another partition, or for a tile being wiped, is discarded and counted. -/
def Sys2Proof.Claims.refusalsNoted : Prop :=
  (∀ (s : State) (k : Nat) (x : Packet) (l : LTile) (dt ft kd r : Nat), Arrives s k x l → x.body = .ctl (.writeFail dt ft kd r) →
    let t := s.tile l
    let c := { t.xc with wdenied := t.xc.wdenied + 1 }
    exec (.writeFailureNotice k) s = .next (reached s k x.part l { t with xc := if t.xc.denied then c else
      { c with denied := true, wkind := BitVec.ofNat 4 kd, wreason := BitVec.ofNat 4 r, wdtile := BitVec.ofNat 12 ft } } [])) ∧
  (∀ (s : State) (k : Nat) (x : Packet) (l : LTile) (e : Ends), s.net[k]? = some x → x.dst = .tile l → x.body = .marker e →
    (∀ y ∈ s.net.take k, ¬ (y.src = x.src ∧ y.dst = x.dst ∧ y.body.vc = x.body.vc)) → (s.seat l).hold = false → (s.part x.part).refused = false →
    (s.seat l).valid = true → (s.seat l).part ≠ x.part ∨ (s.tile l).pad.wiping = true →
    let t := s.tile l
    exec (.channelCloseMarker k) s = .next (({ s with net := s.net.take k ++ s.net.drop (k + 1) }).setTile l
      { t with xc := { t.xc with foreign := t.xc.foreign + 1 } }))

namespace Sys2Proof.Claims

/-- The port by which a packet came in. -/
def portOf (x : Packet) : Option Nat := match x.src with | .port q => some q | _ => none

/-- An answer to whoever sent an item with these ends. -/
def back (x : Packet) (n : Ends) (mk : Ends → Ctl) : Act :=
  let b : Ends := ⟨n.sep, n.dep, n.srctile, n.dtile⟩
  match portOf x with
  | some q => .cell q (mk b)
  | none => .pkt n.srctile [] (.ctl (mk b))

/-- R283: an endpoint is bound to the peer that an item names. -/
abbrev bound (y : Endpoint) (x : Packet) (n : Ends) : Prop :=
  y.peerep.toNat = n.sep ∧ y.peertile.toNat = n.srctile ∧
    (match portOf x with | some q => y.remote = true ∧ y.port.toNat = q | none => y.remote = false)

end Sys2Proof.Claims

/-- R288: an open request makes a LISTEN endpoint OPEN and is answered OK with the ring's units; an IDLE endpoint, or a CLOSED receive
endpoint, holds it, for 10 ms at most; any other endpoint, or one that holds a request already, answers BUSY. An open reply ends the sender's wait: OPEN with the ring's
hall passes after OK, and IDLE after any other status, which the instruction returns. -/
def Sys2Proof.Claims.opensAnswered : Prop :=
  (∀ (s : State) (k : Nat) (x : Packet) (l : LTile) (n : Ends), Arrives s k x l → x.body = .ctl (.openReq n) → n.dep < 16 →
    let t := s.tile l
    let y := t.epAt n.dep
    let then_ (t2 : Tile) (as : List Act) : Prop := exec (.openRequest k) s = .next (reached s k x.part l t2 as)
    (y.state = .listen → y.held = none → y.send = false →
      then_ (withEp t n.dep { y with state := .isOpen, remote := (portOf x).isSome, port := BitVec.ofNat 4 ((portOf x).getD 0),
                                     peerep := BitVec.ofNat 4 n.sep, peertile := BitVec.ofNat 12 n.srctile }) [back x n (fun b => .openRep b 0 y.runits)]) ∧
    (y.state = .idle ∨ (y.state = .closed ∧ y.send = false) → y.held = none → then_ (withEp t n.dep { y with held := some ⟨portOf x, n, s.now⟩ }) []) ∧
    (y.held.isSome = true ∨ y.state = .opening ∨ y.state = .isOpen ∨ y.state = .draining ∨ ((y.state = .listen ∨ y.state = .closed) ∧ y.send = true) → then_ t [back x n (fun b => .openRep b 3 0)])) ∧
  (∀ (s : State) (k : Nat) (x : Packet) (l : LTile) (n : Ends) (st units : Nat) (e : QEntry), Arrives s k x l →
    x.body = .ctl (.openRep n st units) → n.dep < 16 →
    let t := s.tile l
    let y := t.epAt n.dep
    y.state = .opening → t.xc.run = some (.openSend n.dep) → t.xcq.started = [⟨e, false, none⟩] → st < 256 →
    exec (.openReply k) s = .next (reached s k x.part l (xcReady (withEp t n.dep
      (if st = 0 then { y with state := .isOpen, credits := units, runits := units, seq := 0, pos := 0 } else { y with state := .idle })) e (status st)) [])) ∧
  (∀ (s : State) (l : LTile) (j : EpIx) (a : OpenAsk),
    let t := s.tile l
    let y := t.epAt j
    (s.seat l).valid = true → t.pad.corrWords = [] → y.held = some a →
    exec (.openRequestTimeout l j) s = .next ((({ s with now := Nat.max s.now (a.since + 10000000) }).setTile l
      (injected (withEp t j { y with held := none }) 1)).acts (s.seat l).part l
        [match a.port with
         | some q => .cell q (.openRep ⟨a.ends.sep, a.ends.dep, a.ends.srctile, a.ends.dtile⟩ 8 0)
         | none => .pkt a.ends.srctile [] (.ctl (.openRep ⟨a.ends.sep, a.ends.dep, a.ends.srctile, a.ends.dtile⟩ 8 0))]))

/-- R294, R296, R297, R300, R301: at an OPEN send endpoint a hall-pass return adds its units, a truncation notice of its peer sets PEND to
TIMEOUT with the message's SEQ, and a close notice of its peer makes it CLOSED without hall passes; a waiting send then returns CLOSED. -/
def Sys2Proof.Claims.senderTold : Prop :=
  ∀ (s : State) (k : Nat) (x : Packet) (l : LTile) (n : Ends), Arrives s k x l → n.dep < 16 →
    let t := s.tile l
    let y := t.epAt n.dep
    y.send = true → y.state = .isOpen →
    (∀ d u, x.body = .ctl (.passes n.dep d u) →
      exec (.hallPassReturn k) s = .next (reached s k x.part l (withEp t n.dep { y with credits := y.credits + u }) [])) ∧
    (∀ seq, x.body = .ctl (.truncNotice n seq) → bound y x n →
      exec (.truncationNotice k) s = .next (reached s k x.part l (withEp t n.dep { y with pend := 8, pendSeq := seq }) [])) ∧
    (x.body = .ctl (.closeNotice n) → bound y x n →
      let t1 := withEp t n.dep { y with state := .closed, credits := 0 }
      ((∀ j o len h tag, t.xc.run ≠ some (.send j o len h tag)) → exec (.closeNotice k) s = .next (reached s k x.part l t1 [])) ∧
      (∀ e o len h tag, t.xc.run = some (.send n.dep o len h tag) → t.xcq.started = [⟨e, false, none⟩] →
        exec (.closeNotice k) s = .next (reached s k x.part l (xcReady t1 e (status 7)) [])))

namespace Sys2Proof.Claims

/-- R289, Table 9.5: the header row of a record. -/
def headerRow (kind len units : Nat) (seq tag : BitVec 32) : List Byte :=
  leBytes 8 (seq.toNat + kind * 2 ^ 32 + len % 2 ^ 24 * 2 ^ 40) ++ leBytes 8 (tag.toNat + units % 2 ^ 32 * 2 ^ 32) ++ List.replicate 48 0

/-- A scratchpad ring after a record's header row at a unit, the full bit of its first word among it. -/
def headed (q q' : Pad) (h : Word) (unit : Nat) (row : List Byte) : Prop :=
  (∀ i < 64, Mem.read q'.mem (hPlace h (unit * 64 + i)) = row.getD i 0) ∧
  (∀ w, q'.isFull w = (q.isFull w || w == wordOf (hPlace h (unit * 64)))) ∧
  q' = { q with mem := q'.mem, full := q'.full, overwrite := q'.overwrite }

/-- As `headed`, every byte outside the header row as before. -/
def headedOnly (q q' : Pad) (h : Word) (unit : Nat) (row : List Byte) : Prop :=
  headed q q' h unit row ∧ ∀ b, (∀ i < 64, b ≠ hPlace h (unit * 64 + i)) → Mem.read q'.mem b = Mem.read q.mem b

/-- What an endpoint is after a whole message. -/
def gotRecord (y : Endpoint) (kind : Nat) (a : Asm) : Endpoint :=
  { y with asm := none, seq := a.seq + 1, wpos := (y.wpos + a.units) % y.runits, recs := y.recs ++ [⟨y.wpos, kind, a.len, a.units, a.got⟩] }

/-- What a record puts into a ring in HBM (R290). -/
def hbmHeader (y : Endpoint) (kind : Nat) (a : Asm) : List Act :=
  let row := headerRow kind a.len a.units a.seq a.tag
  [.ringWrite (y.dva + (y.wpos * 64 + 8)) (row.drop 8), .ringWrite (y.dva + y.wpos * 64) (row.take 8)]

end Sys2Proof.Claims

/-- R289, R290, R297, R298, R300: a flit for an endpoint that is not OPEN to its sender is discarded and counted, its message answered with a
close notice; one of another SEQ, or out of its place, is discarded as late; the next of its message goes into the ring behind the
header row, and the last makes the record, whose header is written full. -/
def Sys2Proof.Claims.flits : Prop :=
  ∀ (s : State) (k : Nat) (x : Packet) (l : LTile) (f : Flit), Arrives s k x l → x.body = .flit f → f.ends.dep < 16 →
    let t := s.tile l
    let j := f.ends.dep
    let y := t.epAt j
    let h := handleOf t y.handle.toNat
    let a := y.asm.getD ⟨f.seq, f.len, f.tag, f.units, false, 0, s.now⟩
    let a' : Asm := { a with got := a.got + 1 }
    let then_ (t2 : Tile) (as : List Act) : Prop := exec (.messageFlit k) s = .next (reached s k x.part l t2 as)
    let off := (y.wpos + 1) * 64 + 64 * f.idx
    let last : Prop := a.got + 1 = Nat.max 1 ((a.len + 63) / 64)
    (y.send = true ∨ y.state ≠ .isOpen ∨ ¬ bound y x f.ends →
      (f.idx = 0 → then_ { t with xc := { t.xc with closedrop := t.xc.closedrop + 1 } } [back x f.ends .closeNotice]) ∧
      (f.idx ≠ 0 → then_ { t with xc := { t.xc with closedrop := t.xc.closedrop + 1 } } [])) ∧
    (y.send = false → y.state = .isOpen → bound y x f.ends →
      (f.seq ≠ y.seq ∨ (f.pad = false ∧ f.idx ≠ a.got) ∨ (f.pad = true ∧ y.asm.isSome = true) →
        then_ { t with xc := { t.xc with latedrop := t.xc.latedrop + 1 } } []) ∧
      (f.seq = y.seq → f.pad = false → f.idx = a.got → y.rloc = false → f.data.length ≤ 64 → (f.idx + 2) * 64 ≤ 2 ^ 20 →
        ∃ q, (∀ i < f.data.length, Mem.read q.mem (hPlace h (off + i)) = f.data.getD i 0) ∧
          (∀ b, (∀ i < f.data.length, b ≠ hPlace h (off + i)) → (last → ∀ i < 64, b ≠ hPlace h (y.wpos * 64 + i)) → Mem.read q.mem b = Mem.read t.pad.mem b) ∧
          (¬ last → q = { t.pad with mem := q.mem } ∧ then_ (withEp { t with pad := q } j { y with asm := some a' }) []) ∧
          (last → headed t.pad q h y.wpos (headerRow 1 a.len a.units a.seq a.tag) ∧ then_ (withEp { t with pad := q } j (gotRecord y 1 a')) [])) ∧
      (f.seq = y.seq → f.pad = false → f.idx = a.got → y.rloc = true →
        ∃ as, (¬ last → as = [.ringWrite (y.dva + off) f.data]) ∧ (last → as = .ringWrite (y.dva + off) f.data :: hbmHeader y 1 a) ∧
          ∃ s', exec (.messageFlit k) s = .next s' ∧ s' = ((({ s with net := s.net.take k ++ s.net.drop (k + 1) }).setTile l
            (let t2 := withEp t j (if a.got + 1 = Nat.max 1 ((a.len + 63) / 64) then gotRecord y 1 a' else { y with asm := some a' })
             { t2 with xc := { t2.xc with ej := t2.xc.ej + 1 } })).acts x.part l as)))

/-- R292, R296: a PAD in its turn is a record of its own, consumed at once at the read position with its units returned. R297, R302: a
message that stays incomplete for PTMO is written as TRUNC, counted, and reported to its sender. -/
def Sys2Proof.Claims.padsAndTruncations : Prop :=
  (∀ (s : State) (k : Nat) (x : Packet) (l : LTile) (f : Flit), Arrives s k x l → x.body = .flit f → f.ends.dep < 16 →
    let t := s.tile l
    let j := f.ends.dep
    let y := t.epAt j
    let h := handleOf t y.handle.toNat
    y.send = false → y.state = .isOpen → bound y x f.ends → f.seq = y.seq → f.pad = true → y.asm = none → y.rloc = false →
    ∃ q, headedOnly t.pad q h y.wpos (headerRow 2 0 f.units f.seq 0) ∧
      (y.recs ≠ [] → exec (.messageFlit k) s = .next (reached s k x.part l (withEp { t with pad := q } j
        { y with wpos := (y.wpos + f.units) % y.runits, recs := y.recs ++ [⟨y.wpos, 2, 0, f.units, 1⟩] }) [])) ∧
      (y.recs = [] → exec (.messageFlit k) s = .next (reached s k x.part l (withEp { t with
          pad := q.setFull (wordOf (hPlace h (y.wpos * 64))) false } j
        { y with wpos := (y.wpos + f.units) % y.runits, pos := (y.pos + f.units) % y.runits })
        [toPeer y j ((s.part x.part).relOf l) (fun b => .passes b.dep b.dtile f.units)]))) ∧
  (∀ (s : State) (l : LTile) (j : EpIx) (a : Asm),
    let t := s.tile l
    let y := t.epAt j
    let p := (s.seat l).part
    let due := a.since + 1000 * (if y.ptmo = 0 then 50 else y.ptmo)
    let told : Act := toPeer y j ((s.part p).relOf l) (fun b => .truncNotice b a.seq)
    let after (t2 : Tile) (as : List Act) : State := (({ s with now := Nat.max s.now due }).setTile l
      (injected { t2 with xc := { t2.xc with truncs := t2.xc.truncs + 1 } } 1)).acts p l as
    (s.seat l).valid = true → t.pad.corrWords = [] → t.pad.ecc = [] → canonical t = true → y.asm = some a →
    (y.rloc = false → ∃ q, headedOnly t.pad q (handleOf t y.handle.toNat) y.wpos (headerRow 3 a.len a.units a.seq a.tag) ∧
      exec (.partialMessageTimeout l j) s = .next (after (withEp { t with pad := q } j (gotRecord y 3 a)) [told])) ∧
    (y.rloc = true → exec (.partialMessageTimeout l j) s = .next (after (withEp t j (gotRecord y 3 a)) (hbmHeader y 3 a ++ [told]))))

/-- R299, R302: a close marker at an OPEN receive endpoint makes it DRAINING, or CLOSED at once when its ring holds nothing, letting go of the
ring; a message it cuts short becomes a TRUNC first, its flits counted as discarded. -/
def Sys2Proof.Claims.closeMarkers : Prop :=
  ∀ (s : State) (k : Nat) (x : Packet) (l : LTile) (n : Ends), Arrives s k x l → x.body = .marker n → n.dep < 16 →
    let t := s.tile l
    let y := t.epAt n.dep
    let then_ (t2 : Tile) : Prop := exec (.channelCloseMarker k) s = .next (reached s k x.part l t2 [])
    bound y x n → y.send = false → y.state = .isOpen →
    (y.asm = none → y.recs ≠ [] → then_ (withEp t n.dep { y with state := .draining })) ∧
    (y.asm = none → y.recs = [] → then_ (withEp (letGo t y) n.dep { y with state := .closed })) ∧
    (∀ a, y.asm = some a → y.rloc = false →
      ∃ q, headedOnly t.pad q (handleOf t y.handle.toNat) y.wpos (headerRow 3 a.len a.units a.seq a.tag) ∧
        let t1 := withEp { t with pad := q } n.dep { gotRecord y 3 a with state := .draining }
        then_ { t1 with xc := { t1.xc with closedrop := t1.xc.closedrop + BitVec.ofNat 64 a.got } })

/-- R97, R99, R101, R103: a freeze writes back every waiting word of a site with clock pulses, counts and shows itself, and leaves the
stored bytes as they are; a scrub read of a sound row moves to the next row; a wipe's completion lets reads through again and keeps the
banks that failed. -/
def Sys2Proof.Claims.scratchpadAlone : Prop :=
  ∀ (s : State) (x : SiteIx),
    let t := s.siteTile x
    let q := t.pad
    (q.wb ≠ [] → Tab.rising q.ecc = true → q.wiping = false → s.clocked x = true → (∀ w ∈ q.wb, eccWeight (Tab.get 0 q.ecc w) < 3) →
      exec (.freeze x) s = .next ((s.setSiteTile x
        { t with pad := { q with ecc := q.wb.foldl Tab.erase q.ecc, wb := [] }, core := { t.core with freezes := t.core.freezes + 1, froze := true } }).modGrade
          1 x (fun g => { g with tally := g.tally + 1 }))) ∧
    (q.wb = [] → exec (.freeze x) s = .next s) ∧
    (∀ l p, q.wiping = false → s.clocked x = true → q.corrWords = [] → (∀ e ∈ q.ecc, e.1 / 8 ≠ q.scrubRow) →
      s.seatedAt x = some l → (s.seat l).valid = true → (s.seat l).part = p → (s.seat l).site = x.val →
      exec (.scrubRead x) s = .next (s.setSiteTile x { t with pad := { q with scrubRow := (q.scrubRow + 1) % 16384 } })) ∧
    (q.wiping = false → s.clocked x = true → q.corrWords = [] → (∀ e ∈ q.ecc, e.1 / 8 ≠ q.scrubRow) → s.seatedAt x = none →
      exec (.scrubRead x) s = .next (s.setSiteTile x { t with pad := { q with scrubRow := (q.scrubRow + 1) % 16384 } })) ∧
    (q.wiping = true → exec (.wipeComplete x 0) s = .next (s.setSiteTile x
      { t with pad := { q with wiping := false, failedBanks := q.failedBanks.eraseDups } })) ∧
    (∀ b : BitVec 16, q.wiping = true → ∃ s', exec (.wipeComplete x b) s = .next s' ∧ (s'.siteTile x).pad.wiping = false ∧
      (∀ k, k ∈ (s'.siteTile x).pad.failedBanks ↔ k ∈ q.failedBanks ∨ (k < 16 ∧ b.getLsbD k = true)) ∧
      (∀ k < 16, b.getLsbD k = true → (s'.grade 2 (16 * x + k)).state ≠ 0)) ∧
    (q.wiping = false → ∀ b, exec (.wipeComplete x b) s = .next s)

/-- R258, R261: a node of a tree whose own queue and children's queues all hold a packet merges the packets at their heads: each element of
the result is the exact sum of theirs, rounded once; it goes to the parent's queue while that has room, or from the root to its own
tile. -/
def Sys2Proof.Claims.merges : Prop :=
  ∀ (s : State) (p : PartIx) (tree : BitVec 10) (node : BitVec 12) (n : TreeNode) (o : RedPkt) (own : List RedPkt) (heads : List RedPkt),
    let x := s.part p
    let key (r : Nat) : Nat := 4096 * tree.toNat + r
    let next : TreeNode := { n with own := own, qs := n.qs.map (fun q => q.drop 1) }
    let z := if n.bf16 then 2 else 4
    let f := if n.bf16 then Fmt.bf16 else Fmt.fp32
    let sums : List Byte := (List.range (64 / z)).flatMap (fun i =>
      leBytes z (f.ofNum (Num.sum (heads.map (fun h => f.decode (leVal ((h.data.drop (z * i)).take z)))))).1)
    let tags := heads.flatMap (·.tags)
    Tab.find? x.trees (key node.toNat) = some n → n.own = o :: own → heads = o :: n.qs.filterMap (·.head?) → (∀ q ∈ n.qs, q ≠ []) → x.refused = false →
    (∀ w, n.parent = none → o.out = some w →
      exec (.reduceMerge p tree node) s = .next { s.setPart p { x with trees := Tab.put x.trees (key node.toNat) next } with
        net := s.net ++ [⟨.tile (x.logical node.toNat), .tile (x.logical node.toNat), p, tags, .write { w with data := sums }⟩] }) ∧
    (∀ up u q, n.parent = some up → up ≠ node.toNat → Tab.find? x.trees (key up) = some u → nth u.qs (u.kids.findIdx (· == node.toNat)) [] = q → q.length < 4 →
      let grown : TreeNode := { u with qs := u.qs.set (u.kids.findIdx (· == node.toNat)) (q ++ [⟨sums, none, tags⟩]) }
      exec (.reduceMerge p tree node) s = .next (s.setPart p { x with trees := Tab.put (Tab.put x.trees (key node.toNat) next) (key up) grown })) ∧
    (∀ up u, n.parent = some up → up ≠ node.toNat → Tab.find? x.trees (key up) = some u →
      4 ≤ (nth u.qs (u.kids.findIdx (· == node.toNat)) []).length → exec (.reduceMerge p tree node) s = .next s)

namespace Sys2Proof.Claims

/-- Item `f` on its way is the oldest for tile `l` of those in flight, between `pre` and `post`. -/
abbrev onWay (b : Board) (l : Nat) (pre : List ChalkFlight) (f : ChalkFlight) (post : List ChalkFlight) : Prop :=
  b.flight = pre ++ f :: post ∧ (∀ g ∈ pre, l ∉ g.left) ∧ l ∈ f.left

/-- The board once the item has reached the tile. -/
def boardAfter (b : Board) (l : Nat) (pre : List ChalkFlight) (f : ChalkFlight) (post : List ChalkFlight) : Board :=
  let left := f.left.filter (· != l)
  { b with flight := pre ++ (if left = [] then post else { f with left := left } :: post) }

end Sys2Proof.Claims

/-- R264 to R267, R269: the chalkboard root grants the oldest write of the next partition in rotation that has one, and its data goes to all
that partition's tiles; it holds data for 1 ns while a tile's buffer is full. -/
def Sys2Proof.Claims.grants : Prop :=
  ∀ (s : State) (p : Nat) (pre post : List ChalkReq) (r : ChalkReq),
    s.board.reqs = pre ++ r :: post → r.part = p → (∀ y ∈ pre, y.part ≠ p) → p < 8 →
    (∀ y ∈ s.board.reqs, (p + 15 - s.board.turn % 8) % 8 ≤ (y.part + 15 - s.board.turn % 8) % 8 ∧ y.part < 8) →
    let full : Prop := ∃ l ∈ (s.part p).tiles, 12 ≤ s.board.backlog l
    let go (items : List Chalk) : State := { s with board := { s.board with
      reqs := pre ++ post, turn := p, flight := s.board.flight ++ items.map (fun c => ⟨p, c, some r.tag, (s.part p).tiles⟩) } }
    (∀ g off bs sf c, r.item = .data g off bs sf c → bs ≠ [] → ¬ full → exec .chalkboardGrant s = .next (go [r.item])) ∧
    (∀ g off sf, r.item = .data g off [] sf true → exec .chalkboardGrant s = .next (go [.groupCount g off])) ∧
    (∀ g off sf, r.item = .data g off [] sf false → exec .chalkboardGrant s = .next (go [])) ∧
    (∀ g off bs sf c, r.item = .data g off bs sf c → bs ≠ [] → full →
      exec .chalkboardGrant s = .next { s with now := s.now + 1, board := { s.board with hold := s.board.hold + 1 } })

/-- R265, R267: chalkboard data reaches a subscribing tile of its partition at the subscription's buffer, with SETFULL and the subscription's
counter; without a subscription it does nothing, and one that the entry refuses only counts in xc.cbdrop. A count word advances the
counter that it names, or a subscription's. -/
def Sys2Proof.Claims.chalkArrives : Prop :=
  ∀ (s : State) (l : LTile) (pre post : List ChalkFlight) (f : ChalkFlight),
    let t := s.tile l
    let b := { s with board := boardAfter s.board l pre f post }
    let sub (g : Nat) : Nat := (nth t.xc.cbsub.toList g 0).toNat
    let h (g : Nat) : Word := handleOf t (sub g / 256 % 64)
    let up (q : Pad) (g : Nat) : Pad := { q with ctr := q.ctr.setIfInBounds (sub g / 16 % 16) (nth q.ctr.toList (sub g / 16 % 16) 0 + 1) }
    onWay s.board l pre f post → (s.seat l).valid = true → (s.seat l).part = f.part → t.pad.wiping = false → t.pad.ecc = [] → t.pad.corrWords = [] →
    canonical t = true → (∀ y ∈ s.faults.samples, ¬ (y.tile = l ∧ y.state = .live)) →
    (∀ g off bs sf c, f.item = .data g off bs sf c → sub g % 2 = 0 → exec (.chalkboardDeliver l false) s = .next (b.setTile l t)) ∧
    (∀ g off bs sf c, f.item = .data g off bs sf c → sub g % 2 = 1 → refusal (h g) off bs.length ≠ none →
      exec (.chalkboardDeliver l false) s = .next (b.setTile l { t with xc := { t.xc with cbdrop := t.xc.cbdrop + 1 } })) ∧
    (∀ g off bs sf c, f.item = .data g off bs sf c → sub g % 2 = 1 → refusal (h g) off bs.length = none → bs.length ≤ 4096 →
      ∃ q, landed t.pad q (h g) off bs sf ∧ exec (.chalkboardDeliver l false) s = .next (b.setTile l
        { t with pad := if c ∧ sub g / 2 % 2 = 1 then up q g else q, xc := { t.xc with cbrx := t.xc.cbrx + BitVec.ofNat 64 ((bs.length + 255) / 256) } })) ∧
    (∀ k, f.item = .counter k → k < 16 → exec (.countWordApply l) s = .next (b.setTile l
      { t with pad := { t.pad with ctr := t.pad.ctr.setIfInBounds k (nth t.pad.ctr.toList k 0 + 1) } })) ∧
    (∀ g off, f.item = .groupCount g off → sub g % 4 = 3 → refusal (h g) off 0 = none →
      exec (.countWordApply l) s = .next (b.setTile l { t with pad := up t.pad g }))

/-- R272: a chart word puts a logical tile's site, partition and flags into every router, and nothing else changes. -/
def Sys2Proof.Claims.chartWords : Prop :=
  ∀ (s : State) (l : LTile) (x : SiteIx) (p : PartIx) (valid hold : Bool),
    ∃ s', exec (.chartWord l x p valid hold) s = .next s' ∧ s'.seat l = ⟨x, p, valid, hold⟩ ∧ (∀ k, k ≠ l.val → s'.seat k = s.seat k) ∧
      s' = { s with seats := s'.seats }

namespace Sys2Proof.Claims

/-- R318 to R320: the oldest descriptor of stream `k` of tile `l` is `d`, of an operation, and nothing of it has moved; the tile belongs to
partition `p`, whose HBM is not refused (R335), no sample shadows it, and no stored word of it is wrong. -/
structure Streams (s : State) (p : Nat) (l : LTile) (k : StreamIx) (op : Nat) (d : DmaDesc) (rest : List DmaDesc) : Prop where
  valid : (s.seat l).valid = true
  mine : (s.seat l).part = p
  served : (s.part p).refused = false
  queue : ((s.tile l).stream k).queue = d :: rest
  isOp : d.op = op
  fresh : ((s.tile l).stream k).fault = none ∧ ((s.tile l).stream k).status = none ∧ ((s.tile l).stream k).moved = 0 ∧
    ((s.tile l).stream k).spoiled = false
  whole : (s.tile l).pad.ecc = []
  counted : (s.tile l).pad.corrWords = []
  sorted : canonical (s.tile l) = true
  unwatched : ∀ y ∈ s.faults.samples, ¬ (y.tile = l ∧ y.state = .live)
  stores : Tab.rising s.hbm.cells = true ∧ Tab.rising s.hbm.keys = true ∧ Tab.rising s.locker.cells = true ∧ Tab.rising s.locker.keys = true

/-- R314 to R316: a cached translation puts a device virtual address at a module physical address under a key. -/
abbrev cached (x : Part) (dva : Nat) (write : Bool) (pa key : Nat) : Prop :=
  ∃ e, x.mm.tlb.find? (fun t => t.page ≤ dva && dva < t.page + t.size && (!write || t.w)) = some e ∧
    pa = (x.physOf (e.frame + (dva - e.page))).getD 0 ∧ key = if e.ret then x.keyRet else x.keyWork

/-- R336 to R338, R481: the unit at an address holds no error and its stack makes no request wait. -/
abbrev soundAt (s : State) (pa : Nat) : Prop :=
  pa / 64 ∉ s.hbm.poison ∧ pa / 64 ∉ s.hbm.bad ∧ pa / 64 ∉ s.hbm.weak ∧ (nth s.hbm.heat.toList (pa / 2 ^ 36) ⟨0, 1, 0, false, false⟩).hot = false

/-- R328: the regulator's tokens for `n` bytes are there. -/
abbrev affords (x : Part) (n : Nat) : Prop := x.reg.rate.force = 0 ∨ n ≤ x.reg.tokens

/-- A partition that has spent tokens for `n` bytes, read `r` bytes of HBM and written `w`. -/
def spent (x : Part) (n r w : Nat) : Part :=
  { x with reg := if x.reg.rate.force = 0 then x.reg else { x.reg with tokens := x.reg.tokens - n }
           mm := { x.mm with rdbytes := x.mm.rdbytes + r, wrbytes := x.mm.wrbytes + w } }

/-- HBM after bytes written at an address under a key: they read back, the rest of their unit is kept where it stood under that key, and
every other unit is as before. -/
def hbmWrote (h h' : Hbm) (key pa : Nat) (bs : List Byte) : Prop :=
  (∀ i < bs.length, h'.byte key (pa + i) = bs.getD i 0) ∧
  (∀ a j, a / 64 ≠ pa / 64 → h'.byte j a = h.byte j a) ∧
  (Tab.find? h.keys (pa / 64) = some key → ∀ a, a / 64 = pa / 64 → (a < pa ∨ pa + bs.length ≤ a) → h'.byte key a = h.byte key a) ∧
  h' = { h with cells := h'.cells, keys := h'.keys }

/-- The bytes that HBM gives under a key. -/
def hbmBytes (h : Hbm) (key pa n : Nat) : List Byte := (List.range n).map (fun i => h.byte key (pa + i))

/-- A tile whose stream has done with its oldest descriptor. -/
def streamDone (t : Tile) (k : StreamIx) (moved bytes st : Nat) (spoiled range : Bool) : Tile :=
  let x := t.stream k
  let y := { x with moved := moved, status := some st, bytes := x.bytes + bytes, spoiled := x.spoiled || spoiled, range := x.range || range }
  { t with xc := { t.xc with streams := t.xc.streams.set k y } }

/-- The state after a transfer. -/
def moved (s : State) (p l : Nat) (x : Part) (t : Tile) (h : Hbm) : State := { (s.setPart p x).setTile l t with hbm := h }

end Sys2Proof.Claims

/-- R320, R324, R333, R337, R338: TO_HBM of a row within one 64-byte unit writes it to HBM under its page's key, and FROM_HBM brings one into the
scratchpad; a poisoned source moves nothing and ends POISONED; a descriptor of no bytes is OK at once. -/
def Sys2Proof.Claims.rowsMoved : Prop :=
  ∀ (s : State) (p : Nat) (l : LTile) (k : StreamIx) (d : DmaDesc) (rest : List DmaDesc) (pa key : Nat),
    let t := s.tile l
    let x := s.part p
    let n := d.len
    p < 8 → d.rows = 1 → 0 < n → n ≤ 64 - d.dva % 64 → pa % 64 + n ≤ 64 → d.dva < 2 ^ 48 → affords x 64 →
    (Streams s p l k 1 d rest → cached x d.dva true pa key → soundAt s pa →
      ∃ h, hbmWrote s.hbm h key pa (bytesAt t d.lh d.loff n) ∧
        exec (.toHbm l k) s = .next (moved s p l (spent x 64 0 n) (streamDone t k n n 0 false false) h)) ∧
    (Streams s p l k 2 d rest → cached x d.dva false pa key → soundAt s pa →
      ∃ q, landed t.pad q d.lh d.loff (hbmBytes s.hbm key pa n) d.setfull ∧
        exec (.fromHbm l k) s = .next (moved s p l (spent x 64 n 0) (streamDone { t with pad := q } k n n 0 false false) s.hbm)) ∧
    (Streams s p l k 2 d rest → cached x d.dva false pa key → pa / 64 ∈ s.hbm.poison → (nth s.hbm.heat.toList (pa / 2 ^ 36) ⟨0, 1, 0, false, false⟩).hot = false →
      exec (.fromHbm l k) s = .next (moved s p l (spent x 64 n 0) (streamDone t k n 0 0x0B true false) s.hbm))

/-- R324: a descriptor without rows or without bytes moves nothing and is OK. R325: one whose page is not mapped stops its stream with a
translation fault, counted and reported by MM_TRANSLATION_FAULT. R335: one of a partition whose HBM is refused ends DENIED. -/
def Sys2Proof.Claims.rowsNotMoved : Prop :=
  ∀ (s : State) (p : Nat) (l : LTile) (k : StreamIx) (d : DmaDesc) (rest : List DmaDesc),
    let t := s.tile l
    let x := s.part p
    ∀ c ∈ [((.toHbm : LTile → StreamIx → Instr), 1), (.fromHbm, 2)],
    Streams s p l k c.2 d rest → p < 8 →
    (d.rows = 0 ∨ d.len = 0 → exec (c.1 l k) s = .next (s.setTile l (streamDone t k 0 0 0 false false))) ∧
    (0 < d.rows → 0 < d.len → d.dva < 2 ^ 48 → x.mm.tlb = [] → x.mm.valid.force = false → affords x 64 →
      exec (c.1 l k) s = .next (((s.setPart p { spent x 64 0 0 with mm := { x.mm with faults := x.mm.faults + 1 } }).setTile l
        { t with xc := { t.xc with streams := t.xc.streams.set k { t.stream k with fault := some s.now } } }).partEvent p 0x4001
          [.h (4 * x.relOf l + k), .h l, .d d.dva, .h 1, .h (if c.2 = 1 then 1 else 0), .h 0]))

/-- R330: GATHER brings the table row that an index names into the scratchpad, or zeros and RANGE for an index beyond the table; SCATTER
writes a scratchpad row to the table row, or only sets RANGE. Both count a look-up. -/
def Sys2Proof.Claims.lookups : Prop :=
  ∀ (s : State) (p : Nat) (l : LTile) (k : StreamIx) (d : DmaDesc) (rest : List DmaDesc) (pa key : Nat),
    let t := s.tile l
    let x := s.part p
    let n := d.len
    let ix := leVal (bytesAt t d.ih d.off6 4)
    let a := d.dva + ix * d.dstride
    let looked (x : Part) : Part := { x with mm := { x.mm with lookups := x.mm.lookups + 1 } }
    p < 8 → d.rows = 1 → 0 < n → n ≤ 64 → d.off6 < 2 ^ 20 → affords x 64 →
    (Streams s p l k 4 d rest → ix < d.aux → a < 2 ^ 48 → n ≤ 64 - a % 64 → pa % 64 + n ≤ 64 → cached x a false pa key → soundAt s pa →
      ∃ q, landed t.pad q d.lh d.loff (hbmBytes s.hbm key pa n) d.setfull ∧
        exec (.gather l k) s = .next (moved s p l (looked (spent x 64 n 0)) (streamDone { t with pad := q } k n n 0 false false) s.hbm)) ∧
    (Streams s p l k 4 d rest → d.aux ≤ ix →
      ∃ q, landed t.pad q d.lh d.loff (List.replicate n 0) d.setfull ∧
        exec (.gather l k) s = .next (moved s p l (looked x) (streamDone { t with pad := q } k n 0 0 false true) s.hbm)) ∧
    (Streams s p l k 5 d rest → ix < d.aux → a < 2 ^ 48 → n ≤ 64 - a % 64 → pa % 64 + n ≤ 64 → cached x a true pa key → soundAt s pa →
      ∃ h, hbmWrote s.hbm h key pa (bytesAt t d.lh d.loff n) ∧
        exec (.scatter l k) s = .next (moved s p l (looked (spent x 64 0 n)) (streamDone t k n n 0 false false) h)) ∧
    (Streams s p l k 5 d rest → d.aux ≤ ix →
      exec (.scatter l k) s = .next (moved s p l (looked x) (streamDone t k n 0 0 false true) s.hbm))

/-- R320, R328, R342: HBM_COPY copies a unit within HBM; CK_SAVE copies one into the partition's locker slot and CK_LOAD brings one back; a CK
operation without a locker ends BUSY, and one beyond the slot ends RANGE. -/
def Sys2Proof.Claims.unitsCopied : Prop :=
  ∀ (s : State) (p : Nat) (l : LTile) (k : StreamIx) (d : DmaDesc) (rest : List DmaDesc) (pa key pa2 key2 : Nat),
    let t := s.tile l
    let x := s.part p
    let a := x.lkBase + d.off6
    let inSlot : Prop := s.up.ready.getLsbD 29 = true ∧ d.off6 + 64 ≤ x.lkSize
    p < 8 → d.rows = 1 → d.len = 64 → d.dva < 2 ^ 48 → pa % 64 = 0 →
    (Streams s p l k 3 d rest → d.aux < 2 ^ 48 → affords x 128 → cached x d.dva false pa key → soundAt s pa → cached x d.aux true pa2 key2 → soundAt s pa2 →
      pa2 % 64 = 0 →
      ∃ h, hbmWrote s.hbm h key2 pa2 (hbmBytes s.hbm key pa 64) ∧
        exec (.hbmCopy l k) s = .next (moved s p l (spent x 128 64 64) (streamDone t k 64 64 0 false false) h)) ∧
    (Streams s p l k 6 d rest → inSlot → affords x 64 → cached x d.dva false pa key → soundAt s pa → a % 64 = 0 → a / 64 ∉ s.locker.poison →
      a / 64 ∉ s.locker.bad →
      ∃ m, exec (.ckSave l k) s = .next { moved s p l (spent x 64 64 0) (streamDone t k 64 64 0 false false) s.hbm with locker := m } ∧
        m = { s.locker with cells := m.cells, keys := Tab.put s.locker.keys (a / 64) x.keyRet } ∧
        (∀ i < 64, Tab.get 0 m.cells (a + i) = s.hbm.byte key (pa + i)) ∧
        (∀ b, (b < a ∨ a + 64 ≤ b) → Tab.get 0 m.cells b = Tab.get 0 s.locker.cells b)) ∧
    (Streams s p l k 7 d rest → inSlot → affords x 64 → cached x d.dva true pa key → soundAt s pa → a / 64 ∉ s.locker.poison → a / 64 ∉ s.locker.bad →
      ∃ h, hbmWrote s.hbm h key pa ((List.range 64).map (fun i => s.lockerByte x (a + i))) ∧
        exec (.ckLoad l k) s = .next (moved s p l (spent x 64 0 64) (streamDone t k 64 64 0 false false) h)) ∧
    (Streams s p l k 6 d rest → s.up.ready.getLsbD 29 = false → exec (.ckSave l k) s = .next (s.setTile l (streamDone t k 0 0 3 false false))) ∧
    (Streams s p l k 7 d rest → s.up.ready.getLsbD 29 = true → x.lkSize < d.off6 + 64 →
      exec (.ckLoad l k) s = .next (s.setTile l (streamDone t k 0 0 5 false false)))

/-- R322: a descriptor that has moved everything completes in its order: its status stands in LAST, ERR is set unless it is OK, the stream
counts it, and its counter advances by one when CNT is set. -/
def Sys2Proof.Claims.descriptorsComplete : Prop :=
  ∀ (s : State) (p : Nat) (l : LTile) (k : StreamIx) (d : DmaDesc) (rest : List DmaDesc) (st : Nat),
    let t := s.tile l
    let x := t.stream k
    let y : Stream := { x with queue := rest, moved := 0, status := none, fault := none, spoiled := false, last := BitVec.ofNat 8 st,
                               err := x.err || st != 0, descs := x.descs + 1 }
    let t1 : Tile := { t with xc := { t.xc with streams := t.xc.streams.set k y } }
    (s.seat l).valid = true → (s.seat l).part = p → t.pad.corrWords = [] → (∀ y ∈ s.faults.samples, ¬ (y.tile = l ∧ y.state = .live)) →
    x.queue = d :: rest → x.status = some st →
    exec (.dmaComplete l k) s = .next (s.setTile l
      (if d.cnt then { t1 with pad := { t1.pad with ctr := t1.pad.ctr.setIfInBounds d.ctr (nth t1.pad.ctr.toList d.ctr 0 + 1) } } else t1))

/-- R326, R327: a write of a faulted stream's ID to MM_FRESUME clears its fault, and with ABORT ends its descriptor with FAULT; an ID that
names no faulted stream sets STRAY. A fault that stands for FTMO ms ends the same way, with TIMEDOUT. -/
def Sys2Proof.Claims.faultsEnded : Prop :=
  (∀ (s : State) (p : PartIx) (id : BitVec 14),
    let x := s.part p
    let l := x.logical (id.toNat / 4)
    let t := s.tile l
    let k : StreamIx := ⟨id.toNat % 4, Nat.mod_lt _ (by decide)⟩
    let strayed := exec (.mmFresumeResume p id) s = .next (s.setPart p { x with mm := { x.mm with stray := true } })
    (id.toNat / 4 < x.count → (t.stream k).fault.isSome = true →
      exec (.mmFresumeResume p id) s = .next (s.setTile l { t with xc := { t.xc with streams := t.xc.streams.set k { t.stream k with fault := none } } }) ∧
      exec (.mmFresumeAbort p id) s = .next (s.setTile l
        { t with xc := { t.xc with streams := t.xc.streams.set k { t.stream k with fault := none, status := some 6 } } })) ∧
    (x.count ≤ id.toNat / 4 ∨ (t.stream k).fault = none →
      strayed ∧ exec (.mmFresumeAbort p id) s = .next (s.setPart p { x with mm := { x.mm with stray := true } }))) ∧
  (∀ (s : State) (l : LTile) (k : StreamIx) (since : Nat),
    let t := s.tile l
    let p := (s.seat l).part
    let x := s.part p
    (s.seat l).valid = true → p < 8 → (t.stream k).fault = some since →
    exec (.translationFaultTimeout l k) s = .next
      (({ s with now := Nat.max s.now (since + 1000000 * (if x.mm.ftmo = 0 then 1000 else x.mm.ftmo)) }.setTile l
        { t with xc := { t.xc with streams := t.xc.streams.set k { t.stream k with fault := none, status := some 6 } } }).setPart p
          { x with mm := { x.mm with timedout := true } }))

namespace Sys2Proof.Claims

/-- A partition's slots with the state of one changed. -/
def slotsWith (x : Part) (k : Nat) (st : SlotState) : List Slot := x.slots.mapIdx (fun i e => if i = k then { e with state := st } else e)

/-- R505, R506: a unit taken out of service: its record says RETIRED, or RETIRED for good the second time, in flash at once, and
UNIT_RETIRED tells what is left. -/
def outOfService (s : State) (cls unit left : Nat) : State :=
  let g := s.grade cls unit
  let s1 := s.setGrade cls unit { g with state := if g.retirements = 0 then 2 else 4, retiredAt := s.life, retirements := g.retirements + 1 }
  (s1.flashGrade cls unit).modEvent 0x6008 [.h cls, .h unit, .h left]

/-- R339: slot `k` of a partition retired: its channel has left service, and MM_CHANNEL_RETIRED has told it. -/
def slotGone (s : State) (p k c : Nat) : State :=
  let x := s.part p
  let s1 := s.setPart p { x with slots := slotsWith x k .retired, mm := { x.mm with tlb := [] } }
  let s2 := { s1 with hbm := { s1.hbm with retired := if c ∈ s1.hbm.retired then s1.hbm.retired else s1.hbm.retired ++ [c] } }
  let left := (List.range 256).countP (fun k => !s2.up.failed.getLsbD (5 + k / 32) && !decide (k ∈ s2.hbm.retired))
  (outOfService s2 3 c left).bothEvent (some p) 0x4002 [.h k, .h (c / 32), .h (c % 32), .h 1]

/-- R328: whether a request of the partition stands without tokens. -/
abbrev starved (s : State) (p : Nat) : Prop :=
  let x := s.part p
  x.reg.tokens < 128 ∧ ∃ r < x.count, ∃ k < 4, let y := (s.tile (x.logical r)).stream k; y.queue ≠ [] ∧ y.fault = none ∧ y.status = none

/-- BURST in bytes: units of 1 KiB, 64 of them for 0 (Table 10.12). -/
def burst (r : Regulator) (b : Nat) : Nat := Nat.min r.tokens (1024 * (if b = 0 then 64 else b))

/-- A function owns a partition that takes BAR2 accesses (R317, R335). -/
structure Windows (s : State) (f p : Nat) : Prop where
  low : p < 8
  exists_ : (s.part p).state ≠ .none
  owner : (s.part p).func = f
  only : ∀ q < p, ¬ ((s.part q).state ≠ .none ∧ (s.part q).func = f)
  served : (s.part p).refused = false

/-- R340: the refresh multiplier, and the readings in a row at which it may fall, after a temperature. -/
def refreshed (y : Stack) (t : Nat) : Nat × Nat :=
  let want := if 95 < t then 4 else if 85 < t then 2 else 1
  let line := if y.mult = 4 then 95 else 85
  if y.mult < want then (want, 0)
  else if 1 < y.mult ∧ t + 3 ≤ line then (if y.cool + 1 = 10 then (y.mult / 2, 0) else (y.mult, y.cool + 1))
  else (y.mult, 0)

end Sys2Proof.Claims

/-- R316, R344: MM_INVAL starts an invalidation and MM_APPLY puts the page-table root into force and starts one; its completion leaves no
cached translation and clears BUSY. R329: MM_REGn_APPLY puts RATE and BURST into force. -/
def Sys2Proof.Claims.memoryApplies : Prop :=
  ∀ (s : State) (p : PartIx),
    let x := s.part p
    exec (.mmInval p) s = .next (s.setPart p { x with mm := { x.mm with invalBusy := true } }) ∧
    (x.mm.invalBusy = true → exec (.invalidationComplete p) s = .next (s.setPart p { x with mm := { x.mm with invalBusy := false, tlb := [] } })) ∧
    exec (.mmApply p) s = .next (s.setPart p { x with mm :=
      { x.mm with valid := ⟨x.mm.valid.shadow, x.mm.valid.shadow⟩, root := ⟨x.mm.root.shadow, x.mm.root.shadow⟩, invalBusy := true } }) ∧
    exec (.mmRegApply p) s = .next (s.setPart p { x with reg :=
      { x.reg with rate := ⟨x.reg.rate.shadow, x.reg.rate.shadow⟩, burst := ⟨x.reg.burst.shadow, x.reg.burst.shadow⟩
                   tokens := burst x.reg x.reg.burst.shadow } })

/-- R339: a write to MM_CHREL retires a RETIRING slot at once when no job runs, and releases it for retirement at a recess when one does;
a slot in another state stays. -/
def Sys2Proof.Claims.slotsReleased : Prop :=
  ∀ (s : State) (p : PartIx) (k : BitVec 8),
    let x := s.part p
    let runs : Prop := x.state = .running ∨ x.state = .preempting
    (∀ e, x.slots[k.toNat]? = some e → e.state = .retiring → ¬ runs →
      exec (.mmChrel p k) s = .next (slotGone s p k.toNat (32 * e.stack + e.pc))) ∧
    (∀ e, x.slots[k.toNat]? = some e → e.state = .retiring → runs →
      exec (.mmChrel p k) s = .next (s.setPart p { x with slots := slotsWith x k.toNat .released })) ∧
    ((∀ e, x.slots[k.toNat]? = some e → e.state ≠ .retiring) → exec (.mmChrel p k) s = .next s)

/-- R328: a refill adds RATE bytes up to BURST after 10 ns, and counts them as waited when a request stands without tokens; with RATE 0
only time passes. -/
def Sys2Proof.Claims.tokensRefill : Prop :=
  ∀ (s : State) (p : PartIx),
    let x := s.part p
    let later : State := { s with now := s.now + 10 }
    let filled : Regulator := { x.reg with tokens := Nat.min (x.reg.tokens + x.reg.rate.force) (1024 * (if x.reg.burst.force = 0 then 64 else x.reg.burst.force)) }
    (x.reg.rate.force = 0 → exec (.regulatorRefill p) s = .next later) ∧
    (x.reg.rate.force ≠ 0 → ¬ starved s p → exec (.regulatorRefill p) s = .next (later.setPart p { x with reg := filled })) ∧
    (x.reg.rate.force ≠ 0 → starved s p →
      exec (.regulatorRefill p) s = .next (later.setPart p { x with reg := { filled with wait := x.reg.wait + 10 } }))

/-- R317: a BAR2 access within one unit reads and writes the partition's memory at the window's device virtual address, or at its partition
physical address under the retain key with MODE 1; a write that fails is discarded with APERR, and a read that fails gives all ones with
APERR. R335: while HBM is refused a write is discarded and a read ends in a Completer Abort. -/
def Sys2Proof.Claims.windowAccesses : Prop :=
  ∀ (s : State) (f : FnIx) (p : Nat) (off : BitVec 36),
    let x := s.part p
    let dva := x.mm.apBase * 2 ^ 36 + off.toNat
    let ppa := x.mm.apBase % 8 * 2 ^ 36 + off.toNat
    let answers (s : State) (a : Option (List Byte)) : State := s.setFn f { s.fn f with answer := a }
    let erred : Part := { spent x 64 0 0 with mm := { x.mm with aperr := true } }
    let stores : Prop := Tab.rising s.hbm.cells = true ∧ Tab.rising s.hbm.keys = true
    (Windows s f p → affords x 64 →
      (∀ pa key bs, x.mm.apMode = false → cached x dva true pa key → soundAt s pa → stores → bs ≠ [] → bs.length ≤ 64 - dva % 64 → pa % 64 = dva % 64 →
        ∃ h, hbmWrote s.hbm h key pa bs ∧ exec (.bar2Write f off bs) s = .next { s.setPart p (spent x 64 0 bs.length) with hbm := h }) ∧
      (∀ pa key n, x.mm.apMode = false → cached x dva false pa key → soundAt s pa → 0 < n → n ≤ 64 - dva % 64 → pa % 64 = dva % 64 →
        exec (.bar2Read f off n) s = .next (answers (s.setPart p (spent x 64 n 0)) (some (hbmBytes s.hbm key pa n)))) ∧
      (∀ pa n, x.mm.apMode = true → x.placeFault ppa = none → x.physOf ppa = some pa → soundAt s pa → 0 < n → n ≤ 64 - ppa % 64 →
        exec (.bar2Read f off n) s = .next (answers (s.setPart p (spent x 64 0 0)) (some (hbmBytes s.hbm x.keyRet pa n)))) ∧
      (x.mm.apMode = true → x.placeFault ppa ≠ none →
        (∀ b, exec (.bar2Write f off [b]) s = .next (s.setPart p erred)) ∧
        (∀ n, 0 < n → n ≤ 64 - ppa % 64 → exec (.bar2Read f off n) s = .next (answers (s.setPart p erred) (some (List.replicate n 0xFF)))))) ∧
    (p < 8 → x.state ≠ .none → x.func = f → (∀ q < p, ¬ ((s.part q).state ≠ .none ∧ (s.part q).func = f)) → x.refused = true →
      (∀ bs, exec (.bar2Write f off bs) s = .next s) ∧ (∀ n, exec (.bar2Read f off n) s = .next (answers s none)))

/-- R337: patrol scrub poisons a unit with an uncorrectable error, enters it in the gradebook and tells its partition; it mends and
counts a correctable one, and leaves a sound unit alone. -/
def Sys2Proof.Claims.patrolled : Prop :=
  ∀ (s : State) (u : Nat),
    let c := u / 2 ^ 25
    let poisoned : State := { s with hbm := { s.hbm with poison := if u ∈ s.hbm.poison then s.hbm.poison else s.hbm.poison ++ [u]
                                                         bad := s.hbm.bad.filter (fun v => v ≠ u) } }
    let mended : State := { s with hbm := { s.hbm with weak := s.hbm.weak.filter (fun v => v ≠ u) } }
    let g := s.grade 3 c
    (∀ p k, u ∈ s.hbm.bad → s.pcOwner c = some (p, k) → exec (.patrolScrub u) s = .next ((poisoned.flashGrade 3 c).partEvent p 0x4003 [.d (k * 2 ^ 31 + u * 64 % 2 ^ 31)])) ∧
    (u ∈ s.hbm.bad → s.pcOwner c = none → exec (.patrolScrub u) s = .next (poisoned.flashGrade 3 c)) ∧
    (u ∉ s.hbm.bad → u ∈ s.hbm.weak →
      exec (.patrolScrub u) s = .next (mended.setGrade 3 c { g with corrected := g.corrected + 1, tally := g.tally + 1 })) ∧
    (u ∉ s.hbm.bad → u ∉ s.hbm.weak → exec (.patrolScrub u) s = .next s)

/-- R340, R481: a temperature reading sets the stack's refresh multiplier, halves its rate from 100 °C until it is at most 96 and makes its
requests wait from 105 °C until it is at most 101; the first half rate posts PW_HBM_THROTTLE. -/
def Sys2Proof.Claims.stacksRefresh : Prop :=
  ∀ (s : State) (h : StackIx) (t : Nat),
    let y := s.hbm.heat[h]
    let z : Stack := { y with temp := t, mult := (refreshed y t).1, cool := (refreshed y t).2
                              half := decide (100 ≤ t ∨ (y.half = true ∧ 97 ≤ t)), hot := decide (105 ≤ t ∨ (y.hot = true ∧ 102 ≤ t)) }
    let s1 : State := { s with hbm := { s.hbm with heat := s.hbm.heat.set h z } }
    exec (.hbmTempRead h t) s = .next (if z.half = true ∧ y.half = false then s1.modEvent 0x3006 [.h h, .h t] else s1)

namespace Sys2Proof.Claims

/-- Packet `k` in flight is the next of its source, destination and virtual channel (R255). -/
structure Next (s : State) (k : Nat) (x : Packet) : Prop where
  there : s.net[k]? = some x
  turn : ∀ y ∈ s.net.take k, ¬ (y.src = x.src ∧ y.dst = x.dst ∧ y.body.vc = x.body.vc)

/-- The state without packet `k`. -/
def without (s : State) (k : Nat) : State := { s with net := s.net.take k ++ s.net.drop (k + 1) }

/-- A participant has arrived at a bell's open epoch. -/
abbrev arrived (e : Bell) (w : Who) : Prop := ∃ a ∈ e.arr, a.who = w

/-- R208, R217: every participant of a bell has arrived: the tiles of its mask, and with REMOTE its child ports. -/
abbrev allArrived (e : Bell) (d : BellDesc) (count : Nat) : Prop :=
  (∀ r < count, d.mask.testBit r = true → arrived e (.tile r)) ∧ (d.remote = true → ∀ q < 16, d.children.testBit q = true → arrived e (.port q))

/-- R217, R220: the module decides a bell's releases: a bell without REMOTE, and a tree's ROOT. -/
abbrev decider (d : BellDesc) : Prop := d.remote = false ∨ d.root = true

/-- R212, R215: a bell after an arrival for epoch `ep`: of the open epoch, whose timer it starts, or of the one after; a second arrival of one
participant, and one for another epoch, change nothing. -/
def afterArrival (e : Bell) (ep : BitVec 32) (a : Arr) (now : Nat) : Bell :=
  if ep = e.epoch then (if e.arr.any (fun b => b.who == a.who) then e else { e with arr := e.arr ++ [a], timer := some (e.timer.getD now) })
  else if ep = e.epoch + 1 then (if e.ahead.any (fun b => b.who == a.who) then e else { e with ahead := e.ahead ++ [a] })
  else e

/-- R500: no comparison of a sample of the step keeps the module's contribution to bell 63 back. -/
abbrev uncompared (s : State) (p b : Nat) : Prop :=
  b = 63 → ∀ y ∈ s.faults.samples, y.part = p → y.step = (s.part p).step → ∀ g n, y.state ≠ .ended g n

/-- The flags of a bell's arrivals together, and whether one carried FAIL. -/
def flagsOf (e : Bell) : BitVec 8 := e.arr.foldl (fun f a => f ||| a.flags) 0
def failOf (e : Bell) : Bool := e.arr.any (fun a => a.fail)

/-- A partition with a bell replaced. -/
def withBell (x : Part) (b : Nat) (e : Bell) : Part := { x with bells := Tab.put x.bells b e }

/-- R217, R224, R229, R395: the release that a bell's arrivals form. -/
def releaseOf (s : State) (p b status : Nat) (timer : Bool) : Rel :=
  let x := s.part p
  let e := x.bell b
  let veto := b == 63 && x.veto
  let late := e.latest x.modIndex s.now
  let slow := b == 63 && x.threshold.any (fun t => decide (t < late.2))
  ⟨b, e.epoch, flagsOf e, failOf e || veto, status, slow, late.1, Nat.min late.2 (2 ^ 32 - 1), e.forced, timer, failOf e || veto, veto⟩

/-- R395: a veto that decides bell 63's contribution is logged. -/
def vetoLogged (s : State) (p b : Nat) : State :=
  if b = 63 ∧ (s.part p).veto = true then s.partLog p 3 0xFFF [.h 1, .d (s.part p).step] else s

/-- R227: BELL_TIMEOUT and its log record, with the tiles and ports that have not arrived. -/
def timeoutTold (s : State) (p b : Nat) (d : BellDesc) (status origin : Nat) : State :=
  let x := s.part p
  let e := x.bell b
  let gone := (List.range x.count).filter (fun r => d.mask.testBit r && !e.arr.any (fun a => a.who == .tile r))
  let ports := (List.range 16).filter (fun q => d.remote && d.children.testBit q && !e.arr.any (fun a => a.who == .port q))
  let fs : List Fl :=
    [.h b, .h e.epoch.toNat, .h status, .h origin, .h gone.length, .h (gone.headD 0xFFF), .h ((ports.map (fun q => 2 ^ q)).sum)]
  (s.partEvent p 0x1003 fs).partLog p 2 0xFFF fs

/-- The limit of a bell's timer in ns (Table 7.1, R224). -/
def limitOf (d : BellDesc) (b : Nat) : Nat := if b = 63 then 500000000 else if d.timeout = 0 then 100000000 else 1000 * d.timeout

end Sys2Proof.Claims

/-- R205, R208, R212, R220: a tile's arrival on its way reaches the bell unit once the tile's earlier writes have been written; a child's
arrival notice counts as one participant's arrival; then the module contributes if that completes a bell that it does not decide. R213,
R221: a notice of a later epoch is a BELL_OVERRUN, one of an earlier epoch is discarded, and one for no bell or from no child port is
discarded and counted. -/
def Sys2Proof.Claims.arrivalsCounted : Prop :=
  (∀ (s : State) (p : PartIx) (k : Nat) (a : OnWay),
    let x := s.part p
    let arr : Arr := ⟨.tile (x.relOf a.tile), s.now, a.flags, a.fail, x.modIndex, 0, a.forced.map (fun r => (a.tile, r))⟩
    x.onWay[k]? = some a → (∀ y ∈ x.onWay.take k, ¬ (y.tile = a.tile ∧ y.bell = a.bell)) → s.drained p a = true →
    exec (.bellArrival p k) s = .next ((s.setPart p
      { withBell x a.bell (afterArrival (x.bell a.bell) a.epoch arr s.now) with onWay := x.onWay.take k ++ x.onWay.drop (k + 1) }).contribute p a.bell)) ∧
  (∀ (s : State) (k q p : Nat) (tags : List Tag) (n : Notice),
    let x := s.part p
    let e := x.bell n.bell
    let child (d : BellDesc) : Prop := e.desc = some d ∧ d.remote = true ∧ q < 16 ∧ d.children.testBit q = true
    let dropped := exec (.bellArrivalNotice k) s = .next ((without s k).setPart p { x with discarded := x.discarded + 1 })
    Next s k ⟨.port q, .root, p, tags, .ctl (.bell n)⟩ → n.release = false →
    ((∀ d, ¬ child d) → dropped) ∧
    (∀ d, child d →
      (n.epoch = e.epoch ∨ n.epoch = e.epoch + 1 → exec (.bellArrivalNotice k) s = .next (((without s k).setPart p
        (withBell x n.bell (afterArrival e n.epoch ⟨.port q, s.now, n.flags, n.anyfail, n.latest, n.lateness, none⟩ s.now))).contribute p n.bell)) ∧
      (1 < (n.epoch - e.epoch).toNat → (n.epoch - e.epoch).toNat < 2 ^ 31 → exec (.bellArrivalNotice k) s =
        .next ((without s k).partEvent p 0x1002 [.h q, .h n.bell, .h n.epoch.toNat])) ∧
      (2 ^ 31 ≤ (n.epoch - e.epoch).toNat → exec (.bellArrivalNotice k) s = .next (without s k))))

/-- R220, R395, R500: what a module contributes to a bell that it does not decide: once all its participants have arrived, its arrival notice
goes to its parent once, with the flags and FAIL of its arrivals; until then nothing happens. -/
def Sys2Proof.Claims.contributions : Prop :=
  ∀ (s : State) (p b : Nat) (d : BellDesc),
    let x := s.part p
    let e := x.bell b
    let late := e.latest x.modIndex s.now
    let n : Notice := ⟨false, b, failOf e || (b == 63 && x.veto), 0, false, flagsOf e, e.epoch, late.1, Nat.min late.2 (2 ^ 32 - 1)⟩
    p < 8 → e.desc = some d →
    (decider d ∨ ¬ allArrived e d x.count ∨ e.noticeSent = true ∨ ¬ uncompared s p b → s.contribute p b = s) ∧
    (¬ decider d → allArrived e d x.count → e.noticeSent = false → uncompared s p b →
      let s1 := (vetoLogged s p b).setPart p (withBell ((vetoLogged s p b).part p) b { e with noticeSent := true })
      (∀ q : Fin 16, d.parent = q → (s.port q).state ≠ .down → s.contribute p b = s1.setPort q { s.port q with cells := (s.port q).cells ++ [.bell n] }) ∧
      (∀ q : Fin 16, d.parent = q → (s.port q).state = .down → s.contribute p b = s1))

/-- R217, R224, R225, R227: BELL_RELEASE forms the release of a bell whose participants have all arrived, of status 0 for bells 0 to 62, and 1 or 2
for bell 63; a bell that still waits does not release. BELL_TIMEOUT at a bell's limit and BELL_LOST at twice the limit tell who is missing and release with
TIMEOUT, REPEAT or LOST. -/
def Sys2Proof.Claims.releasesFormed : Prop :=
  ∀ (s : State) (p : PartIx) (b : BellIx) (d : BellDesc),
    let x := s.part p
    let e := x.bell b
    let status := if b.val = 63 then (if failOf e || x.veto then 2 else 1) else 0
    let fires (t n : Nat) : State := { s with now := Nat.max s.now (t + n * limitOf d b) }
    e.desc = some d →
    (decider d → allArrived e d x.count → e.held = none → uncompared s p b → (∀ y ∈ x.slots, y.state ≠ .released) →
      exec (.bellRelease p b) s = .next ((vetoLogged s p b).release p b (releaseOf s p b status false))) ∧
    (¬ decider d ∨ ¬ allArrived e d x.count ∨ e.held.isSome = true ∨ ¬ uncompared s p b → exec (.bellRelease p b) s = .next s) ∧
    (∀ t, decider d → e.held = none → e.timer = some t → ¬ (allArrived e d x.count ∧ uncompared s p b) →
      let s1 := fires t 1
      let st := if b.val = 63 then 2 else 3
      exec (.bellTimeout p b) s = .next ((vetoLogged (timeoutTold s1 p b d st 0) p b).release p b (releaseOf s1 p b st true))) ∧
    (∀ t, ¬ decider d → e.timer = some t → ¬ (d.recess = true ∧ (x.state = .preempting ∨ x.state = .preempted)) →
      let s1 := fires t 2
      exec (.bellLost p b) s = .next ((timeoutTold s1 p b d 4 0).release p b (releaseOf s1 p b 4 true)))

/-- R220, R221, R223, R227: a release notice from the parent, for the open epoch of a bell that holds no release, releases it here with the
notice's contents, after BELL_TIMEOUT when a timer caused it; any other release notice is discarded and counted. -/
def Sys2Proof.Claims.releasesForwarded : Prop :=
  ∀ (s : State) (k q : Nat) (p : PartIx) (tags : List Tag) (n : Notice),
    let x := s.part p
    let e := x.bell n.bell
    let fits (d : BellDesc) : Prop := e.desc = some d ∧ d.remote = true ∧ d.root = false ∧ q = d.parent ∧ n.epoch = e.epoch ∧ e.held = none
    let timer := n.status == 3 || n.status == 4 || (n.status == 2 && !n.anyfail)
    let veto := n.bell == 63 && x.veto
    let r : Rel := ⟨n.bell, n.epoch, n.flags, n.anyfail, n.status, n.late, n.latest, n.lateness, e.forced, timer, failOf e || veto, veto⟩
    Next s k ⟨.port q, .root, p, tags, .ctl (.bell n)⟩ → n.release = true →
    (∀ d, fits d → exec (.bellReleaseNotice k) s =
      .next ((if timer then timeoutTold (without s k) p n.bell d n.status 1 else without s k).release p n.bell r)) ∧
    ((∀ d, ¬ fits d) → exec (.bellReleaseNotice k) s = .next ((without s k).setPart p { x with discarded := x.discarded + 1 }))

namespace Sys2Proof.Claims

/-- R237, R452: why a release of a bell is held: a pre-emption, or recess work. -/
def heldFor (s : State) (p b : Nat) : Option HoldFor :=
  let x := s.part p
  if x.state = .preempting || (x.state = .preempted && x.heldBell == b) then some .preempt else if s.recessWork p then some .work else none

/-- R212, R224, R228, R247: a bell with its next epoch open: the arrivals one ahead are those of the epoch, and start its timer. -/
def opened (e : Bell) (b now : Nat) : Bell :=
  { e with epoch := e.epoch + 1, arr := e.ahead, ahead := [], timer := if e.ahead = [] then none else some now, noticeSent := false
           mute := false, hist := (e.recorded b now).hist }

/-- R395, R229: a partition at a release of bell `b`. -/
def markedBy (x : Part) (b now : Nat) : Part := if b = 63 then { x with veto := false, rel63 := (now :: x.rel63).take 17 } else x

/-- R217, R220: a release on its way to the bell's members, and as a notice at its child ports that are not DOWN. -/
def deliveredTo (s : State) (p : Nat) (d : BellDesc) (r : Rel) : State :=
  let x := s.part p
  let members := ((List.range x.count).filter (fun t => d.mask.testBit t)).map x.logical
  let n : Notice := ⟨true, r.bell, r.anyfail, r.status, r.late, r.flags, r.epoch, r.latest, r.lateness⟩
  let s1 := s.setPart p { x with rels := x.rels ++ [⟨r, members, true⟩] }
  { s1 with ports := s1.ports.mapIdx (fun q y =>
      if d.remote && d.children.testBit q && y.state != .down then { y with cells := y.cells ++ [.bell n] } else y) }

end Sys2Proof.Claims

/-- R212, R217, R218, R220, R237: what a release does at the bell unit: the next epoch opens; the release goes out to the members and the children,
unless the bell is a recess bell and work or a pre-emption waits, when it is held and counted. -/
def Sys2Proof.Claims.releasesGiven : Prop :=
  ∀ (s : State) (p b : Nat) (d : BellDesc) (r : Rel),
    let x := s.part p
    let e := x.bell b
    p < 8 → e.desc = some d → r.bell = b →
    let x1 := markedBy (withBell x b (opened e b s.now)) b s.now
    (d.recess = false ∨ heldFor s p b = none → s.release p b r = (deliveredTo (s.setPart p x1) p d r).contribute p b) ∧
    (∀ w, d.recess = true → heldFor s p b = some w → s.release p b r = (s.setPart p
      { withBell x1 b { opened e b s.now with held := some (r, w, s.now) } with recessHolds := x.recessHolds + 1, swapped := [] }).contribute p b)

/-- R237, R456, R457: the end of a recess hold's work, or 10 ms, gives the held release out, and answers the RECESS command that asked for
the work; a pre-emption that waits takes the hold over; at 10 ms the work left is logged. -/
def Sys2Proof.Claims.holdsEnd : Prop :=
  ∀ (s : State) (p : PartIx) (b : BellIx) (d : BellDesc) (r : Rel) (since : Nat),
    let x := s.part p
    let e := x.bell b
    e.desc = some d → r.bell = b → e.held = some (r, .work, since) → x.asked = none →
    let later : State := { s with now := Nat.max s.now (since + 10000000) }
    let told := later.partLog p 6 0xFFF [.h b, .h r.epoch.toNat, .h (x.actions - s.actionsDone p)]
    let out (s : State) : State := deliveredTo (s.setPart p (withBell (s.part p) b { e with held := none })) p d r
    let beyond (s : State) : State := s.setPart p (withBell (s.part p) b { e with held := some (r, .preempt, since) })
    (x.state ≠ .preempting → exec (.recessWorkDone p b) s = .next (out s) ∧ exec (.recessHoldExpire p b) s = .next (out told)) ∧
    (x.state = .preempting → exec (.recessWorkDone p b) s = .next (beyond s) ∧ exec (.recessHoldExpire p b) s = .next (beyond told))

/-- R229: LATE_THRESHOLD_UPDATE at the module that decides bell 63 sets the threshold to TOL thousandths of the median of the last 16 intervals between
its releases; with fewer intervals or TOL 0 there is none to set. R228: LATENESS_FOLD adds each tile's bins to its site's record, saturating, and
clears them. -/
def Sys2Proof.Claims.latenessKept : Prop :=
  (∀ (s : State) (p : PartIx) (d : BellDesc) (g : List Nat),
    let x := s.part p
    (x.bell 63).desc = some d → decider d →
    (x.rel63.length = 17 → x.tol ≠ 0 → g.Pairwise (· ≤ ·) → g.Perm ((List.range 16).map (fun k => x.rel63.getD k 0 - x.rel63.getD (k + 1) 0)) →
      exec (.lateThresholdUpdate p) s = .next (s.setPart p { x with threshold := some (x.tol * ((g.getD 7 0 + g.getD 8 0) / 2) / 1000) })) ∧
    (x.rel63.length ≠ 17 ∨ x.tol = 0 → exec (.lateThresholdUpdate p) s = .next s)) ∧
  (∀ (s : State) (p : PartIx),
    let x := s.part p
    let added (s : State) (e : Nat × List Nat) : State :=
      let y := (s.seat (x.logical e.1)).site
      let g := s.grade 1 y
      s.setGrade 1 y { g with h1 := (List.range 16).map (fun k => Nat.min (g.h1.getD k 0 + e.2.getD k 0) (2 ^ 32 - 1)) }
    exec (.latenessFold p) s = .next (((x.bells.flatMap (fun b => b.2.hist.filter (fun e => decide (e.1 < 65536)))).foldl added s).setPart p
      { x with bells := x.bells.map (fun b => (b.1, { b.2 with hist := [] })) }))

namespace Sys2Proof.Claims

/-- R234, R267: an announce leaves its home: a count word for every tile of the partition, or a counted write or a count word for one. -/
def leftHome (s : State) (p home : Nat) (a : Announce) : State :=
  let x := s.part p
  if a.dtile = 0xFFF then { s with board := { s.board with flight := s.board.flight ++ [⟨p, .counter a.ctr, none, (List.range x.count).map x.logical⟩] } }
  else
    let body : Body := match a.word with
      | some w => .write ⟨a.dsth, a.dstoff, leBytes 8 w.toNat, some a.ctr, true, none, none⟩
      | none => .ctl (.announce none a.ctr 0 a.dtile a.count 0 0)
    { s with net := s.net ++ [⟨.port home, .tile (x.logical a.dtile), p, [], body⟩] }

/-- R234: a flow whose first announce, if any, asks for more bytes than the flow has. -/
abbrev short (y : Flow) : Prop := ∀ a rest, y.waiting = a :: rest → y.bytes < a.count

/-- A partition with a flow replaced. -/
def withFlow (x : Part) (f : Nat) (y : Flow) : Part := { x with flows := Tab.put x.flows f y }

end Sys2Proof.Claims

/-- R233, R234, R235, R236: at a flow's home a count adds its bytes, and an announce is held, at most four, a fifth being lost and logged; the
first announce goes out when its bytes have been written, and takes them off the count; one held beyond HOLD is discarded, clears the count and is
logged. -/
def Sys2Proof.Claims.flowsCount : Prop :=
  (∀ (s : State) (k q : Nat) (p : PartIx) (src : Place) (tags : List Tag) (f n : Nat),
    let x := s.part p
    Next s k ⟨src, .port q, p, tags, .count f n⟩ →
    (∀ y, Tab.find? x.flows f = some y → short { y with bytes := y.bytes + n } →
      exec (.countUpdate k) s = .next ((without s k).setPart p (withFlow x f { y with bytes := y.bytes + n }))) ∧
    (∀ y a rest, Tab.find? x.flows f = some y → y.waiting = a :: rest → a.count ≤ y.bytes + n →
      let z : Flow := { y with bytes := y.bytes + n - a.count, waiting := rest }
      short z → Tab.rising x.flows = true → exec (.countUpdate k) s = .next (leftHome ((without s k).setPart p (withFlow x f z)) p y.home a)) ∧
    (Tab.find? x.flows f = none → exec (.countUpdate k) s = .next (without s k))) ∧
  (∀ (s : State) (k q : Nat) (p : PartIx) (src : Place) (tags : List Tag) (w : Option Word) (c f d n h o : Nat),
    let x := s.part p
    let a : Announce := ⟨w, c, d, n, h, o, s.now⟩
    Next s k ⟨src, .port q, p, tags, .ctl (.announce w c f d n h o)⟩ →
    (∀ y, Tab.find? x.flows f = some y → y.waiting.length < 4 → short { y with waiting := y.waiting ++ [a] } →
      exec (.announceReceive k) s = .next ((without s k).setPart p (withFlow x f { y with waiting := y.waiting ++ [a] }))) ∧
    (∀ y, Tab.find? x.flows f = some y → y.waiting = [] → n ≤ y.bytes → Tab.rising x.flows = true →
      exec (.announceReceive k) s = .next (leftHome ((without s k).setPart p (withFlow x f { y with bytes := y.bytes - n })) p y.home a)) ∧
    (∀ y, Tab.find? x.flows f = some y → 4 ≤ y.waiting.length →
      exec (.announceReceive k) s = .next ((without s k).partLog p 4 0xFFF [.h f, .h n])) ∧
    (Tab.find? x.flows f = none → exec (.announceReceive k) s = .next ((without s k).setPart p { x with unknownFlow := x.unknownFlow + 1 }))) ∧
  (∀ (s : State) (p : PartIx) (f : BitVec 8) (y : Flow) (a : Announce) (rest : List Announce),
    let x := s.part p
    Tab.find? x.flows f.toNat = some y → y.waiting = a :: rest → short { y with bytes := 0, waiting := rest } →
    exec (.announceExpired p f) s = .next ((({ s with now := Nat.max s.now (a.since + (if y.hold = 0 then 100000000 else 1000 * y.hold)) }).setPart p
      (withFlow x f.toNat { y with bytes := 0, waiting := rest })).partLog p 5 0xFFF [.h f.toNat, .h a.count, .d y.bytes]))

namespace Sys2Proof.Claims

/-- R218, R227, R229, R398, R163, R501: what the module does when a release first reaches one of its tiles: the events of an overflow's replay, a
late participant and a repeated step; a committed step ends; an applied PT_PROC.N comes into force. -/
def firstReached (s : State) (p : Nat) (r : Rel) : State := (s.releaseEvents p r).modPart p (fun x => { x with proctor := x.proctor.settle })

/-- R212, R213, R218: a tile's bell after a release of epoch `e`. -/
def rung (y : TileBell) (e : BitVec 32) (status : Nat) (rcd : Word) : TileBell :=
  let d := (y.next - e).toNat
  if 1 ≤ d ∧ d ≤ y.out then { y with out := y.out - 1, rel := rcd }
  else if d = 0 ∧ (status = 2 ∨ status = 3 ∨ status = 4) then { y with next := e + 1, late := true, rel := rcd }
  else { y with rel := rcd }

/-- R218: a tile after a release of bell `b`, its scale records closed as `sr`, before its walker learns of it. -/
def releasedTile (t : Tile) (b : Fin 64) (r : Rel) (sr : Scale) : Tile :=
  let rcd := BitVec.ofNat 64 (r.epoch.toNat * 2 ^ 32 + (if r.late then 2 ^ 12 else 0) + r.status % 8 * 2 ^ 9 + (if r.anyfail then 2 ^ 8 else 0) + r.flags.toNat)
  { t with
    bl := { t.bl with bells := t.bl.bells.set b (rung t.bl.bells[b] r.epoch r.status rcd), releases := t.bl.releases + 1
                      step := if b = 63 ∧ r.status = 1 then t.bl.step + 1 else t.bl.step }
    mx := { t.mx with sigCap := t.mx.sig, sig := 0xFFFFFFFFFFFFFFFF }
    sr := if b = 63 then { sr with fatal := false, fcause := 0, frec := 0 } else sr }

/-- R496, R497: a tile-step that begins is drawn for a sample, or not; a drawn one takes the first two spare sites, which become copies of the
tile, and without them it is counted as skipped. -/
def maySample (s : State) (p l : Nat) : State :=
  let x := s.part p
  let must := s.watched l && !s.faults.samples.any (fun y => decide (y.tile = l ∧ y.step = x.step))
  let s1 : State := { s with draws := s.draws + 1 }
  if must = true ∨ Config.proctorDraw s.draws % x.proctor.oneIn = 0 then
    match s1.twoSpare with
    | some (a, b) =>
      { ((s1.setSiteTile a (s.tile l)).setSiteTile b ((s1.setSiteTile a (s.tile l)).tile l)) with faults :=
          { s.faults with samples := s.faults.samples ++ [⟨s.faults.nextSample, p, l, (s.seat l).site, a, b, x.step, .live⟩]
                          nextSample := s.faults.nextSample + 1 } }
    | none => s1.setPart p { x with proctor := { x.proctor with skipped := Nat.min (x.proctor.skipped + 1) (2 ^ 32 - 1) } }
  else s1

end Sys2Proof.Claims

/-- R163, R227, R229, R398: the events of a release at a module, and the step it ends or repeats. -/
def Sys2Proof.Claims.releaseEventsTold : Prop :=
  ∀ (s : State) (p : Nat) (r : Rel), p < 8 →
    let x := s.part p
    let flag (b : Bool) : Fl := .h (if b then 1 else 0)
    (r.bell ≠ 63 → r.forced = none → s.releaseEvents p r = s) ∧
    (∀ l k, r.bell ≠ 63 → r.forced = some (l, k) → s.releaseEvents p r = s.partEvent p 0x2001 [.h r.bell, .h r.epoch.toNat, .d x.step, .h l, .h k]) ∧
    (r.bell = 63 → r.forced = none → r.status = 1 →
      let s1 := if r.late then s.partEvent p 0x1001 [.d x.step, .h r.latest, .h r.lateness, .h (x.threshold.getD 0)] else s
      s.releaseEvents p r = s1.setPart p { x with repeats := 0, failPosted := false, step := x.step + 1 }) ∧
    (r.bell = 63 → r.forced = none → r.late = false → r.status = 2 ∨ r.status = 4 →
      let n := Nat.min (x.repeats + 1) 65535
      let cause := if r.status = 4 then 3 else if r.timer then 2 else 1
      s.releaseEvents p r = (s.partEvent p 0x1004
        [.d x.step, .h r.epoch.toNat, .h r.status, .h cause, flag r.ownFail, flag r.veto, .h n]).setPart p { x with repeats := n, failPosted := false })

/-- R212, R218: RELEASE_APPLY of the oldest release of a bell still to reach a tile: the tile's bell, captured signature, closed windows, step
count and flags change as `releasedTile` says, what the closed records ask happens, and the next tile-step may be sampled; a walker that runs on this
bell fires its record. -/
def Sys2Proof.Claims.releasesReach : Prop :=
  ∀ (s : State) (p : Nat) (l : LTile) (b : BellIx) (pre post : List RelFlight) (f : RelFlight),
    let t := s.tile l
    let r := f.rel
    let x := s.part p
    let s1 := if f.fresh then firstReached s p r else s
    let closed : Scale × List Act := if b.val = 63 ∧ (r.status = 2 ∨ r.status = 4) then (t.sr.restore, []) else t.sr.closeAt b
    let t1 := releasedTile t b r closed.1
    let left : List RelFlight := x.rels.map (fun g => if g = f then { f with left := f.left.filter (fun k => k ≠ l.val), fresh := false } else g)
    let s2 := s1.setPart p { s1.part p with rels := left.filter (fun g => !g.left.isEmpty) }
    let out (t2 : Tile) : Answer := .next (maySample ((s2.setTile l t2).acts p l closed.2) p l)
    (s.seat l).valid = true → (s.seat l).part = p → x.rels = pre ++ f :: post → (∀ g ∈ pre, ¬ (g.rel.bell = b ∧ l.val ∈ g.left)) →
    r.bell = b → l.val ∈ f.left → t.pad.corrWords = [] → t.pad.ecc = [] → t.xc.walkCur = none → t.bl.firing = none →
    (∀ y ∈ s.faults.samples, ¬ (y.tile = l ∧ y.state = .live)) →
    (t.bl.run = false → exec (.releaseApply l b) s = out t1) ∧
    (∀ ph, t.bl.run = true → r.status < 2 → t1.phaseOk t.bl.pos.toNat = some ph → ph.bell = b →
      let bl := { t1.bl with firing := some (0, ph.count), again := some (t.bl.again.getD ph.again) }
      (ph.count = 0 → exec (.releaseApply l b) s = out { t1 with bl := bl }) ∧
      (∀ c, ph.count ≠ 0 → reaches s2 p l (handleOf t 1) (t.bl.pos.toNat + 32) c →
        exec (.releaseApply l b) s = out { t1 with bl := bl, xc := { t.xc with walkCur := some c } })) ∧
    (∀ ph bad, t.bl.run = true → t1.phaseAt t.bl.pos.toNat = some (ph, bad) → ph.bell ≠ b → exec (.releaseApply l b) s = out t1) ∧
    (∀ ph bad, t.bl.run = true → 2 ≤ r.status → t1.phaseAt t.bl.pos.toNat = some (ph, bad) → ph.bell = b →
      exec (.releaseApply l b) s = out { t1 with bl :=
        { t1.bl with run := false, stopcause := if r.status = 2 then 3 else if r.status = 3 then 2 else 4, latched := [], stopping := false, again := none } })

/-- R241, R242: a firing whose descriptors have all been accepted ends: it is counted, its token is signalled, and the walker stops where a stop was
asked for or its record says STOP, waits for the record's bell again while AGAIN is left, or moves to the next record. -/
def Sys2Proof.Claims.firingsEnd : Prop :=
  ∀ (s : State) (p : Nat) (l : LTile) (n : Nat) (ph : Phase) (bad : Bool),
    let t := s.tile l
    let b := { t.bl with firing := none, fired := t.bl.fired + 1 }
    let stop (cause : Nat) : Bl := { b with run := false, stopcause := cause, latched := [], stopping := false, again := none }
    s.runs l = some p → t.pad.corrWords = [] → t.bl.firing = some (n, n) → t.xc.walkCur = none → t.phaseAt t.bl.pos.toNat = some (ph, bad) →
    (ph.se = true → t.core.tokens[ph.token.toNat] < 15) →
    let t1 : Tile := if ph.se then { t with core := { t.core with tokens := t.core.tokens.set ph.token.toNat (t.core.tokens[ph.token.toNat] + 1) } } else t
    let ends (bl : Bl) : Prop := exec (.walkerFiringEnd l) s = .next (s.setTile l { t1 with bl := bl })
    (t.bl.stopping = true → ends (stop 7)) ∧
    (t.bl.stopping = false → t.bl.latched = [] → ∀ m, t.bl.again = some (m + 1) → ends { b with again := some m }) ∧
    (t.bl.stopping = false → t.bl.again = some 0 ∨ t.bl.again = none → ph.stop = true → ends (stop 1)) ∧
    (t.bl.stopping = false → t.bl.latched = [] → t.bl.again = some 0 ∨ t.bl.again = none → ph.stop = false →
      (∀ ph', t.phaseOk (ph.next % 2 ^ 20) = some ph' → ends { b with pos := BitVec.ofNat 20 ph.next, again := none }) ∧
      (t.phaseOk (ph.next % 2 ^ 20) = none → ends { stop 5 with pos := BitVec.ofNat 20 ph.next }))

namespace Sys2Proof.Claims

/-- A cell waiting at a port, unless the port is DOWN (R369). -/
def cellAt (s : State) (q : Nat) (c : Ctl) : State :=
  if (s.port q).state = .down then s else s.setPort q { s.port q with cells := (s.port q).cells ++ [c] }

/-- A port in another state since now (Table 11.2). -/
def inState (x : Port) (st : PortState) (now : Nat) : Port := { x with state := st, since := now }

/-- LK_PORT_UP of an ACTIVE port (R350). -/
def nowUp (s : State) (q : Nat) (x : Port) : State :=
  (s.setPort q { inState x .active s.now with txDue := 300 * s.now }).portEvent q 0x5004
    [.h q, .d x.peer.toNat, .h x.peerPort, .h x.width, .h (16 * x.vmaj + x.vmin)]

/-- R353: the version of two ranges, if they share one: the lower of the highest, as 16 × major + minor. -/
def agreed (c : CapRec) : Option Nat :=
  let v := Nat.min 0x41 (16 * c.hiMaj + c.hiMin)
  if 0x30 ≤ v ∧ 16 * c.loMaj + c.loMin ≤ v then some v else none

/-- A port with nothing in transit: a DOWN port's queues hold nothing (R369). -/
def emptied (x : Port) : Port :=
  { x with cells := [], ctx1 := [], ctx3 := [], txOpen := none, retry := [], resendAt := 0, resends := 0, rxOpen := none, rxCtx := []
           nak := false, fails := 0 }

/-- A lane out of a port's service. -/
def laneOut (x : Port) (lane : Nat) : Port := { x with retired := x.retired ||| 2 ^ lane, toRetire := x.toRetire &&& (15 - 2 ^ lane) }

/-- R350: the width one step below, where a major version below 4 has no width 3. -/
def narrowed (w maj : Nat) : Nat := if w = 4 then (if maj < 4 then 2 else 3) else w - 1

end Sys2Proof.Claims

/-- R350, R351, Table 11.2: a port without a partner pulses every 100 ms, and trains when it detects one; training admits the lanes that
reached lock, takes a width that every version has, and negotiates, or detects again without lanes; each state that is timed goes on when its
time is up. -/
def Sys2Proof.Claims.portsTrain : Prop :=
  ∀ (s : State) (q : PortIx),
    let x := s.port q
    let looking : Prop := x.state = .detect ∨ x.state = .down
    let into_ (x : Port) : State := s.setPort q x
    let late (n : Nat) : State := { s with now := Nat.max s.now (x.since + n) }
    (looking → exec (.portDetectPulse q) s = .next ({ s with now := s.now + 100000000 }.setPort q { x with pulses := x.pulses + 1 })) ∧
    (looking → exec (.partnerDetected q) s = .next (into_ (inState x .train s.now))) ∧
    (∀ lanes : BitVec 4, x.state = .train →
      let n := ((List.range 4).filter (fun k => lanes.toNat.testBit k && !x.retired.testBit k)).length
      (n = 0 → exec (.trainComplete q lanes) s = .next (into_ { inState x .detect s.now with admitted := lanes.toNat })) ∧
      (n ≠ 0 → ∃ y, exec (.trainComplete q lanes) s = .next (into_ y) ∧ y.state = .negotiate ∧ y.since = s.now ∧ y.admitted = lanes.toNat ∧
        y.width = (if n = 3 then 2 else n) ∧ y.partner = none ∧ y.rxSeq = 0xFF ∧ y.txSeq = 0 ∧ y.retry = [] ∧ y.given.toList = [64, 448, 16, 496] ∧
        y.credits.toList = [64, 0, 0, 0] ∧ (y.cells, y.ctx1, y.ctx3, y.owner, y.retired, y.downs) = (x.cells, x.ctx1, x.ctx3, x.owner, x.retired, x.downs))) ∧
    (x.state = .train → exec (.trainTimeout q) s = .next ((late 300000000).setPort q (inState x .detect (late 300000000).now))) ∧
    (x.state = .negotiate → exec (.negotiateTimeout q) s = .next ((late 1000000).setPort q (inState x .detect (late 1000000).now))) ∧
    (x.state = .retrain → exec (.retrainTimeout q) s = .next ((late 10000).portDown q 3)) ∧
    (x.state = .retrain →
      let y := { x with width := x.toWidth, resendAt := 0, resends := if x.retry = [] then 0 else 1, nak := false, fails := 0 }
      (x.peerValid = true → exec (.retrainComplete q) s = .next (into_ { inState y .active s.now with txDue := 300 * s.now })) ∧
      (x.peerValid = false → exec (.retrainComplete q) s = .next (nowUp s q { y with peerValid := true })))

/-- R350, R352, R353: once both capability records are known the port takes the highest version in both ranges, tells a lower one by
LK_VERSION_FALLBACK, and is ACTIVE, or widens first; with no common version, or fewer than 16 credits of class 0, it goes DOWN. -/
def Sys2Proof.Claims.portsNegotiate : Prop :=
  ∀ (s : State) (q : PortIx) (c : CapRec),
    let x := s.port q
    x.state = .negotiate → x.partner = some c →
    (c.credits.getD 0 0 < 16 → exec (.capabilityRecord q) s = .next (s.portDown q 2)) ∧
    (16 ≤ c.credits.getD 0 0 → x.capSent = false → exec (.capabilityRecord q) s = .next s) ∧
    (16 ≤ c.credits.getD 0 0 → x.capSent = true → agreed c = none → exec (.capabilityRecord q) s = .next (s.portDown q 4)) ∧
    (∀ v, 16 ≤ c.credits.getD 0 0 → x.capSent = true → agreed c = some v →
      let y : Port := { x with
        vmaj := v / 16, vmin := v % 16, peer := c.serial, peerPort := c.port
        cells := x.cells.filter (fun k => match k with | .cap _ => false | _ => true)
        credits := #v[c.credits.getD 0 0, c.credits.getD 1 0, c.credits.getD 2 0, c.credits.getD 3 0] }
      let s1 := s.setPort q y
      let s2 := if v < 0x41 then s1.portEvent q 0x5002 [.h q, .h v, .h 0x41, .h (16 * c.hiMaj + c.hiMin)] else s1
      let wider : Prop := 64 ≤ v ∧ y.usable.length = 3 ∧ 3 ≤ (List.range 4).countP (fun k => c.lanes.testBit k)
      (wider → exec (.capabilityRecord q) s = .next (s2.setPort q { inState y .retrain s.now with toWidth := 3 })) ∧
      (¬ wider → exec (.capabilityRecord q) s = .next (nowUp s2 q { y with peerValid := true })))

/-- R302, R369: a port that goes DOWN holds nothing in transit, counts it and tells the cause by LK_PORT_DOWN; a WRITE context not yet sent
is answered with REASON 5; without an owner nothing else changes. -/
def Sys2Proof.Claims.portsGoDown : Prop :=
  ∀ (s : State) (q : PortIx) (cause : Nat),
    let x := s.port q
    let downed : Port := { emptied (inState x .down s.now) with width := 0, downs := x.downs + 1, tvalid := false }
    (x.owner = none → s.portDown q cause = (s.setPort q downed).bothEvent none 0x5003 [.h q, .h cause]) ∧
    (∀ p w d r m, x.owner = some p → x.ctx1 = [.write w d r] → x.ctx3 = [] → w.writer = some m → (s.part p).count = 0 →
      let s1 : State := { s.setPort q downed with net := s.net ++ [⟨.port q, .tile ((s.part p).logical m), p, [], .ctl (.writeFail m d 1 5)⟩] }
      s.portDown q cause = s1.bothEvent (some p) 0x5003 [.h q, .h cause])

/-- R350, R367, R368, R505: loss of signal on a lane in use retires it: LK_LANE_RETIRED, and a RETRAIN at the next width, or DOWN below MINW. -/
def Sys2Proof.Claims.lanesLost : Prop :=
  ∀ (s : State) (q : PortIx) (lane : LaneIx),
    let x := s.port q
    let y := laneOut x lane
    let w := Nat.min y.usable.length (narrowed x.width x.vmaj)
    let told := (outOfService (s.setPort q y) 4 (4 * q + lane) w).portEvent q 0x5001 [.h q, .h lane, .h w, .h 2]
    x.state = .active ∨ x.state = .retrain ∨ x.state = .negotiate → lane.val ∈ x.lanes → x.retired.testBit lane = false →
    (w ≠ 0 → x.minw.force ≤ w → exec (.laneLossOfSignal q lane) s = .next (told.setPort q { inState y .retrain s.now with toWidth := w })) ∧
    (w = 0 ∨ w < x.minw.force → exec (.laneLossOfSignal q lane) s = .next (told.portDown q 1))

namespace Sys2Proof.Claims

/-- R354: bytes corrected at frame positions, counted on the lanes that carried them and in the 1 ms that now runs. -/
def fixedOn (x : Port) (places : List Nat) (now : Nat) : Port :=
  let ls := x.lanes
  let on (k : Nat) : Nat := places.countP (fun i => decide (ls.getD (i % Nat.max 1 ls.length) 0 = k))
  let fresh : Prop := x.winStart + 1000000 ≤ now
  { x with
    feccorr := x.feccorr + places.length
    lanecorr := #v[x.lanecorr[0] + on 0, x.lanecorr[1] + on 1, x.lanecorr[2] + on 2, x.lanecorr[3] + on 3]
    corrWin := if fresh then #v[on 0, on 1, on 2, on 3] else #v[x.corrWin[0] + on 0, x.corrWin[1] + on 1, x.corrWin[2] + on 2, x.corrWin[3] + on 3]
    winStart := if fresh then now else x.winStart }

/-- R356, R366: what an acknowledgement leaves of the frames kept for a resend: those after it; none for a frame not outstanding. -/
abbrev ackedTo (x : Port) (a : BitVec 8) (y : Port) : Prop :=
  if a = x.txSeq - BitVec.ofNat 8 (x.retry.length + 1) then y = x
  else ∃ pre seq bits body post, x.retry = pre ++ (seq, bits, body) :: post ∧ seq = a ∧ (∀ r ∈ pre, r.1 ≠ a) ∧
    y = { x with retry := post, resends := 0, resendAt := x.resendAt - (pre.length + 1), capSent := true }

end Sys2Proof.Claims

/-- R356, R357, R364, R366: a frame that cannot be corrected, or whose CRC is wrong, is counted and asks for a resend; a good null frame
acknowledges; a good sequenced frame that is next in order also returns credits and brings its four slots, and one out of order asks for a resend. An
acknowledgement of no frame outstanding is a violation. -/
def Sys2Proof.Claims.framesReceived : Prop :=
  ∀ (s : State) (q : PortIx) (frame : List Byte),
    let x := s.port q
    let into_ (y : Port) : Answer := .next (s.setPort q y)
    let bad (y : Port) : Port := { y with nak := true, fails := x.fails + 1 }
    x.state = .active ∨ x.state = .negotiate →
    (decodeFrame frame = .badFec → x.fails < 16 → exec (.frameReceive q frame) s = into_ (bad { x with fecunc := x.fecunc + 1 })) ∧
    (∀ fixed, decodeFrame frame = .badCrc fixed → x.fails < 16 →
      exec (.frameReceive q frame) s = into_ (bad { fixedOn x fixed s.now with crcerr := x.crcerr + 1 })) ∧
    (∀ link body fixed, decodeFrame frame = .good link body fixed →
      let z := fixedOn x fixed s.now
      let seq := BitVec.ofNat 8 link
      let slots := (List.range 4).map (fun i => (link / 2 ^ (16 + 2 * i) % 4, (body.drop (64 * i)).take 64))
      let cls := link / 2 ^ 25 % 4
      ((∀ y, ¬ ackedTo z (BitVec.ofNat 8 (link / 256)) y) → exec (.frameReceive q frame) s = .next ((s.setPort q z).violation q)) ∧
      (∀ y, ackedTo z (BitVec.ofNat 8 (link / 256)) y → link / 2 ^ 24 % 2 = 0 ∨ y.retry = [] →
        (link / 2 ^ 30 % 2 = 1 → exec (.frameReceive q frame) s = into_ y) ∧
        (link / 2 ^ 30 % 2 = 0 → seq = x.rxSeq + 1 → exec (.frameReceive q frame) s = .next ((s.setPort q
          { y with rxSeq := seq, nak := false, fails := 0, rxflits := x.rxflits + 1
                   credits := setAt y.credits cls (y.credits.toList.getD cls 0 + link / 2 ^ 27 % 8) }).slotsIn q slots)) ∧
        (link / 2 ^ 30 % 2 = 0 → 0 < (seq - (x.rxSeq + 1)).toNat → (seq - (x.rxSeq + 1)).toNat < 128 →
          exec (.frameReceive q frame) s = into_ { y with nak := true }) ∧
        (link / 2 ^ 30 % 2 = 0 → 128 ≤ (seq - (x.rxSeq + 1)).toNat → exec (.frameReceive q frame) s = into_ y)) ∧
      (∀ y, ackedTo z (BitVec.ofNat 8 (link / 256)) y → link / 2 ^ 24 % 2 = 1 → y.retry ≠ [] → y.resends = 0 → link / 2 ^ 30 % 2 = 1 →
        exec (.frameReceive q frame) s = into_ { y with resendAt := 0, resends := 1 }))

/-- R358, R360, R364: a sequenced frame's slots: an IDLE slot says nothing; a HDR slot of a WRITE of at most 48 bytes spends a credit that the
partner holds and is a whole received context; one without a credit, and a DATA slot without a context open, break the protocol. -/
def Sys2Proof.Claims.slotsReceived : Prop :=
  ∀ (s : State) (q : PortIx) (bs : List Byte) (rest : List (Nat × List Byte)),
    let x := s.port q
    let w := wordAt bs 0
    let n := fld (wordAt bs 8) 32 15
    let cls := fld w 4 2
    bs.length = 64 →
    s.slotsIn q ((0, bs) :: rest) = s.slotsIn q rest ∧
    (∀ k ∈ [1, 3], x.rxOpen = none → cls = k → fld w 0 4 = 1 → n ≤ 48 → x.given.toList.getD cls 0 ≠ 0 →
      s.slotsIn q ((2, bs) :: rest) = (s.setPort q { x with
        given := setAt x.given cls (x.given.toList.getD cls 0 - 1)
        rxCtx := x.rxCtx ++ [(.write ⟨fld w 40 6, fld (wordAt bs 8) 0 20, (bs.drop 16).take n, if bit w 7 then some (fld w 8 4) else none, bit w 6,
          if bit w 46 then some (fld w 48 8) else none, some (fld w 28 12)⟩ (fld w 16 12) (fld w 28 12), 1, cls)] }).slotsIn q rest) ∧
    (x.given.toList.getD cls 0 = 0 → s.slotsIn q ((2, bs) :: rest) = s.violation q) ∧
    (x.rxOpen = none → s.slotsIn q ((3, bs) :: rest) = s.violation q) ∧
    (x.given[0] = 0 → s.slotsIn q ((1, bs) :: rest) = s.violation q)

/-- R369: a protocol violation is counted and starts a RETRAIN of an ACTIVE port; the fourth within a second sends the port DOWN. -/
def Sys2Proof.Claims.violations : Prop :=
  ∀ (s : State) (q : PortIx),
    let x := s.port q
    let vs := x.violations.filter (fun t => decide (s.now < t + 1000000000))
    let y : Port := { x with proterr := x.proterr + 1, violations := vs ++ [s.now] }
    (3 ≤ vs.length → s.violation q = (s.setPort q y).portDown q 2) ∧
    (vs.length < 3 → x.state = .active → s.violation q = s.setPort q { inState y .retrain s.now with toWidth := x.width }) ∧
    (vs.length < 3 → x.state ≠ .active → s.violation q = s.setPort q y)

namespace Sys2Proof.Claims

/-- R362, Table 11.7: a control item whose fields fit its cells; TIME items take their times from the clock. -/
abbrev fits (c : Ctl) : Prop :=
  let e4 (e : Ends) : Prop := e.dep < 16 ∧ e.sep < 16 ∧ e.dtile < 4096 ∧ e.srctile < 4096
  match c with
  | .bell n => n.bell < 64 ∧ n.status < 8 ∧ n.latest < 4096 ∧ n.lateness < 2 ^ 32
  | .announce _ ctr flow dtile count dsth dstoff => ctr < 16 ∧ flow < 256 ∧ dtile < 4096 ∧ count < 2 ^ 32 ∧ dsth < 64 ∧ dstoff < 2 ^ 20
  | .passes sep dtile units => sep < 16 ∧ dtile < 4096 ∧ units < 2 ^ 32
  | .openReq e => e4 e
  | .openRep e r u => e4 e ∧ r < 256 ∧ u < 2 ^ 32
  | .closeNotice e => e4 e
  | .truncNotice e _ => e4 e
  | .writeFail d f k r => d < 4096 ∧ f < 4096 ∧ k < 16 ∧ r < 16
  | .throttle o r h => o < 4096 ∧ r < 32 ∧ h < 16
  | .timeReq _ _ => False
  | .timeRep _ _ _ => False
  | .cap c => c.port < 16 ∧ c.hiMaj < 16 ∧ c.hiMin < 16 ∧ c.loMaj < 16 ∧ c.loMin < 16 ∧ c.lanes < 16 ∧ c.credits.length = 4 ∧ ∀ n ∈ c.credits, n < 65536

/-- R358, R360: a context whose fields fit its header and whose data fits one. -/
abbrev ctxFits (c : Ctx) : Prop :=
  let e4 (e : Ends) : Prop := e.dep < 16 ∧ e.sep < 16 ∧ e.dtile < 4096 ∧ e.srctile < 4096
  match c with
  | .write w d r => d < 4096 ∧ r < 4096 ∧ w.handle < 64 ∧ w.off < 2 ^ 20 ∧ w.data.length ≤ 16384 ∧ (∀ k, w.ctr = some k → k < 16) ∧
      (∀ f, w.flow = some f → f < 256) ∧ w.writer = some r
  | .msg e len _ _ data => e4 e ∧ len < 2 ^ 24 ∧ data.length = Nat.min len 16384
  | .msgc e off _ data => e4 e ∧ off < 2 ^ 24 ∧ data.length ≤ 16384
  | .pad e _ units => e4 e ∧ units < 2 ^ 32
  | .close e => e4 e

end Sys2Proof.Claims

/-- R358 to R362, Tables 11.6 and 11.7: what a port spells as cells or as a context's slots, a port reads back as it was. -/
def Sys2Proof.Claims.wireReadBack : Prop :=
  (∀ (c : Ctl) (now : Nat) (more : List (List Byte)), fits c →
    ∃ a tl, c.cells now = a :: tl ∧ readCell a ((tl ++ more).headD []) now = some (some c, !tl.isEmpty)) ∧
  (∀ (t2 turn now : Nat), t2 < 2 ^ 64 → turn < 2 ^ 32 → turn ≤ now → now < 2 ^ 64 →
    (∃ a, (Ctl.timeReq 0 0).cells now = [a] ∧ readCell a [] now = some (some (.timeReq now now), false)) ∧
    (∃ a, (Ctl.timeRep 0 t2 (now - turn)).cells now = [a] ∧ readCell a [] now = some (some (.timeRep turn t2 now), false))) ∧
  (∀ (c : Ctx) (maj : Nat), ctxFits c →
    let head := (c.wire maj).1
    let data := (c.wire maj).2.1
    head.length = 16 ∧ readCtx head data = c ∧
      (c.slots maj).1.head? = some (2, (head ++ data ++ List.replicate 64 0).take 64) ∧
      (c.slots maj).1.length = 1 + (data.length - 48 + 63) / 64 ∧
      ∀ i k bs, (c.slots maj).1[i + 1]? = some (k, bs) → k = 3 ∧ bs = ((data.drop (48 + 64 * i)) ++ List.replicate 64 0).take 64)

namespace Sys2Proof.Claims

/-- R359, R364: the oldest received context has left a port's buffer: its slots are credits to return. -/
def taken (s : State) (q : Nat) (rest : List (Ctx × Nat × Nat)) (slots cls : Nat) : State :=
  let x := s.port q
  s.setPort q { x with rxCtx := rest, returns := setAt x.returns cls (x.returns.toList.getD cls 0 + slots) }

/-- R370, R453: the owner of a port takes traffic for a partition-relative tile. -/
abbrev admits (s : State) (q p tile : Nat) : Prop :=
  (s.port q).owner = some p ∧ (s.part p).state ≠ .ending ∧ tile < (s.part p).count ∧ (s.part p).state ≠ .preempted

/-- R370: traffic discarded at a port, counted. -/
def discarded (s : State) (q : Nat) : State := s.setPort q { s.port q with discard := (s.port q).discard + 1 }

/-- Bodies injected at a port for a tile of the owner. -/
def brought (s : State) (q p tile : Nat) (bs : List Body) : State :=
  { s with net := s.net ++ bs.map (fun b => (⟨.port q, .tile ((s.part p).logical tile), p, [], b⟩ : Packet)) }

end Sys2Proof.Claims

/-- R359, R360, R361, R370, R453: a received WRITE context becomes packets of 64 bytes for its tile, and MSG, MSGC, PAD and CLOSE contexts the flits, the PAD or the
marker of their endpoint; a port whose owner does not take them discards and counts them, answering a write with REASON 5 and channel data with a close notice. -/
def Sys2Proof.Claims.contextsDelivered : Prop :=
  ∀ (s : State) (q : PortIx) (slots cls : Nat) (rest : List (Ctx × Nat × Nat)),
    let x := s.port q
    let s1 := taken s q rest slots cls
    let flits (e : Ends) (seq : BitVec 32) (len : Nat) (tag : BitVec 32) (i : Nat) (data : List Byte) : List Body :=
      (List.range (Nat.max 1 ((data.length + 63) / 64))).map (fun k =>
        .flit ⟨e, seq, len, tag, unitsOf len, false, i + k, (data.drop (64 * k)).take 64⟩)
    (∀ w d r, x.rxCtx = (.write w d r, slots, cls) :: rest →
      (∀ p, admits s q p d → exec (.writeContext q) s = .next (brought s1 q p d
        ((List.range (Nat.max 1 ((w.data.length + 63) / 64))).map (fun i => .write { w with off := w.off + 64 * i, data := (w.data.drop (64 * i)).take 64 })))) ∧
      ((∀ p, ¬ admits s q p d) → exec (.writeContext q) s = .next (cellAt (discarded s1 q) q (.writeFail r d 1 5)))) ∧
    (∀ e len seq tag data, x.rxCtx = (.msg e len seq tag data, slots, cls) :: rest →
      (∀ p, admits s q p e.dtile → exec (.msgContext q) s = .next (brought s1 q p e.dtile (flits e seq len tag 0 data))) ∧
      ((∀ p, ¬ admits s q p e.dtile) →
        exec (.msgContext q) s = .next (cellAt (discarded s1 q) q (.closeNotice ⟨e.sep, e.dep, e.srctile, e.dtile⟩)))) ∧
    (∀ e off seq data p, x.rxCtx = (.msgc e off seq data, slots, cls) :: rest → admits s q p e.dtile →
      exec (.msgContext q) s = .next (brought s1 q p e.dtile
        (flits e seq (s.wholeLen q (cell (3 + e.at) seq.toNat)) 0 (off / 64) data))) ∧
    (∀ e seq units p, x.rxCtx = (.pad e seq units, slots, cls) :: rest → admits s q p e.dtile →
      exec (.msgContext q) s = .next (brought s1 q p e.dtile [.flit ⟨e, seq, 0, 0, units, true, 0, []⟩])) ∧
    (∀ e, x.rxCtx = (.close e, slots, cls) :: rest →
      (∀ p, admits s q p e.dtile → exec (.msgContext q) s = .next (brought s1 q p e.dtile [.marker e])) ∧
      ((∀ p, ¬ admits s q p e.dtile) → exec (.msgContext q) s = .next (discarded s1 q)))

/-- R371: an ACTIVE port under version 4.1 sends a TIME request each 1 ms; the partner answers one; the reply gives LK_TOFF = T2 − T1 − (T4 −
T1 − TURN) / 2. R363, R484: a THROTTLE cell stands as a notice until RATE 31 ends it, and goes on over the tree's other ports. -/
def Sys2Proof.Claims.timeAndThrottle : Prop :=
  (∀ (s : State) (q : PortIx),
    let x := s.port q
    let s1 : State := { s with now := Nat.max s.now (x.timeLast + 1000000) }
    x.state = .active → x.vmaj = 4 → x.vmin = 1 →
    exec (.timeRequestSend q) s = .next (s1.setPort q { x with cells := x.cells ++ [.timeReq s1.now s1.now], timeLast := s1.now, timeT1 := some s1.now })) ∧
  (∀ (s : State) (k : Nat) (q : PortIx) (src : Place) (p : Nat) (tags : List Tag) (t1 t2 : Nat),
    Next s k ⟨src, .port q, p, tags, .ctl (.timeReq t1 t2)⟩ → exec (.timeRequest k) s = .next (cellAt (without s k) q (.timeRep 0 t2 t2))) ∧
  (∀ (s : State) (k : Nat) (q : PortIx) (src : Place) (p : Nat) (tags : List Tag) (turn t2 t4 : Nat),
    let x := s.port q
    Next s k ⟨src, .port q, p, tags, .ctl (.timeRep turn t2 t4)⟩ →
    (∀ t1, x.timeT1 = some t1 → exec (.timeReply k) s = .next ((without s k).setPort q
      { x with toff := BitVec.ofInt 64 ((t2 : Int) - t1 - ((t4 : Int) - t1 - turn) / 2), tvalid := true, timeT1 := none })) ∧
    (x.timeT1 = none → exec (.timeReply k) s = .next (without s k))) ∧
  (∀ (s : State) (k : Nat) (src : Place) (p : Nat) (tags : List Tag) (origin rate hops : Nat),
    let s1 := without s k
    let rest := s.power.notices.filter (fun n => decide (¬ (n.part = p ∧ n.origin = origin)))
    let s2 : State := { s1 with power := { s.power with notices := if rate = 31 then rest else rest ++ [⟨p, origin, rate, s.now⟩] } }
    Next s k ⟨src, .root, p, tags, .ctl (.throttle origin rate hops)⟩ →
    exec (.throttle k) s = .next (((s.part p).rootPorts.filter (fun q => decide (src ≠ .port q))).foldl
      (fun s q => cellAt s q (.throttle origin rate (Nat.min 15 (hops + 1)))) s2))

/-- R350, R374: LK_APPLY puts EN and MINW into force: a port without EN is DISABLED and holds nothing, one that gets EN detects, and an ACTIVE port
narrower than MINW goes DOWN. -/
def Sys2Proof.Claims.linkApplies : Prop :=
  ∀ (s : State) (q : PortIx),
    let x := s.port q
    let y : Port := { x with en := ⟨x.en.shadow, x.en.shadow⟩, minw := ⟨x.minw.shadow, x.minw.shadow⟩ }
    let into_ (z : Port) : Prop := exec (.lkApply q) s = .next (s.setPort q z)
    (x.en.shadow = false → x.ctx1 = [] → x.ctx3 = [] → into_ { emptied (inState y .disabled s.now) with width := 0 }) ∧
    (x.en.shadow = true → x.state = .disabled → into_ (inState y .detect s.now)) ∧
    (x.en.shadow = true → x.state = .active ∨ x.state = .retrain → x.width < x.minw.shadow → exec (.lkApply q) s = .next ((s.setPort q y).portDown q 1)) ∧
    (x.en.shadow = true → x.state ≠ .disabled → ¬ ((x.state = .active ∨ x.state = .retrain) ∧ x.width < x.minw.shadow) → into_ y)

namespace Sys2Proof.Claims

/-- Table 13.10: the opcodes that a row has. -/
def opcodes : List Nat :=
  [0x01, 0x02, 0x10, 0x11, 0x12, 0x20, 0x21, 0x22, 0x23, 0x24, 0x25, 0x26, 0x30, 0x40, 0x41, 0x50, 0x51, 0x60, 0x70, 0x71, 0x80, 0x81, 0x90, 0xA0]

/-- A function with another, in the module. -/
def withFn (s : State) (f : Nat) (x : Fn) : State := s.setFn f x

/-- A ring past the entry at its tail; the lap's phase turns where the ring begins again (R419, R431). -/
def ringOn (r : Ring) : Ring :=
  let t := (r.tail + 1) % 2 ^ r.log2.force
  { r with tail := t, phase := if t = 0 then !r.phase else r.phase }

/-- A ring has a free entry: it is enabled and its tail is not just behind its head. -/
abbrev roomIn (r : Ring) : Prop := r.en.force = true ∧ (r.tail + 1) % 2 ^ r.log2.force ≠ r.head % 2 ^ r.log2.force

/-- Words in memory, lowest byte first. -/
def wordsOf (ws : List Nat) : List Byte := ws.flatMap (leBytes 8)

/-- Table 13.13: an event record: code and partition, SEQ, time, its fields in halves, and the phase. -/
def eventRecord (e : Event) (phase : Bool) : List Byte :=
  let h (k : Nat) : Nat := e.halves.getD k 0 % 2 ^ 32
  wordsOf ([e.code + (match e.part with | some p => p * 2 ^ 16 + 2 ^ 19 | none => 0), e.seq, e.time] ++
    (List.range 4).map (fun k => h (2 * k) + h (2 * k + 1) * 2 ^ 32) ++ [if phase then 2 ^ 63 else 0])

/-- Table 13.7: a reply: status, opcode, DEFERRED, slot and SEQ; TAG, which version 3.1 brought; five result words; DETAIL and the phase. -/
def replyRecord (r : Reply) (ver : Nat) (phase : Bool) : List Byte :=
  wordsOf ([r.status * 2 ^ 56 + r.opcode * 2 ^ 48 + (if r.deferred then 2 ^ 47 else 0) + r.slot * 2 ^ 32 + r.seq.toNat,
      if ver < 0x31 then 0 else r.tag.toNat] ++ (List.range 5).map (fun k => (r.result.getD k 0).toNat) ++
    [r.detail % 2 ^ 32 + (if phase then 2 ^ 63 else 0)])

/-- The header word of a command (R412): opcode, flags, length, SEQ; and the command that its write submits. -/
abbrev submittedBy (s : State) (f k : Nat) (w : Word) (c : Cmd) : Prop :=
  let n := w.toNat
  let slot (i m : Nat) : List Byte := (List.range m).map (fun j => Mem.read (s.fn f).slots (256 * k + i + j))
  c.func = f ∧ c.slot = k ∧ c.opcode = n / 2 ^ 56 ∧ c.noint = n.testBit 48 ∧ c.order = n.testBit 49 ∧
    c.flagsBad = decide (n / 2 ^ 50 % 64 ≠ 0) ∧ c.plen = n / 2 ^ 32 % 2 ^ 16 ∧ c.seq.toNat = n % 2 ^ 32 ∧ c.tag.toNat = leVal (slot 8 8) ∧
    c.params = slot 16 240 ∧ c.at_ = s.now ∧ c.taken = false ∧ c.deferred = false ∧ c.silent = false ∧ c.moved = 0 ∧
    c.dup = s.cmds.any (fun d => d.func == f && d.seq.toNat == n % 2 ^ 32)

/-- R413, R414: a refused write: counted, its CB_ERR bit set, with the slot that first set it. -/
def refusedAs (x : Fn) (b : Fin 3) (k : Nat) : Fn :=
  { x with refused := x.refused + 1, errSlot := if x.pErr[b] then x.errSlot else k, pErr := x.pErr ||| BitVec.ofNat 3 (2 ^ b.val) }

/-- The outstanding command of a function's slot that has not been answered: still to be taken, or taken. -/
abbrev stands (s : State) (f k : Nat) (taken : Bool) (c : Cmd) : Prop :=
  s.cmds.find? (fun d => d.func == f && d.slot == k && !d.deferred && (d.taken == taken)) = some c

end Sys2Proof.Claims

/-- R412 to R415, R537: a whole header write to an empty slot submits the command with the TAG and parameters that stand there; a full slot
refuses it (OVERRUN), as do a partial write and a board that is not enabled or not ready; a command of an unknown opcode is answered BADOP, or VERSION before
NEGOTIATE, as soon as it may start. The slot's other bytes are stored while it is empty. -/
def Sys2Proof.Claims.commandsSubmitted : Prop :=
  ∀ (s : State) (f : FnIx) (k : SlotIx) (w : Word),
    let x := s.fn f
    let open_ : Prop := x.rr.en.force = true ∧ s.up.ready.getLsbD 0 = true
    let noted (b : Fin 3) : Answer := .next (withFn s f (refusedAs x b k))
    (Tab.find? x.full k ≠ none → ∀ whole, exec (.commandSubmit f k w whole) s = noted 0) ∧
    (Tab.find? x.full k = none → exec (.commandSubmit f k w false) s = noted 1) ∧
    (Tab.find? x.full k = none → ¬ open_ → exec (.commandSubmit f k w true) s = noted 2) ∧
    (Tab.find? x.full k = none → open_ → (∀ c ∈ s.cmds, c.opcode ∈ opcodes) → ∃ c, submittedBy s f k w c ∧
      let s1 := withFn { s with cmds := s.cmds ++ [c] } f { x with full := Tab.put x.full k w, submitted := x.submitted + 1 }
      (c.opcode ∈ opcodes → exec (.commandSubmit f k w true) s = .next s1) ∧
      (c.opcode ∉ opcodes → s.cmds = [] →
        exec (.commandSubmit f k w true) s = .next (s1.finish c (if x.neg then 1 else 9) [] 0))) ∧
    (∀ (off : BitVec 8) (bs : List Byte),
      (Tab.find? x.full k ≠ none → exec (.slotParameterWrite f k off bs) s = noted 0) ∧
      (Tab.find? x.full k = none →
        exec (.slotParameterWrite f k off bs) s = .next (withFn s f { x with slots := Mem.writeN x.slots (256 * k + off.toNat) (bs.take (256 - off.toNat)) })))

/-- R415, R418: a command that ends leaves the board, and its reply, or CMD_DONE when it was deferred, is due; that of a function reset
meanwhile is discarded. -/
def Sys2Proof.Claims.commandsEnd : Prop :=
  ∀ (s : State) (pre post : List Cmd) (c : Cmd) (st : Nat) (res : List Word) (detail : Nat),
    let s1 : State := { s with cmds := pre ++ post }
    let r : Reply := ⟨c.slot, st, c.opcode, false, c.seq, c.tag, res, detail, c.noint⟩
    let x := s.fn c.func
    s.cmds = pre ++ c :: post → (∀ d ∈ pre ++ post, ¬ (d.func = c.func ∧ d.slot = c.slot ∧ d.at_ = c.at_ ∧ d.seq = c.seq)) →
    (c.silent = true → s.finish c st res detail = s1) ∧
    (c.silent = false → c.deferred = false → s.finish c st res detail = withFn s1 c.func { x with replies := x.replies ++ [r] }) ∧
    (c.silent = false → c.deferred = true → s.finish c st res detail = withFn s1 c.func { x with dones := x.dones ++ [r] })

/-- R418: a command not taken within 1 s is answered TIMEOUT; one taken and not ended by then is answered OK with DEFERRED and goes on; when it has
ended, CMD_DONE tells its status. -/
def Sys2Proof.Claims.commandsLate : Prop :=
  (∀ (s : State) (f : FnIx) (k : SlotIx) (c : Cmd),
    let late : State := { s with now := Nat.max s.now (c.at_ + 1000000000) }
    let x := s.fn f
    (stands s f k false c →
      let t := late.finish c 8 [] 0
      exec (.cmdTimeout f k) s = .next (withFn t f { t.fn f with timeouts := x.timeouts + 1 })) ∧
    (stands s f k true c → c.silent = false →
      exec (.cmdDeferred f k) s = .next (withFn (late.setCmd c { c with deferred := true }) f
        { x with replies := x.replies ++ [⟨c.slot, 0, c.opcode, true, c.seq, c.tag, [], 0, c.noint⟩] })) ∧
    (stands s f k true c → c.silent = true → exec (.cmdDeferred f k) s = .next (late.setCmd c { c with deferred := true }))) ∧
  (∀ (s : State) (f : FnIx) (r : Reply) (rs : List Reply),
    let x := s.fn f
    x.dones = r :: rs → exec (.cmdDone f) s = .next ((withFn s f { x with dones := rs }).sendEvent f 0x9004 none
      ([.h r.opcode, .h r.seq.toNat, .d r.tag.toNat, .h r.status] ++ (if r.opcode = 0x30 then [.d (r.result.getD 0 0).toNat] else []))))

/-- R419: the oldest reply due goes to the reply ring's free entry; its slot is empty again, LASTSEQ is its SEQ, and vector 0 is told unless the
command said NOINT. Without a free entry it waits. -/
def Sys2Proof.Claims.repliesWritten : Prop :=
  ∀ (s : State) (f : FnIx) (r : Reply) (rs : List Reply),
    let x := s.fn f
    let y : Fn := { x with replies := rs, rr := ringOn x.rr, full := Tab.erase x.full r.slot, lastSeq := r.seq }
    let bytes := replyRecord r (if x.neg then x.uver else 0x32) x.rr.phase
    x.replies = r :: rs → (∀ c ∈ s.cmds, c.opcode ∈ opcodes) →
    (roomIn x.rr → exec (.replyWrite f) s = .next (withFn { s with host := Mem.writeN s.host (x.rr.base.force + 64 * x.rr.tail) bytes } f
      (if r.noint then y else y.notify 0 s.now))) ∧
    (¬ roomIn x.rr → exec (.replyWrite f) s = .next s)

/-- R430, R431: an event takes its function's next SEQ; one of a class that is not enabled goes no further; one with no event held before it goes to
the event ring's free entry and tells vector 1; up to 256 are held, and any more are lost and counted, with the gap's first SEQ. -/
def Sys2Proof.Claims.eventsPosted : Prop :=
  ∀ (s : State) (f code : Nat) (part : Option Nat) (fs : List Fl),
    let x := s.fn f
    let y : Fn := { x with nextSeq := x.nextSeq + 1 }
    let e : Event := ⟨code, part, x.nextSeq, s.now, packHalves fs⟩
    let enabled : Prop := x.classes.force.testBit (code / 4096 - 1) = true
    f < 9 →
    (¬ enabled → s.postTo f code part fs = withFn s f y) ∧
    (enabled → x.held = [] → x.gap = none → roomIn x.ev → s.postTo f code part fs =
      withFn { s with host := Mem.writeN s.host (x.ev.base.force + 64 * x.ev.tail) (eventRecord e x.ev.phase) } f ({ y with ev := ringOn x.ev }.notify 1 s.now)) ∧
    (enabled → x.held ≠ [] ∨ x.gap ≠ none ∨ ¬ roomIn x.ev → x.held.length < 256 → s.postTo f code part fs = withFn s f { y with held := x.held ++ [e] }) ∧
    (enabled → 256 ≤ x.held.length → s.postTo f code part fs = withFn s f { y with
      lost := x.lost + 1, gap := some (match x.gap with | some (n, q) => (n + 1, q) | none => (1, x.nextSeq)) })

/-- R431: with a free entry the oldest held event is written; when none is held, EV_LOST tells a gap's count and first SEQ and ends it. -/
def Sys2Proof.Claims.heldEventsWritten : Prop :=
  ∀ (s : State) (f : FnIx),
    let x := s.fn f
    let put (x : Fn) (e : Event) : State :=
      withFn { s with host := Mem.writeN s.host (x.ev.base.force + 64 * x.ev.tail) (eventRecord e x.ev.phase) } f ({ x with ev := ringOn x.ev }.notify 1 s.now)
    (¬ roomIn x.ev → exec (.eventRingWrite f) s = .next s) ∧
    (∀ e es, roomIn x.ev → x.held = e :: es → exec (.eventRingWrite f) s = .next (put { x with held := es } e)) ∧
    (∀ n q, roomIn x.ev → x.held = [] → x.gap = some (n, q) → x.classes.force.testBit 8 = true →
      let r := put { x with gap := none, nextSeq := x.nextSeq + 1 } ⟨0x9003, none, x.nextSeq, s.now, packHalves [.h n, .d q]⟩
      exec (.eventRingWrite f) s = .next { r with up := { s.up with alerts := s.up.alerts ++ [⟨0x9003, none, 0, s.now, packHalves [.h n, .d q]⟩] } }) ∧
    (roomIn x.ev → x.held = [] → x.gap = none → exec (.eventRingWrite f) s = .next s)

/-- R432: a write to a ring is gathered; its vector is raised, or held pending while masked, when COUNT writes are gathered or moderation is off, and when
DELAY µs have passed since the first. -/
def Sys2Proof.Claims.interruptsModerated : Prop :=
  let fired (v : Vector_) : Vector_ :=
    if v.masked then { v with waits := true, gathered := 0, first := none } else { v with raised := v.raised + 1, gathered := 0, first := none }
  (∀ (x : Fn) (k : Fin 4) (now : Nat),
    let v := x.msix[k]
    let w : Vector_ := { v with gathered := v.gathered + 1, first := some (v.first.getD now) }
    x.notify k now = { x with msix := x.msix.set k (if x.imodCount ≤ 1 ∨ x.imodDelay = 0 ∨ x.imodCount ≤ v.gathered + 1 then fired w else w) }) ∧
  (∀ (s : State) (f : FnIx) (v : Fin 2) (t : Nat),
    let x := s.fn f
    (x.msix[v.val]).first = some t →
    (x.imodDelay ≠ 0 → exec (.interruptModerationExpire f v) s =
      .next (withFn { s with now := Nat.max s.now (t + 1000 * x.imodDelay) } f { x with msix := x.msix.set v (fired x.msix[v.val]) })) ∧
    (x.imodDelay = 0 → exec (.interruptModerationExpire f v) s = .next s))

/-- R422, R430: CB_APPLY and EV_APPLY put the ring's base, size and enable into force and start the ring anew; a size beyond the range the
manual gives is a free value (assumption 34). R404: a reset of a function leaves its host interface as at reset, its slots' bytes aside, and its commands'
replies are discarded. -/
def Sys2Proof.Claims.boardApplies : Prop :=
  (∀ (s : State) (f : FnIx),
    let x := s.fn f
    let ring (r : Ring) (lo : Nat) : Ring :=
      let n := if lo ≤ r.log2.shadow ∧ r.log2.shadow ≤ 16 then r.log2.shadow else Config.ringLog2 r.log2.shadow
      ⟨⟨r.base.shadow, r.base.shadow⟩, ⟨n, n⟩, ⟨r.en.shadow, r.en.shadow⟩, 0, 0, true⟩
    exec (.cbApply f) s = .next (withFn s f { x with rr := ring x.rr 10 }) ∧
    exec (.evApply f) s = .next (withFn s f { x with ev := ring x.ev 6, classes := ⟨x.classes.shadow, x.classes.shadow⟩ })) ∧
  (∀ (s : State),
    let bare (x : Fn) : Fn := { Fn.reset with slots := x.slots, msix := x.msix.map (fun v => { v with gathered := 0, first := none }), answer := x.answer }
    (∀ f : FnIx, exec (.functionLevelReset f) s = .next { withFn s f (bare (s.fn f)) with
      cmds := s.cmds.map (fun c => if c.func = f.val then { c with silent := true } else c) }) ∧
    exec .hotReset s = .next { s with fns := s.fns.map bare, cmds := s.cmds.map (fun c => { c with silent := true }) })

/-- R405: a command that reads host memory and gets no completion within the timeout ends FAULT, as does one that gets a poisoned completion. -/
def Sys2Proof.Claims.completionsMissing : Prop :=
  ∀ (s : State) (f : FnIx) (k : SlotIx) (c : Cmd),
    s.cmds.find? (fun d => d.func == f.val && d.slot == k.val && ([0x10, 0x50, 0xA0].contains d.opcode || (d.opcode == 0x30 && !bit (d.arg 0) 8)) &&
      (d.taken || (!d.deferred && s.mayStart d))) = some c →
    exec (.completionTimeout f k 0 true) s = .next (s.finish c 6 [] 0) ∧
    exec (.completionTimeout f k 0 false) s = .next ({ s with now := s.now + 50000000 }.finish c 6 [] 0)

/-- R9 to R12, R408: a 64-bit write of a register changes the shadows and fields of its table row, clears a W1C bit that it writes one, and is the command
of its row for APPLY, GO and the like; a write of a slot's bytes submits or stores; one that is misaligned, or to a register that is not there, changes
nothing. -/
def Sys2Proof.Claims.registersWritten : Prop :=
  ∀ (s : State),
    let strobe (off : Nat) (d : Word) (c : Instr) : Prop := exec (.registerWrite 0 (BitVec.ofNat 26 off) true d) s = exec c s
    (∀ q : PortIx, strobe (0x0230020 + 0x100 * q) 1 (.lkApply q)) ∧
    (∀ p : PartIx,
      strobe (0x0210008 + 0x1000 * p) 1 (.mmApply p) ∧ strobe (0x0210010 + 0x1000 * p) 1 (.mmInval p) ∧ strobe (0x0220008 + 0x10 * p) 1 (.mmRegApply p) ∧
      strobe (0x0250068 + 0x1000 * p) 1 (.ptApply p) ∧
      (∀ id : BitVec 14, strobe (0x0210020 + 0x1000 * p) (BitVec.ofNat 64 id.toNat) (.mmFresumeResume p id) ∧
        strobe (0x0210020 + 0x1000 * p) (BitVec.ofNat 64 (2 ^ 16 + id.toNat)) (.mmFresumeAbort p id)) ∧
      (∀ k : BitVec 8, strobe (0x0210038 + 0x1000 * p) (BitVec.ofNat 64 k.toNat) (.mmChrel p k))) ∧
    strobe 0x0240028 1 .pwApply ∧ strobe 0x0140018 1 (.cbApply 0) ∧ strobe 0x0300018 1 (.evApply 0) ∧
    (∀ (q : PortIx) (d : Word), exec (.registerWrite 0 (BitVec.ofNat 26 (0x0230000 + 0x100 * q + 0x18)) true d) s = .next (s.setPort q
      { s.port q with en := { (s.port q).en with shadow := bit d 0 }, minw := { (s.port q).minw with shadow := fld d 4 3 } })) ∧
    (∀ (p : PartIx) (d : Word),
      let x := s.part p
      let at_ (off : Nat) : BitVec 26 := BitVec.ofNat 26 (0x0210000 + 0x1000 * p + off)
      let mm (m : MmBlock) : Answer := .next (s.setPart p { x with mm := m })
      exec (.registerWrite 0 (at_ 0) true d) s =
        mm { x.mm with valid := { x.mm.valid with shadow := bit d 0 }, root := { x.mm.root with shadow := fld d 12 27 } } ∧
      exec (.registerWrite 0 (at_ 0x18) true d) s = mm { x.mm with apMode := bit d 0, apBase := fld d 36 12 } ∧
      exec (.registerWrite 0 (at_ 0x28) true d) s = mm { x.mm with ftmo := fld d 0 16 } ∧
      exec (.registerWrite 0 (at_ 0x30) true d) s =
        mm { x.mm with stray := x.mm.stray && !bit d 16, aperr := x.mm.aperr && !bit d 17, timedout := x.mm.timedout && !bit d 18 } ∧
      exec (.registerWrite 0 (BitVec.ofNat 26 (0x0220000 + 0x10 * p)) true d) s = .next (s.setPart p { x with reg :=
        { x.reg with rate := { x.reg.rate with shadow := fld d 0 17 }, burst := { x.reg.burst with shadow := fld d 32 16 } } })) ∧
    (∀ d : Word,
      let x := s.fn 0
      exec (.registerWrite 0 0x0140000 true d) s = .next (withFn s 0 { x with rr := { x.rr with base := { x.rr.base with shadow := d.toNat / 64 * 64 } } }) ∧
      exec (.registerWrite 0 0x0140008 true d) s = .next (withFn s 0 { x with rr := { x.rr with log2 := { x.rr.log2 with shadow := fld d 0 5 } } }) ∧
      exec (.registerWrite 0 0x0140010 true d) s = .next (withFn s 0 { x with rr := { x.rr with en := { x.rr.en with shadow := bit d 0 } } }) ∧
      exec (.registerWrite 0 0x0140020 true d) s = .next (withFn s 0 { x with rr := { x.rr with head := fld d 0 16 } }) ∧
      exec (.registerWrite 0 0x0140038 true d) s = .next (withFn s 0 { x with pErr := x.pErr &&& ~~~BitVec.ofNat 3 (fld d 0 3) }) ∧
      exec (.registerWrite 0 0x0140040 true d) s = .next (withFn s 0 { x with imodCount := fld d 0 8, imodDelay := fld d 8 16 }) ∧
      exec (.registerWrite 0 0x0300010 true d) s = .next (withFn s 0
        { x with ev := { x.ev with en := { x.ev.en with shadow := bit d 0 } }, classes := { x.classes with shadow := fld d 1 9 } }) ∧
      exec (.registerWrite 0 0x0300020 true d) s = .next (withFn s 0 { x with ev := { x.ev with head := fld d 0 16 } }) ∧
      exec (.registerWrite 0 0x0240020 true d) s = .next { s with power :=
        { s.power with thresh := { s.power.thresh with shadow := fld d 0 16 } } }) ∧
    (∀ (k : SlotIx) (d : Word),
      exec (.registerWrite 0 (BitVec.ofNat 26 (0x0100000 + 256 * k)) true d) s = exec (.commandSubmit 0 k d true) s ∧
      exec (.registerWrite 0 (BitVec.ofNat 26 (0x0100000 + 256 * k + 4)) false d) s = exec (.commandSubmit 0 k d false) s ∧
      exec (.registerWrite 0 (BitVec.ofNat 26 (0x0100000 + 256 * k + 16)) true d) s = exec (.slotParameterWrite 0 k 16 (leBytes 8 d.toNat)) s) ∧
    (∀ (f : FnIx) (off : BitVec 26) (d : Word), off.toNat % 8 ≠ 0 → exec (.registerWrite f off true d) s = .next s) ∧
    (∀ (off : BitVec 26) (d : Word), 0x0301000 ≤ off.toNat → off.toNat % 8 = 0 → exec (.registerWrite 0 off true d) s = .next s)

namespace Sys2Proof.Claims

/-- R416, R423 to R426: the command of a slot is of a row's opcode, may be taken, and passes every check of the row. -/
structure Takes (s : State) (f k : Nat) (fm : Form) (c : Cmd) : Prop where
  taken : s.toTake f k fm.code = some c
  passes : s.verdict fm c = none

/-- The parameter word `i` of a command, and a field of it. -/
def par (c : Cmd) (i lo n : Nat) : Nat := (c.arg i).toNat / 2 ^ lo % 2 ^ n

/-- A command that ends OK with results. -/
def okWith (s : State) (c : Cmd) (ws : List Word) : State := s.finish c 0 ws 0

/-- R426: bytes for host memory: written whole where the command's buffer holds them, else NOSPACE with the bytes they need. -/
def gives (s : State) (c : Cmd) (haddr hlen : Nat) (bs : List Byte) : State :=
  if bs.length ≤ hlen then okWith { s with host := Mem.writeN s.host haddr bs } c [BitVec.ofNat 64 bs.length]
  else s.finish c 5 [0, BitVec.ofNat 64 bs.length] 0

end Sys2Proof.Claims

/-- R411, R423 to R426: the checks of a command in their order: VERSION before NEGOTIATE, BADOP for a row that the version in force does not
have, BADARG with the lowest byte at fault, DENIED for a function that may not issue it. -/
def Sys2Proof.Claims.commandChecks : Prop :=
  ∀ (s : State) (fm : Form) (c : Cmd),
    let x := s.fn c.func
    let early : Prop := x.neg = false ∧ fm.code ≠ 1 ∧ fm.code ≠ 2
    let older : Prop := x.neg = true ∧ x.uver < fm.since
    let wrong (b : Nat) : Prop := (b = 0 ∧ c.dup = true) ∨ (b = 4 ∧ c.plen ≠ fm.len) ∨ (b = 6 ∧ c.flagsBad = true) ∨
      (∃ i m, fm.masks[i]? = some m ∧ ∃ j < 8, b = 16 + 8 * i + j ∧ fld (c.arg i &&& ~~~m) (8 * j) 8 ≠ 0 ∧ ∀ j' < j, fld (c.arg i &&& ~~~m) (8 * j') 8 = 0) ∨
      (∃ o, (o, true) ∈ fm.bad c ∧ b = 16 + o)
    let may : Prop := c.func = 0 ∨ (fm.pfOnly = false ∧ ∀ p, c.part = some p → (s.part p).state ≠ .none ∧ (s.part p).func = c.func)
    (early → s.verdict fm c = some (9, 0)) ∧
    (¬ early → older → s.verdict fm c = some (1, 0)) ∧
    (∀ b, ¬ early → ¬ older → wrong b → (∀ b', wrong b' → b ≤ b') → s.verdict fm c = some (2, b)) ∧
    (¬ early → ¬ older → (∀ b, ¬ wrong b) → ¬ may → s.verdict fm c = some (4, 0)) ∧
    (¬ early → ¬ older → (∀ b, ¬ wrong b) → may → s.verdict fm c = none)

/-- R416, R417: when an outstanding command may start: a kill, reset or destroy at once; any other after the function's earlier ones with ORDER or
below version 3.0, one of the module's at a time, one of a partition's at a time and not while it changes its state, none after a kill of its
partition that is outstanding, and at most 8 DMA_HOST of a function. -/
def Sys2Proof.Claims.commandOrder : Prop :=
  ∀ (s : State) (pre post : List Cmd) (c : Cmd),
    let kill (d : Cmd) : Prop := d.opcode ∈ [0x11, 0x12, 0x23]
    let mods (d : Cmd) : Prop := d.opcode ∈ [0x10, 0x11, 0x40, 0x50, 0x51, 0x80, 0x81, 0x90, 0xA0]
    let job (d : Cmd) : Prop := d.opcode ∈ [0x20, 0x21, 0x22, 0x24, 0x25, 0x26]
    let x := s.fn c.func
    s.cmds = pre ++ c :: post → (∀ d ∈ pre, ¬ (d.func = c.func ∧ d.slot = c.slot ∧ d.at_ = c.at_ ∧ d.seq = c.seq)) →
    (s.mayStart c = true ↔ kill c ∨
      ((c.order = true ∨ (x.neg = true ∧ x.uver < 0x30) → ∀ d ∈ pre, d.func ≠ c.func) ∧
        (mods c → ∀ d ∈ pre, ¬ mods d) ∧
        (job c → (∀ d ∈ pre, ¬ (job d ∧ d.part = c.part)) ∧
          ∀ p, c.part = some p → (s.part p).state ≠ .preempting ∧ (s.part p).state ≠ .ending) ∧
        (c.part ≠ none → ∀ d ∈ pre, ¬ (kill d ∧ d.part = c.part)) ∧
        (c.opcode = 0x30 → s.cmds.countP (fun d => decide (d.func = c.func ∧ d.opcode = 0x30 ∧ d.taken = true)) < 8)))

/-- R423 to R426: a command that fails a check ends with that status and DETAIL, whatever its row, and nothing else happens. -/
def Sys2Proof.Claims.commandsTurnedAway : Prop :=
  ∀ (s : State) (f : FnIx) (k : SlotIx) (c : Cmd) (st off : Nat),
    ∀ e ∈ [(Instr.negotiate f k, formNegotiate), (.partCreate f k, formCreate), (.partDestroy f k none, formDestroy), (.partReset f k none, formReset),
      (.loadImage f k, formLoad 0x20), (.bindTimetable f k, formLoad 0x21), (.jobStart f k, formStart), (.jobKill f k, formKill), (.preempt f k, formPreempt),
      (.resume f k, formResume), (.recess f k, formRecess), (.powerCapSet f k none, formCap), (.powerQuery f k, formPower), (.fwStage f k, formStage),
      (.fwActivate f k, formActivate), (.attest f k, formAttest), (.gradebookRead f k, formGrade), (.testSchedule f k, formTest)],
    s.toTake f k e.2.code = some c → s.verdict e.2 c = some (st, off) → exec e.1 s = .next (s.finish c st [] off)

/-- R411: NEGOTIATE takes the highest version in both ranges, tells one below 3.2 by UV_VERSION_FALLBACK, and is BUSY while the function has
another command outstanding; with no common version the function has none. -/
def Sys2Proof.Claims.negotiates : Prop :=
  ∀ (s : State) (f : FnIx) (k : SlotIx) (c : Cmd),
    let x := s.fn f
    let hi := par c 0 0 8
    let v := Nat.min 0x32 hi
    let alone : Prop := ∀ d ∈ s.cmds, d.func = f.val → d.slot = c.slot ∧ d.at_ = c.at_ ∧ d.seq = c.seq
    Takes s f k formNegotiate c → c.func = f.val →
    (¬ alone → exec (.negotiate f k) s = .next (s.finish c 3 [] 0)) ∧
    (alone → Nat.max 0x20 (par c 0 8 8) ≤ v →
      let s1 := withFn s f { x with uver := v, neg := true }
      let s2 := if v < 0x32 then s1.sendEvent f 0x9002 none [.h v, .h 0x32, .h hi] else s1
      exec (.negotiate f k) s = .next (okWith s2 c [BitVec.ofNat 64 (v + 0x32 * 2 ^ 8 + 0x20 * 2 ^ 16)])) ∧
    (alone → v < Nat.max 0x20 (par c 0 8 8) →
      exec (.negotiate f k) s = .next ((withFn s f { x with uver := 0, neg := false }).finish c 9 [] 0))

/-- R426, Tables 14.7, 13.12: QUERY of a partition's block registers, of a bell's lateness bins by participant, and of its counts; an item that is not
there is BADARG. -/
def Sys2Proof.Claims.queriesAnswered : Prop :=
  ∀ (s : State) (f : FnIx) (k : SlotIx) (c : Cmd),
    let p := par c 0 8 3
    let x := s.part p
    let what := par c 0 0 8
    let give (bs : List Byte) : Answer := .next (gives s c (c.arg 2).toNat (par c 3 0 32) bs)
    let e := Tab.get Bell.idle x.bells (par c 1 0 6)
    let flag (b : Bool) (n : Nat) : Nat := if b then 2 ^ n else 0
    Takes s f k formQuery c →
    (what = 1 → x.state ≠ .none → exec (.queryPartition f k) s = give (wordsOf
      [x.state.code + x.lastEnd % 256 * 2 ^ 8 + flag x.keep 16 + flag x.pace 17 + flag (s.recessWork p) 18,
        x.bx % 8 + x.by_ % 8 * 2 ^ 4 + x.bw % 8 * 2 ^ 8 + x.bh % 8 * 2 ^ 12 + x.func % 16 * 2 ^ 16 + x.count % 4096 * 2 ^ 32,
        x.ports % 65536 + x.slots.length % 512 * 2 ^ 16, x.heldBell % 64 + x.heldEpoch.toNat * 2 ^ 32, x.jobs % 2 ^ 64, x.swaps % 2 ^ 64,
        x.preempts % 2 ^ 64, x.tests % 2 ^ 64])) ∧
    (∀ d, what = 2 → x.state ≠ .none → e.desc = some d →
      let who := (List.range x.count).filter (fun r => d.mask.testBit r) ++
        ((List.range 16).filter (fun q => d.remote && d.children.testBit q)).map (fun q => 65536 + q)
      exec (.queryBellLateness f k) s = give (who.flatMap (fun w => (Tab.get (List.replicate 16 0) e.hist w).flatMap (leBytes 4)))) ∧
    (what = 2 → x.state ≠ .none → e.desc = none → exec (.queryBellLateness f k) s = .next (s.finish c 2 [] 24)) ∧
    (what = 3 → x.state ≠ .none →
      exec (.queryPartitionCounts f k) s = give (wordsOf [x.discarded, x.unknownFlow, x.recessHolds, x.log.next, 0, 0, 0, 0])) ∧
    (x.state = .none → (what = 1 → exec (.queryPartition f k) s = .next (s.finish c 2 [] 17)) ∧
      (what = 2 → exec (.queryBellLateness f k) s = .next (s.finish c 2 [] 17)) ∧ (what = 3 → exec (.queryPartitionCounts f k) s = .next (s.finish c 2 [] 17)))

/-- R429, R466, R475: POWER_QUERY gives the caps requested and in force, the last 10 µs' power, and the energy. -/
def Sys2Proof.Claims.powerQueried : Prop :=
  ∀ (s : State) (f : FnIx) (k : SlotIx) (c : Cmd),
    let w := s.power
    Takes s f k formPower c →
    exec (.powerQuery f k) s = .next (okWith s c
      [BitVec.ofNat 64 (w.host % 65536 + w.mgmt % 65536 * 2 ^ 16 + w.inForce % 65536 * 2 ^ 32), BitVec.ofNat 64 (w.mw % 2 ^ 32), BitVec.ofNat 64 (w.energy / 100)])

namespace Sys2Proof.Claims

/-- R493, R503: records given from number `first` on: as many as fit, with their count and the number after the last; NOSPACE where there is a
record and none fits. -/
def recordsGiven (s : State) (c : Cmd) (size first : Nat) (bs : List (List Byte)) : State :=
  let room := (c.arg 3).toNat / size
  if room = 0 ∧ bs ≠ [] then s.finish c 5 [0, BitVec.ofNat 64 size] 0
  else okWith { s with host := Mem.writeN s.host (c.arg 2).toNat (bs.take room).flatten } c
    [BitVec.ofNat 64 (bs.take room).length, BitVec.ofNat 64 (first + (bs.take room).length)]

/-- Table 16.2: a log record: number, time, KIND with tile and partition, and five words of fields. -/
def logRecord (r : LogRec) : List Byte :=
  let h (k : Nat) : Nat := r.halves.getD k 0 % 2 ^ 32
  wordsOf ([r.num, r.time, r.kind % 256 + r.ltile % 4096 * 2 ^ 16 + r.part % 8 * 2 ^ 32] ++ (List.range 5).map (fun k => h (2 * k) + h (2 * k + 1) * 2 ^ 32))

end Sys2Proof.Claims

/-- R493, R494: LOG_READ of a partition's fault log, and LOG_READ_MODULE of the module's, from a record number on or from the oldest there is.
R503: GRADEBOOK_READ gives the records of a class from a unit on. -/
def Sys2Proof.Claims.recordsRead : Prop :=
  ∀ (s : State) (f : FnIx) (k : SlotIx) (c : Cmd),
    let given (g : Log) : Answer :=
      let old := match g.recs with | r :: _ => r.num | [] => g.next
      let from_ := Nat.max old (c.arg 1).toNat
      .next (recordsGiven s c 64 from_ ((g.recs.drop (from_ - old)).map logRecord))
    let p := par c 0 0 3
    (Takes s f k formLog c → (c.arg 0).getLsbD 8 = false →
      ((s.part p).state ≠ .none → exec (.logRead f k) s = given (s.part p).log) ∧
      ((s.part p).state = .none → exec (.logRead f k) s = .next (s.finish c 2 [] 16))) ∧
    (Takes s f k { formLog with pfOnly := true } c → (c.arg 0).getLsbD 8 = true → exec (.logReadModule f k) s = given s.faults.modLog) ∧
    (Takes s f k formGrade c →
      let cls := par c 0 0 4
      let u := (c.arg 1).toNat
      let size := [0, 3136, 50176, 256, 64, 12, 4, 8, s.faults.powerFails].getD cls 0
      let n := Nat.min (size - u) ((c.arg 3).toNat / 256 + 1)
      exec (.gradebookRead f k) s = .next (recordsGiven s c 256 u ((List.range n).map (fun i => (s.grade cls (u + i)).bytes cls (u + i) s.life))))

/-- R405, R427: DMA_HOST moves bytes between host memory and a partition's memory, here within one 64-byte unit, with the regulator's tokens and the
partition's counts; a refused partition ends it DENIED, a poisoned unit INTEGRITY, a page that is not mapped FAULT; one without tokens waits and goes on
later. -/
def Sys2Proof.Claims.hostMemoryMoved : Prop :=
  ∀ (s : State) (f : FnIx) (k : SlotIx) (c : Cmd) (pa key : Nat),
    let p := par c 0 0 3
    let x := s.part p
    let h := (c.arg 1).toNat
    let dva := par c 2 0 48
    let n := par c 3 0 40
    let out := (c.arg 0).getLsbD 8
    let bs := (List.range n).map (fun i => Mem.read s.host (h + i))
    Takes s f k formDma c → x.state ≠ .none → c.moved = 0 → (∀ d ∈ s.cmds, ¬ (d.func = f.val ∧ d.slot = k.val ∧ d.opcode = 0x30 ∧ d.taken = true)) →
    (out = false → x.refused = false → cached x dva true pa key → soundAt s pa → affords x 64 → 0 < n → n ≤ 64 - dva % 64 → pa % 64 = dva % 64 →
      Tab.rising s.hbm.cells = true → Tab.rising s.hbm.keys = true →
      ∃ m, hbmWrote s.hbm m key pa bs ∧
        exec (.dmaHostToDva f k) s = .next (okWith { s.setPart p (spent x 64 0 n) with hbm := m } c [BitVec.ofNat 64 n])) ∧
    (out = true → x.refused = false → cached x dva false pa key → soundAt s pa → affords x 64 → 0 < n → n ≤ 64 - dva % 64 → pa % 64 = dva % 64 →
      let s1 : State := { s.setPart p (spent x 64 n 0) with host := Mem.writeN s.host h (hbmBytes s.hbm key pa n) }
      exec (.dmaHostFromDva f k) s = .next (okWith s1 c [BitVec.ofNat 64 n])) ∧
    (out = true → x.refused = false → cached x dva false pa key → soundAt s pa → ¬ affords x 64 → 0 < n →
      exec (.dmaHostFromDva f k) s = .next (s.setCmd c { c with taken := true, moved := 0 })) ∧
    (x.refused = true → (out = false → exec (.dmaHostToDva f k) s = .next (s.finish c 4 [] 0)) ∧
      (out = true → exec (.dmaHostFromDva f k) s = .next (s.finish c 4 [] 0)))

/-- R368, R372, R426, R506: LINK_CTRL on a port not in TEST widens it over its usable lanes, retrains it, or retires a lane, and answers with the
port's status; LINK_TEST puts a port that no running job uses in TEST, and its end enters the lanes' errors, gives 32 bytes a lane to the host and trains
the port. -/
def Sys2Proof.Claims.linkCommands : Prop :=
  (∀ (s : State) (f : FnIx) (k : SlotIx) (c : Cmd),
    let q := par c 0 0 4
    let x := s.port q
    let act := par c 0 8 4
    let done (s : State) : Answer := .next (okWith s c [(s.port q).stat])
    Takes s f k formLink c →
    (x.state = .test → (act = 1 → exec (.linkWiden f k) s = .next (s.finish c 3 [] 0)) ∧ (act = 2 → exec (.linkRetrain f k) s = .next (s.finish c 3 [] 0)) ∧
      (act = 3 → exec (.linkRetireLane f k) s = .next (s.finish c 3 [] 0))) ∧
    (x.state ≠ .test →
      (act = 1 → (∀ j < 4, ¬ (x.retired.testBit j = true ∧ (s.grade 4 (4 * q + j)).state = 3)) →
        let w := if x.usable.length = 3 ∧ x.vmaj < 4 then 2 else x.usable.length
        exec (.linkWiden f k) s = done (if x.state = .active ∧ x.width < w then s.setPort q { inState x .retrain s.now with toWidth := w } else s)) ∧
      (act = 2 → exec (.linkRetrain f k) s =
        done (if x.state = .active then s.setPort q { inState x .retrain s.now with toWidth := x.width } else s)) ∧
      (act = 3 → exec (.linkRetireLane f k) s = done (s.loseLane q (par c 0 16 2) 3)))) ∧
  (∀ (s : State) (f : FnIx) (k : SlotIx) (c : Cmd) (rs : List LaneReport),
    let q := par c 0 0 4
    let x := s.port q
    let used : Prop := x.state = .test ∨ ∃ p, x.owner = some p ∧ ((s.part p).state = .running ∨ (s.part p).state = .preempting)
    Takes s f k formLinkTest c → (∀ j < 16, ∀ t, (s.port j).test = some t → ¬ (t.func = f.val ∧ t.slot = k.val)) →
    (used → exec (.linkTest f k rs) s = .next (s.finish c 3 [] 0)) ∧
    (¬ used → exec (.linkTest f k rs) s = .next ((s.setPort q { inState x .test s.now with
      before := x.state, test := some ⟨f, k, par c 0 8 4, par c 0 16 3, s.now, par c 0 32 32⟩ }).setCmd c { c with taken := true }))) ∧
  (∀ (s : State) (f : FnIx) (k : SlotIx) (q : PortIx) (t : LinkTest) (rs : List LaneReport) (c : Cmd),
    let x := s.port q
    let r (j : Nat) : LaneReport := rs.getD j ⟨0, 0, 0, false, 0⟩
    let s1 : State := { s with now := Nat.max s.now (t.began + 1000000 * t.ms) }
    let judged (s : State) (j : Nat) : State :=
      let g := s.grade 4 (4 * q + j)
      let s2 := s.setGrade 4 (4 * q + j) { g with corrected := g.corrected + (r j).bits }
      if (r j).locked = true ∧ (r j).rate ≤ 1000000000 then s2.releaseUnit 4 (4 * q + j) else s2
    let s2 := ((List.range 4).filter (fun j => t.lanes.testBit j)).foldl judged s1
    let s3 := s2.setPort q { inState (s2.port q) .train s2.now with test := none }
    let lane (j : Nat) : List Byte := if t.lanes.testBit j then
        wordsOf [(r j).bits, (r j).symbols, (r j).ns, (if (r j).locked then 1 else 0) + (r j).rate % 2 ^ 56 * 256] else List.replicate 32 0
    x.test = some t → t.func = f.val → t.slot = k.val → (∀ j < q.val, ∀ u, (s.port j).test = some u → ¬ (u.func = f.val ∧ u.slot = k.val)) →
    s.cmds.find? (fun c => c.func == f.val && c.slot == k.val && c.opcode == 0x81 && c.taken) = some c →
    exec (.linkTest f k rs) s = .next (okWith { s3 with host := Mem.writeN s3.host (c.arg 1).toNat ((List.range 4).flatMap lane) } c [128]))

namespace Sys2Proof.Claims

/-- R439, R271: the logical tiles whose own sites a rectangle of blocks covers. -/
def within (bx by_ bw bh : Nat) (l : Nat) : Bool :=
  let x := ownSite l % 56
  let y := ownSite l / 56
  decide (8 * bx ≤ x) && decide (x < 8 * (bx + bw)) && decide (8 * by_ ≤ y) && decide (y < 8 * (by_ + bh))

/-- A logical tile's site on its own duty is in service. -/
abbrev fit (s : State) (x : Nat) : Prop := (s.grade 1 x).state ∉ [1, 2, 4]

/-- The tiles of a partition, each changed in turn. -/
def onTiles (s : State) (p : Nat) (f : Nat → Tile → Tile) : State := (s.part p).tiles.foldl (fun s l => s.setTile l (f l (s.tile l))) s

/-- R333, R334: new keys for a partition in place of its working key, its retain key, or both; without its retain key its translation is off. -/
def rekeyed (s : State) (p : Nat) (work retain : Bool) : State :=
  let n := s.sec.keys
  let x := s.part p
  let x1 : Part := if work then { x with keyWork := n + 1 } else x
  let n1 := if work then n + 1 else n
  let x2 : Part := if retain then { x1 with keyRet := n1 + 1, mm := { x1.mm with valid := .of false, tlb := [] } } else x1
  { s.setPart p x2 with sec := { s.sec with keys := if retain then n1 + 1 else n1 } }

/-- R102 to R104: a tile wiped and read back: what remains of it is which of its banks have failed, its corrected words not yet entered in the
gradebook, and the model's count of open reads. -/
def wipedWhole (t : Tile) : Tile :=
  { Tile.wiped with pad := { Pad.reset with
    failedBanks := t.pad.failedBanks.eraseDups, corrWords := t.pad.corrWords, draws := t.pad.draws } }

end Sys2Proof.Claims

/-- R334, Table 10.9: keys are replaced by new ones that no partition had, and without its retain key a partition's translation is off. -/
def Sys2Proof.Claims.keysReplaced : Prop :=
  ∀ (s : State) (p : PartIx) (work retain : Bool), s.rekey p work retain = rekeyed s p work retain

/-- R102 to R104, R440, R448: the wipe of a partition clears every tile of it; a bank whose read-back fails enters its site's failed banks and the
gradebook as permanent-faulty. -/
def Sys2Proof.Claims.partitionWiped : Prop :=
  (∀ (s : State) (p : PartIx), s.wipePart p [] = onTiles s p (fun _ t => wipedWhole t)) ∧
  (∀ (s : State) (p : PartIx) (l x b : Nat), (s.part p).tiles = [l] → (s.seat l).site = x →
    let s1 := s.setTile l { wipedWhole (s.tile l) with pad := { (wipedWhole (s.tile l)).pad with
      failedBanks := ((s.tile l).pad.failedBanks.eraseDups ++ [b]).eraseDups } }
    s.wipePart p [(x, b)] = (State.condemn { s1 with tiles := Tab.put (Tab.put s.tiles x (wipedWhole (s.tile l))) x (s1.tile l) } 2 (16 * x + b)))

/-- R273, R440: PART_CREATE seats the tiles of the rectangle in order: each where it sits while that site is in service, on its own site again when
that was released, else on a substitute; with none free the command fails. -/
def Sys2Proof.Claims.tilesSeated : Prop :=
  ∀ (s : State) (p l : Nat) (ls : List Nat),
    let here := (s.seat l).site
    let home := ownSite l
    let on (x : Nat) : Option State := (s.setSeat l ⟨x, p, true, false⟩).seatAll p ls
    (s.seatAll p [] = some s) ∧
    (here ≠ home → (s.grade 1 home).state = 3 → s.seatAll p (l :: ls) = on home) ∧
    (¬ (here ≠ home ∧ (s.grade 1 home).state = 3) → fit s here → s.seatAll p (l :: ls) = on here) ∧
    (∀ y, ¬ (here ≠ home ∧ (s.grade 1 home).state = 3) → ¬ fit s here → s.substitute (some p) l = some y → s.seatAll p (l :: ls) = on y) ∧
    (¬ (here ≠ home ∧ (s.grade 1 home).state = 3) → ¬ fit s here → s.substitute (some p) l = none → s.seatAll p (l :: ls) = none)

/-- R439, R440, R536, R521: PART_CREATE: DENIED in life-cycle states that take no job; BADARG for a bad slot list; BUSY for an index or function in use
and for a unit not yet ready; NOSPACE for a unit that failed, is owned, or is out of service, or a locker without room; else the partition is EMPTY with
its units, its tiles seated and wiped, new keys and a zeroed locker slot, and the reply carries the tile count. -/
def Sys2Proof.Claims.partitionsCreated : Prop :=
  ∀ (s : State) (f : FnIx) (k : SlotIx) (c : Cmd),
    let bx := par c 0 0 3
    let by_ := par c 0 4 3
    let bw := par c 0 8 3
    let bh := par c 0 12 3
    let p := par c 0 16 3
    let ports := par c 1 0 16
    let lk := par c 2 0 16 * 2 ^ 26
    let n := par c 3 0 9
    let h := (c.arg 4).toNat
    let lo (i : Nat) : Nat := (Mem.read s.host (h + 2 * i)).toNat
    let hi (i : Nat) : Nat := (Mem.read s.host (h + 2 * i + 1)).toNat
    let pcs := (List.range n).map (fun i => 32 * (lo i % 8) + hi i % 32)
    let blocks := (List.range bh).flatMap (fun j => (List.range bw).map (fun i => 7 * (by_ + j) + bx + i))
    let owned := (List.range 16).filter (fun q => ports.testBit q)
    let x : Part := { Part.reset with
      state := .empty, bx := bx, by_ := by_, bw := bw, bh := bh, func := par c 0 20 4, ports := ports,
      slots := pcs.map (fun u => ⟨u / 32, u % 32, .active⟩), lkBase := p * 2 ^ 37, lkSize := lk,
      count := ((List.range 3072).filter (within bx by_ bw bh)).length }
    let there (q : Nat) : Prop := q < 8 ∧ (s.part q).state ≠ .none
    let wait (ready failed : Bool) : Prop := ready = false ∧ failed = false
    let forbidden : Prop := s.sec.otp.state ∈ [0, 4]
    let badList : Prop := (∃ i < n, 8 ≤ lo i ∨ 32 ≤ hi i) ∨ ¬ pcs.Nodup
    let busy : Prop := there p ∨ (∃ q, there q ∧ (s.part q).func = x.func) ∨
      (∃ b ∈ blocks, wait (s.up.blocks.getLsbD b) (s.up.failBlocks.getLsbD b)) ∨
      (∃ u ∈ pcs, wait (s.up.ready.getLsbD (5 + u / 32)) (s.up.failed.getLsbD (5 + u / 32))) ∨
      (∃ q ∈ owned, wait (s.up.ready.getLsbD (13 + q)) (s.up.failed.getLsbD (13 + q))) ∨ (lk ≠ 0 ∧ wait (s.up.ready.getLsbD 29) (s.up.failed.getLsbD 29))
    let full : Prop := (∃ q, there q ∧ ∃ l < 3072, within bx by_ bw bh l = true ∧ within (s.part q).bx (s.part q).by_ (s.part q).bw (s.part q).bh l = true) ∨
      (∃ b ∈ blocks, s.up.failBlocks.getLsbD b = true) ∨
      (∃ u ∈ pcs, u ∈ s.hbm.retired ∨ (s.pcOwner u).isSome = true ∨ s.up.failed.getLsbD (5 + u / 32) = true) ∨
      (∃ q ∈ owned, (s.port q).owner.isSome = true ∨ s.up.failed.getLsbD (13 + q) = true) ∨ (lk ≠ 0 ∧ s.up.failed.getLsbD 29 = true) ∨
      112 * 2 ^ 30 < lk + (((List.range 8).filter (fun q => decide ((s.part q).state ≠ .none))).map (fun q => (s.part q).lkSize)).sum
    let end_ (st : Nat) : Answer := .next (s.finish c st [] 0)
    Takes s f k formCreate c →
    (forbidden → exec (.partCreate f k) s = end_ 4) ∧
    (¬ forbidden → badList → exec (.partCreate f k) s = .next (s.finish c 2 [] 48)) ∧
    (¬ forbidden → ¬ badList → busy → exec (.partCreate f k) s = end_ 3) ∧
    (¬ forbidden → ¬ badList → ¬ busy → (full ∨ s.seatAll p x.tiles = none) → exec (.partCreate f k) s = end_ 5) ∧
    (∀ s1, ¬ forbidden → ¬ badList → ¬ busy → ¬ full → s.seatAll p x.tiles = some s1 →
      let s2 := rekeyed (onTiles (s1.setPart p x) p (fun _ t => wipedWhole t)) p true true
      let y : Part := { s2.part p with lkKey := (s2.part p).keyRet }
      let s3 := owned.foldl (fun s q => s.setPort q { s.port q with owner := some p }) (s2.setPart p y)
      let s4 : State := { s3 with locker := { s3.locker with
        cells := Tab.clear s3.locker.cells (p * 2 ^ 37) lk
        keys := Tab.clear s3.locker.keys (p * 2 ^ 31) (lk / 64)
        poison := s3.locker.poison.filter (fun u => decide (u < p * 2 ^ 31 ∨ p * 2 ^ 31 + lk / 64 ≤ u)) } }
      exec (.partCreate f k) s = .next (okWith s4 c [BitVec.ofNat 64 x.count]))

/-- R443: the checks of a job image in their order: MAGIC, VERSION, DIGEST, and then everything else. -/
def Sys2Proof.Claims.imageChecks : Prop :=
  ∀ (img : List Byte) (len count : Nat),
    let magic := leVal (img.take 4)
    let version := leVal ((img.drop 4).take 1)
    (magic ≠ 0x4D495847 → readImage img len count = .error 2) ∧
    (magic = 0x4D495847 → version ≠ 1 → readImage img len count = .error 9) ∧
    (magic = 0x4D495847 → version = 1 → (img.drop 32).take 48 ≠ Config.sha384 (img.drop 128) → readImage img len count = .error 11) ∧
    (magic = 0x4D495847 → version = 1 → (img.drop 32).take 48 = Config.sha384 (img.drop 128) →
      (leVal ((img.drop 8).take 2) % 4096 ≠ count ∨ leVal ((img.drop 80).take 5) ≠ len ∨ len % 64 ≠ 0) → readImage img len count = .error 2)

/-- R90, R444: a tile after LOAD_IMAGE: the image's handles and scale records; a single section's bytes where the rotation of their blocks puts them, its
words full where it says so, and zero bytes elsewhere. -/
def Sys2Proof.Claims.tileLoaded : Prop :=
  ∀ (t : Tile) (img : List Byte) (x : TileImage),
    let u := t.loaded img x
    (u.pad.h = x.handles ∧ u.sr.recs = x.recs ∧ u.sr.opened = x.recs ∧ u.core = Core.reset ∧ u.pad.failedBanks = t.pad.failedBanks) ∧
    (∀ y, x.secs = [y] → y.loc % 64 = 0 → y.len % 8 = 0 → y.off + y.len ≤ img.length → y.loc + y.len ≤ 1048576 →
      (∀ i < y.len, Mem.read u.pad.mem (placeOf (skewAt x.handles.toList (y.loc + i)) (y.loc + i)) = img.getD (y.off + i) 0) ∧
      (∀ a < 1048576, (∀ i < y.len, placeOf (skewAt x.handles.toList (y.loc + i)) (y.loc + i) ≠ a) → Mem.read u.pad.mem a = 0) ∧
      (∀ w < 131072, u.pad.isFull w = true ↔ y.full = true ∧ ∃ i < y.len, wordOf (placeOf (skewAt x.handles.toList (y.loc + i)) (y.loc + i)) = w))

/-- R443, R444, Table 14.2: LOAD_IMAGE: BADARG with no partition, BUSY unless EMPTY, FAULT while its memory is refused, the read's own end when the image
cannot be read, the checks' status when one fails, else every tile is loaded, the tree table stands, and the partition is LOADED. -/
def Sys2Proof.Claims.imagesLoaded : Prop :=
  ∀ (s : State) (f : FnIx) (k : SlotIx) (c : Cmd),
    let p := par c 0 0 3
    let x := s.part p
    let len := (c.arg 2).toNat
    let read := s.dvaRead p (len + 1) (par c 1 0 48) len []
    Takes s f k (formLoad 0x20) c →
    (x.state = .none → exec (.loadImage f k) s = .next (s.finish c 2 [] 16)) ∧
    (x.state ∉ [.none, .empty] → exec (.loadImage f k) s = .next (s.finish c 3 [] 0)) ∧
    (x.state = .empty → x.refused = true → exec (.loadImage f k) s = .next (s.finish c 6 [] 0)) ∧
    (x.state = .empty → x.refused = false → read.2 = .poisoned → exec (.loadImage f k) s = .next (read.1.finish c 11 [] 0)) ∧
    (∀ r, x.state = .empty → x.refused = false → read.2 = .fault r ∨ read.2 = .dead → exec (.loadImage f k) s = .next (read.1.finish c 6 [] 0)) ∧
    (∀ img, x.state = .empty → x.refused = false → read.2 = .done img →
      exec (.loadImage f k) s = (match readImage img len x.count with
        | .error st => .next (read.1.finish c st [] (if st = 2 then 24 else 0))
        | .ok im =>
          let s2 := onTiles read.1 p (fun l t => match im.tiles[x.relOf l]? with | some ti => t.loaded img ti | none => t)
          let rows := im.trees.foldl (fun (m : Tab TreeNode) r =>
            Tab.put m (4096 * r.tree + r.node) ⟨r.bf16, if r.parent = 0xFFF then none else some r.parent, r.kids, [], r.kids.map (fun _ => [])⟩) []
          let s3 := s2.setPart p { s2.part p with state := .loaded, imaged := true, trees := rows }
          .next (okWith { s3 with sec := { s3.sec with imageDigest := s3.sec.imageDigest.set! p ((img.drop 32).take 48) } } c [])))

/-- R238, R239, Table 14.2: BIND_TIMETABLE likewise on a LOADED partition: sections go to offset 0 of their tiles' h1, and the bells and flows take the
timetable's descriptors, in place of any bound before. -/
def Sys2Proof.Claims.timetablesBound : Prop :=
  ∀ (s : State) (f : FnIx) (k : SlotIx) (c : Cmd),
    let p := par c 0 0 3
    let x := s.part p
    let len := (c.arg 2).toNat
    let read := s.dvaRead p (len + 1) (par c 1 0 48) len []
    Takes s f k (formLoad 0x21) c →
    (x.state ∈ [.none, .empty] → exec (.bindTimetable f k) s = .next (s.finish c 2 [] 16)) ∧
    (x.state ∉ [.none, .empty, .loaded] → exec (.bindTimetable f k) s = .next (s.finish c 3 [] 0)) ∧
    (x.state = .loaded → x.refused = true → exec (.bindTimetable f k) s = .next (s.finish c 6 [] 0)) ∧
    (x.state = .loaded → x.refused = false → read.2 = .poisoned → exec (.bindTimetable f k) s = .next (read.1.finish c 11 [] 0)) ∧
    (∀ r, x.state = .loaded → x.refused = false → read.2 = .fault r ∨ read.2 = .dead → exec (.bindTimetable f k) s = .next (read.1.finish c 6 [] 0)) ∧
    (∀ img st, x.state = .loaded → x.refused = false → read.2 = .done img →
      readTimetable img len x.count x.ports (fun r => handleOf (read.1.tile (x.logical r)) 1) = .error st →
      exec (.bindTimetable f k) s = .next (read.1.finish c st [] (if st = 2 then 24 else 0))) ∧
    (∀ img tt, x.state = .loaded → x.refused = false → read.2 = .done img →
      readTimetable img len x.count x.ports (fun r => handleOf (read.1.tile (x.logical r)) 1) = .ok tt →
      let secs := (tt.secs.mapIdx (fun r e => (r, e))).filter (fun e => decide (e.2.len ≠ 0))
      let copied (s : State) (e : Nat × TileSec) : State :=
        let l := x.logical e.1
        let t := s.tile l
        let bytes := (List.range e.2.len).map (fun i => (hPlace (handleOf t 1) i, img.getD (e.2.off + i) 0))
        s.setTile l { t with pad := { t.pad with mem := bytes.foldl (fun m b => Mem.write m b.1 b.2) t.pad.mem } }
      let s2 := secs.foldl copied read.1
      let s3 := s2.setPart p { s2.part p with
        timetable := some (secs.map (fun e => (e.1, e.2.start)))
        bells := tt.bells.foldl (fun (m : Tab Bell) b => Tab.put m b.1 { Bell.idle with desc := some b.2 }) []
        flows := tt.flows.foldl (fun (m : Tab Flow) g => Tab.put m g.flow ⟨g.home, g.hold, 0, []⟩) [] }
      exec (.bindTimetable f k) s = .next (okWith { s3 with sec := { s3.sec with tableDigest := s3.sec.tableDigest.set! p (Config.sha384 img) } } c []))

/-- R37, R239, R445, Table 14.2: JOB_START needs a bound timetable on a LOADED partition, and then starts every tile at program counter 0 with the
command's values: scratchpad bytes, handles and scale records stay, every other register is at its reset value, and walkers start where the tile has a section. -/
def Sys2Proof.Claims.jobsStart : Prop :=
  ∀ (s : State) (f : FnIx) (k : SlotIx) (c : Cmd),
    let p := par c 0 0 3
    let x := s.part p
    Takes s f k formStart c →
    (x.state = .none ∨ x.state = .empty ∨ (x.state = .loaded ∧ x.timetable = none) → exec (.jobStart f k) s = .next (s.finish c 2 [] 16)) ∧
    (x.state ∉ [.none, .empty, .loaded] → exec (.jobStart f k) s = .next (s.finish c 3 [] 0)) ∧
    (∀ starts, x.state = .loaded → x.timetable = some starts →
      let y : Part := { x with
        state := .running, keep := (c.arg 0).getLsbD 8, pace := (c.arg 0).getLsbD 9, jobs := x.jobs + 1, step := (c.arg 1).toNat,
        modIndex := par c 3 16 12, modCount := par c 3 32 13, tol := par c 3 0 10,
        bells := x.bells.map (fun b => (b.1, { Bell.idle with desc := b.2.desc })), onWay := [], rels := [], rel63 := [], threshold := none, veto := false,
        repeats := 0, failPosted := false }
      let began (l : Nat) (t : Tile) : Tile :=
        let r := y.relOf l
        let bell (i : Fin 64) : TileBell := match (y.bell i).desc with
          | some d => { TileBell.reset with exists_ := true, member := d.mask.testBit r, recess := d.recess }
          | none => TileBell.reset
        let q := t.pad
        let w : Bl := { Bl.reset with
          step := c.arg 1, modIndex := BitVec.ofNat 12 y.modIndex, modCount := BitVec.ofNat 13 y.modCount, tol := BitVec.ofNat 10 y.tol, bells := Vector.ofFn bell }
        let u : Tile := { Tile.wiped with
          core := { Core.reset with
            run := .running, idReg := BitVec.ofNat 64 (l % 4096 + r % 4096 * 2 ^ 16),
            partReg := BitVec.ofNat 64 (8 * y.bw % 256 + 8 * y.bh % 256 * 2 ^ 8 + p * 2 ^ 16) }
          pad := { q with badent := false, refused := false, last := 0, overwrite := false, closed := false, closedH := 0, under := 0, corrected := 0,
                          conflicts := 0, ctr := Vector.replicate 16 0 }
          mx := { Mx.reset with seed := c.arg 2 }
          sr := { Scale.reset with recs := t.sr.recs, opened := t.sr.recs }
          bl := w }
        match Tab.find? starts r with
        | some at_ => Tile.walkerGo { u with bl := { w with pos := BitVec.ofNat 20 at_ } }
        | none => u
      exec (.jobStart f k) s = .next (okWith (onTiles (s.setPart p y) p began) c []))

namespace Sys2Proof.Claims

/-- R441, R448: a partition without its job, image and timetable. -/
def jobless (x : Part) : Part :=
  { x with bells := [], onWay := [], rels := [], rel63 := [], flows := [], trees := [], timetable := none, imaged := false, threshold := none,
           veto := false, repeats := 0, failPosted := false, actions := 0, asked := none, swapped := [], saved := none, ending := none, refused := false }

/-- R448: a partition wiped: EMPTY, without its job, its image and timetable forgotten. -/
def vacated (s : State) (p : Nat) : State :=
  let s1 := onTiles s p (fun _ t => wipedWhole t)
  let s2 := s1.setPart p { jobless (s1.part p) with state := .empty }
  { s2 with sec := { s2.sec with imageDigest := s2.sec.imageDigest.set! p [], tableDigest := s2.sec.tableDigest.set! p [] } }

/-- R446, R484: the end of a job told: LASTEND, JOB_END with the status, the step and the cause, and no throttle notice left of it. -/
def endTold (s : State) (p st cause : Nat) : State :=
  let x := s.part p
  let s1 := (s.setPart p { x with lastEnd := st }).partEvent p 0x6004 [.h st, .d x.step, .h cause]
  { s1 with power := { s1.power with notices := s1.power.notices.filter (fun n => decide (n.part ≠ p)) } }

/-- R13, R344: the registers of a partition that its reset returns to their reset values. -/
def regsBack (x : Part) : Part :=
  { x with dbgAddr := 0, dbgDenied := false, heldBell := 0, heldEpoch := 0, proctor := { x.proctor with n := .of 256, pendingN := none }
           mm := { x.mm with stray := false, aperr := false, timedout := false, invalBusy := false } }

/-- R339, R441: a partition taken away: RETIRING slots retired, keys destroyed, seats, ports and locker slot free. -/
def gone (s : State) (p : Nat) : State :=
  let x := s.part p
  let dying (s : State) (k : Nat) : State :=
    match (s.part p).slots[k]? with
    | some y => if y.state = .retiring ∨ y.state = .released then slotGone s p k (32 * y.stack + y.pc) else s
    | none => s
  let s1 := rekeyed ((List.range x.slots.length).foldl dying s) p true true
  let s2 := x.tiles.foldl (fun s l => s.setSeat l ⟨(s.seat l).site, 0, false, false⟩) s1
  let s3 := ((List.range 16).filter (fun q => x.ports.testBit q)).foldl (fun s q => s.setPort q { s.port q with owner := none }) s2
  { s3 with
    parts := (s3.setPart p { Part.reset with log := x.log }).parts
    locker := { s3.locker with
      cells := Tab.clear s3.locker.cells x.lkBase x.lkSize, keys := Tab.clear s3.locker.keys (x.lkBase / 64) (x.lkSize / 64)
      poison := s3.locker.poison.filter (fun u => decide (u < x.lkBase / 64 ∨ (x.lkBase + x.lkSize) / 64 ≤ u)) } }

/-- Table 14.2: a kill, a reset or a destroy acts on a partition that runs no job. -/
def killedIdle (s : State) (p : Nat) (c : Cmd) : State :=
  let x := s.part p
  let told (st cause : Nat) (s : State) : State := if x.state = .preempted then endTold s p st cause else s
  if c.opcode = 0x23 then
    (if x.state = .loaded then okWith (vacated s p) c []
     else if x.state = .preempted then okWith (rekeyed (endTold (vacated s p) p 10 0) p true true) c []
     else okWith s c [])
  else if x.state = .none then s.finish c 2 [] 16
  else if c.opcode = 0x12 then
    let s1 := rekeyed (told 6 3 (vacated s p)) p true (decide (x.state = .held))
    okWith (s1.setPart p (regsBack (s1.part p))) c []
  else okWith (gone (told 6 4 (vacated s p)) p) c []

/-- R417: the partition's other commands that are outstanding end ABORTED, and the recess work asked for is forgotten. -/
def othersAborted (s : State) (p : Nat) (c : Cmd) : State :=
  let s1 := (s.cmds.filter (fun d => decide (d.part = some p ∧ ¬ (d.func = c.func ∧ d.slot = c.slot ∧ d.at_ = c.at_ ∧ d.seq = c.seq)))).foldl
    (fun s d => s.finish d 10 [] 0) s
  s1.setPart p { s1.part p with actions := 0, asked := none }

/-- R60, R327, R446, R448, R498: a job ends: waits of its tiles are over, faulted streams are gone, its samples are void, and its partition is ENDING;
for an end other than OK its memory is refused. -/
def endsNow (s : State) (p : Nat) (e : EndCause) : State :=
  let ended (t : Tile) : Tile := { t with
    core := { t.core with wait := none }
    xc := { t.xc with streams := t.xc.streams.map (fun y => if y.fault = none then y else { y with queue := [], fault := none }) } }
  let s1 := (onTiles s p (fun _ t => ended t)).voidSamples (fun k => decide (k.part = p))
  let x := s1.part p
  s1.setPart p { x with state := .ending, ending := some e, refused := if e = .ok then x.refused else true }

end Sys2Proof.Claims

/-- R446 to R448: what a job's end does at once, here of its kinds. -/
def Sys2Proof.Claims.jobsEnd : Prop :=
  ∀ (s : State) (p : PartIx) (e : EndCause),
    ((s.part p).state = .running ∨ (s.part p).state = .preempting → s.jobEnd p e = endsNow s p e) ∧
    ((s.part p).state ∉ [.running, .preempting] → s.jobEnd p e = s)

/-- R498: samples that are void end without record: their spare sites are wiped, and each counts as voided. -/
def Sys2Proof.Claims.samplesVoided : Prop :=
  (∀ (s : State) (void : Sample → Bool), (∀ y ∈ s.faults.samples, void y = false) → s.voidSamples void = s) ∧
  (∀ (s : State) (void : Sample → Bool) (pre post : List Sample) (x : Sample), s.faults.samples = pre ++ x :: post → void x = true →
    (∀ y ∈ pre ++ post, void y = false) → x.shadow ≠ x.judge →
    let s1 := ({ s with faults := { s.faults with samples := pre ++ post } }.setSiteTile x.shadow (s.siteTile x.shadow).wipe).setSiteTile x.judge
      (s.siteTile x.judge).wipe
    let y := s.part x.part
    Tab.rising s.tiles = true →
    s.voidSamples void = s1.setPart x.part { y with proctor := { y.proctor with voided := Nat.min (y.proctor.voided + 1) (2 ^ 32 - 1) } })

/-- R417, R441, R447, R448, R456, R508, Table 14.2: JOB_KILL, PART_RESET and PART_DESTROY abort the partition's other commands; a running job ends and
the reply waits for the end's work, as it does while the partition is ENDING already; on another partition they act at once. PART_RESET and PART_DESTROY
of no partition are BADARG, and end FAULT when the two cores disagree. -/
def Sys2Proof.Claims.killsTaken : Prop :=
  ∀ (s : State) (f : FnIx) (k : SlotIx) (c : Cmd),
    let p := par c 0 0 3
    let st := (s.part p).state
    let s1 := othersAborted s p c
    let go (e : EndCause) : Answer :=
      if st = .running ∨ st = .preempting then .next ((endsNow s1 p e).setCmd c { c with taken := true })
      else if st = .ending then .next (s1.setCmd c { c with taken := true })
      else .next (killedIdle s1 p c)
    let differ (v : Nat) : Answer := .next (State.finish ((s.modLog 9 0xFFF 0 [.h 3, .d p, .d v]).modEvent 0x600B [.h 3, .d p, .d v]) c 6 [] 0)
    (Takes s f k formKill c → exec (.jobKill f k) s = go .killed) ∧
    (∀ second, Takes s f k formReset c → st = .none → exec (.partReset f k second) s = .next (s.finish c 2 [] 16)) ∧
    (Takes s f k formReset c → st ≠ .none → exec (.partReset f k none) s = go .reset) ∧
    (∀ v, Takes s f k formReset c → st ≠ .none → exec (.partReset f k (some v)) s = differ v) ∧
    (∀ second, Takes s f k formDestroy c → st = .none → exec (.partDestroy f k second) s = .next (s.finish c 2 [] 16)) ∧
    (Takes s f k formDestroy c → st ≠ .none → exec (.partDestroy f k none) s = go .destroyed) ∧
    (∀ v, Takes s f k formDestroy c → st ≠ .none → exec (.partDestroy f k (some v)) s = differ v)

namespace Sys2Proof.Claims

/-- R448, R279: what a port holds for its owner is gone: contexts received give their slots' credits back, and only TIME and capability cells stay. -/
def portDrained (x : Port) : Port :=
  let back (cls : Nat) : Nat := ((x.rxCtx.filter (fun e => decide (e.2.2 = cls))).map (fun e => e.2.1)).sum
  { x with rxCtx := [], ctx1 := [], ctx3 := []
           returns := Vector.ofFn (fun i => x.returns[i] + back i.val)
           cells := x.cells.filter (fun c => match c with | .timeReq _ _ => true | .timeRep _ _ _ => true | .cap _ => true | _ => false) }

/-- R279, R302, R448: a partition's packets, chalkboard writes and port queues drained, and the peers of its tiles on other modules told. -/
def drained (s : State) (p : Nat) : State :=
  let x := s.part p
  let timed (k : Packet) : Bool := match k.body with | .ctl (.timeReq _ _) => true | .ctl (.timeRep _ _ _) => true | _ => false
  let s1 : State := { s with net := s.net.filter (fun k => decide (k.part ≠ p) || timed k) }
  let b := s1.board
  let s2 : State := { s1 with board := { b with
    reqs := b.reqs.filter (fun r => decide (r.part ≠ p)), flight := b.flight.filter (fun r => decide (r.part ≠ p)) } }
  let s3 := ((List.range 16).filter (fun q => x.ports.testBit q)).foldl (fun s q => s.setPort q (portDrained (s.port q))) s2
  let told (l : Nat) (s : State) (k : Nat) : State :=
    let e := (s.tile l).xc.ep.toList.getD k Endpoint.reset
    if e.remote = true ∧ (e.state = .isOpen ∨ e.state = .opening) then
      cellAt s e.port.toNat (.closeNotice ⟨e.peerep.toNat, k, e.peertile.toNat, x.relOf l⟩)
    else s
  x.tiles.foldl (fun s l => (List.range 16).foldl (told l) s) s3

/-- R450: a tile held for debug: its endpoints have closed, and everything else stands. -/
def closedTile (t : Tile) : Tile :=
  { t with xc := { t.xc with ep := t.xc.ep.map (fun e =>
      if e.state = .idle then e else { e with state := .closed, credits := 0, asm := none, held := none }) } }

end Sys2Proof.Claims

/-- R446 to R450, R453, Table 10.9, Table 14.4: PARTITION_END: the partition is drained and its peers are told; a job kept for debug is HELD, any other
partition is wiped and EMPTY; the keys of the end's row are replaced; a class D end or a reset returns the registers; LASTEND and JOB_END tell the end;
a PREEMPT or RECESS that stood ends BADARG, or ABORTED for class D, where DMA_HOST ends DENIED; and the kills that waited act on what is left. -/
def Sys2Proof.Claims.partitionsEnd : Prop :=
  ∀ (s : State) (p : PartIx) (e : EndCause),
    let x := s.part p
    x.state = .ending → x.ending = some e →
    let kept : Prop := x.keep = true ∧ e ∈ [.ok, .halt, .killed]
    let row : Bool × Bool × Nat × Nat := match e with
      | .ok => (false, false, 0, 0)
      | .halt => (true, false, 6, 1)
      | .classD => (true, false, 6, 2)
      | .killed => (decide (¬ kept), decide (¬ kept), 10, 0)
      | .reset => (true, false, 6, 3)
      | .destroyed => (true, true, 6, 4)
    let s1 := drained s p
    let s2 := if kept then
        let s3 := onTiles s1 p (fun _ t => closedTile t)
        s3.setPart p { jobless (s3.part p) with state := .held }
      else vacated s1 p
    let s3 := rekeyed s2 p row.1 row.2.1
    let s4 := endTold (if e = .classD ∨ e = .reset then s3.setPart p (regsBack (s3.part p)) else s3) p row.2.2.1 row.2.2.2
    let stranded (s : State) (d : Cmd) : State :=
      if d.opcode ∈ [0x24, 0x26] then s.finish d (if e = .classD then 10 else 2) [] (if e = .classD then 0 else 16)
      else if d.opcode = 0x30 ∧ e = .classD then s.finish d 4 [] 0 else s
    let mine (s : State) : List Cmd := s.cmds.filter (fun d => decide (d.part = some p.val ∧ d.taken = true))
    let s5 := (mine s4).foldl stranded s4
    exec (.partitionEnd p []) s = .next (((mine s5).filter (fun d => decide (d.opcode ∈ [0x11, 0x12, 0x23]))).foldl (fun s d => killedIdle s p d) s5)

/-- R452, R455: where a pre-empting partition may be saved: at the first recess bell whose release is held for it, or whose participants have all arrived
at a node that does not decide it. -/
def Sys2Proof.Claims.preemptsAt : Prop :=
  ∀ (s : State) (p : PartIx) (pre post : List (Nat × Bell)) (b : Nat) (e : Bell) (d : BellDesc),
    let x := s.part p
    let stands (b : Nat × Bell) : Prop := ∃ d, b.2.desc = some d ∧ d.recess = true ∧ ((∃ r t, b.2.held = some (r, .preempt, t)) ∨ (b.2.held = none ∧ ¬ decider d ∧ allArrived b.2 d x.count))
    x.bells = pre ++ (b, e) :: post → Tab.rising x.bells = true → e.desc = some d → d.recess = true → (∀ y ∈ pre, ¬ stands y) →
    (∀ r t, e.held = some (r, .preempt, t) → s.preemptAt p = some (b, r.epoch)) ∧
    (e.held = none → ¬ decider d → allArrived e d x.count → s.preemptAt p = some (b, e.epoch)) ∧
    (¬ stands (b, e) → (∀ y ∈ post, ¬ stands y) → s.preemptAt p = none)

/-- R452 to R456, R484: PREEMPT makes a running partition with a recess bell PREEMPTING, and waits; once it stands at a recess bell with empty queues and
streams idle or FAULTED, every tile is saved and wiped, the partition is PREEMPTED and the reply carries the epoch; RESUME puts the tiles back on the
sites of the moment, starts timers again and gives out the release held for it, and one whose saved state is lost ends FAULT. -/
def Sys2Proof.Claims.preemption : Prop :=
  (∀ (s : State) (f : FnIx) (k : SlotIx) (c : Cmd),
    let p := par c 0 0 3
    let x := s.part p
    let stops : Prop := ∃ b ∈ x.bells, ∃ d, b.2.desc = some d ∧ d.recess = true
    Takes s f k formPreempt c →
    (x.state = .running → stops → exec (.preempt f k) s = .next ((s.setPart p { x with state := .preempting }).setCmd c { c with taken := true })) ∧
    (x.state ≠ .running ∨ ¬ stops → exec (.preempt f k) s = .next (s.finish c 2 [] 16))) ∧
  (∀ (s : State) (p : PartIx) (b : Nat) (n : BitVec 32),
    let x := s.part p
    let still (t : Tile) : Prop := (∀ g ∈ [Eng.mx, .vx, .xc], (queueOf t g).waiting = [] ∧ (queueOf t g).started = []) ∧
      ∀ k < 4, (t.stream k).queue = [] ∨ (t.stream k).fault ≠ none
    let s1 := onTiles (s.voidSamples (fun k => decide (k.part = p))) p (fun _ t => wipedWhole t)
    let y := s1.part p
    let s2 := s1.setPart p { y with
      state := .preempted, heldBell := b, heldEpoch := n, preempts := y.preempts + 1
      saved := some ⟨x.tiles.foldl (fun m l => Tab.put m (x.relOf l) (s.tile l)) [], false⟩
      bells := y.bells.map (fun e => (e.1, if e.2.arr = [] then e.2 else { e.2 with mute := true })) }
    let s3 : State := { s2 with power := { s2.power with notices := s2.power.notices.filter (fun m => decide (m.part ≠ p.val)) } }
    x.state = .preempting →
    (s.preemptAt p = some (b, n) → (∀ l ∈ x.tiles, still (s.tile l)) →
      (∀ pre c post, s3.cmds = pre ++ c :: post → c.part = some p.val → c.opcode = 0x24 → c.taken = true →
        (∀ d ∈ pre, ¬ (d.part = some p.val ∧ d.opcode = 0x24 ∧ d.taken = true)) → exec (.preemptSave p) s = .next (okWith s3 c [BitVec.ofNat 64 n.toNat])) ∧
      ((∀ d ∈ s3.cmds, ¬ (d.part = some p.val ∧ d.opcode = 0x24 ∧ d.taken = true)) → exec (.preemptSave p) s = .next s3)) ∧
    (s.preemptAt p = none ∨ (∃ l ∈ x.tiles, ¬ still (s.tile l)) → exec (.preemptSave p) s = .next s)) ∧
  (∀ (s : State) (f : FnIx) (k : SlotIx) (c : Cmd),
    let p := par c 0 0 3
    let x := s.part p
    let e := x.bell x.heldBell
    Takes s f k formResume c →
    (x.state ≠ .preempted → exec (.resume f k) s = .next (s.finish c 2 [] 16)) ∧
    (∀ v, x.state = .preempted → x.saved = some v → v.lost = true →
      exec (.resume f k) s = .next ((s.setPart p { x with state := .ending, ending := some .classD, refused := true, saved := none }).finish c 6 [] 0)) ∧
    (∀ v, x.state = .preempted → x.saved = some v → v.lost = false →
      let back (l : Nat) (t : Tile) : Tile :=
        match Tab.find? v.tiles (x.relOf l) with
        | some u => { u with
            pad := { u.pad with failedBanks := t.pad.failedBanks }
            xc := { u.xc with
              ep := u.xc.ep.map (fun y => { y with asm := y.asm.map (fun a => { a with since := s.now }) })
              streams := u.xc.streams.map (fun y => if y.fault = none then y else { y with fault := some s.now }) } }
        | none => t
      let s1 := onTiles s p back
      let s2 := s1.setPart p { s1.part p with
        state := .running, saved := none, bells := x.bells.map (fun b => (b.1, if b.2.timer = none then b.2 else { b.2 with timer := some s.now })) }
      (∀ r t d, e.held = some (r, .preempt, t) → e.desc = some d → r.bell = x.heldBell →
        let y := s2.part p
        exec (.resume f k) s =
          .next (okWith (deliveredTo (s2.setPart p (withBell y x.heldBell { y.bell x.heldBell with held := none })) p d r) c [])) ∧
      ((∀ r t, e.held ≠ some (r, .preempt, t)) → exec (.resume f k) s = .next (okWith s2 c []))))

/-- R274, R457: a tile's state moved to another site by SUBSTITUTE_SWAP: its packets find it there, the old site is wiped and stays failed where its banks
were, samples on either site are void, and the partition counts the move. -/
def Sys2Proof.Claims.tilesMove : Prop :=
  ∀ (s : State) (p : PartIx) (l y : Nat),
    let x := (s.seat l).site
    x ≠ y → (∀ k ∈ s.faults.samples, k.shadow ≠ y ∧ k.judge ≠ y ∧ k.orig ≠ x) → Tab.rising s.tiles = true →
    let t := s.siteTile x
    let z := s.part p
    let s1 : State := { s with
      tiles := Tab.put (Tab.put s.tiles y { t with pad := { t.pad with failedBanks := (s.siteTile y).pad.failedBanks, ecc := [], wb := [] } }) x t.wipe }
    s.moveTile p l y = (s1.setSeat l ⟨y, p, true, false⟩).setPart p { z with swaps := z.swaps + 1, swapped := z.swapped ++ [dieOf x] }

/-- R273, R274, R457 to R459: RECESS asks for work at the next hold, and waits; SUBSTITUTE_SWAP within a hold, at most 16 a die, moves a tile whose site is
permanent-faulty to a substitute and retires the site, or posts SUB_EXHAUSTED; moves a tile whose test is due to a substitute, and its site is tested; and
moves a tile back to a site that passed. -/
def Sys2Proof.Claims.recessWork : Prop :=
  (∀ (s : State) (f : FnIx) (k : SlotIx) (c : Cmd),
    let p := par c 0 0 3
    let x := s.part p
    Takes s f k formRecess c →
    (x.state = .running →
      exec (.recess f k) s = .next ((s.setPart p { x with actions := par c 0 8 4, asked := some (f.val, k.val) }).setCmd c { c with taken := true })) ∧
    (x.state ≠ .running → exec (.recess f k) s = .next (s.finish c 2 [] 16))) ∧
  (∀ (s : State) (l : LTile) (p : PartIx) (y : Nat),
    let x := (s.seat l).site
    let z := s.part p
    let held : Prop := ∃ b ∈ z.bells, ∃ r t, b.2.held = some (r, .work, t)
    let room : Prop := (z.swapped.filter (fun d => decide (d = dieOf x))).length < 16
    let now (s : State) (ts : List UnitTest) : State := { s with faults := { s.faults with tests := ts } }
    (s.seat l).valid = true → (s.seat l).part = p →
    (¬ held ∨ ¬ room → exec (.substituteSwap l) s = .next s) ∧
    (held → room → (s.grade 1 x).state = 1 → s.substitute (some p.val) l = some y →
      let s1 := s.moveTile p l y
      exec (.substituteSwap l) s = .next (outOfService s1 1 x (s1.subsLeft (dieOf x)))) ∧
    (held → room → (s.grade 1 x).state = 1 → s.substitute (some p.val) l = none →
      exec (.substituteSwap l) s = .next (s.modEvent 0x6005 [.h (dieOf x), .h l])) ∧
    (∀ t pre post, held → room → (s.grade 1 x).state ≠ 1 → s.faults.tests = pre ++ t :: post →
      (t.kind = 1 ∧ t.unit = l.val ∧ t.running = false) → (∀ e ∈ pre ++ post, ¬ (e.kind = 1 ∧ e.unit = l.val)) →
      (t.passed = true → exec (.substituteSwap l) s = .next (now (s.moveTile p l t.site) (pre ++ post))) ∧
      (t.passed = false → s.substitute (some p.val) l = some y →
        let s1 := now (s.moveTile p l y) (pre ++ { t with running := true, site := x } :: post)
        exec (.substituteSwap l) s = .next (s1.setPart p { s1.part p with tests := (s1.part p).tests + 1 })) ∧
      (t.passed = false → s.substitute (some p.val) l = none → exec (.substituteSwap l) s = .next s)) ∧
    (held → room → (s.grade 1 x).state ≠ 1 → (∀ t ∈ s.faults.tests, ¬ (t.kind = 1 ∧ t.unit = l.val ∧ t.running = false)) →
      exec (.substituteSwap l) s = .next s))

/-- R458 to R460, R506: a tile's test falls due 720 h after its last, and starts at once where no job or hold uses the tile; 168 h later one that waits is
told; the end of a test is told with its result, and then a failed site goes out of service, a site that passed is released or waits for its tile to move
back, and a pseudo-channel is released or retired; TEST_SCHEDULE replaces a test that waits, and is BUSY for an owned channel, or at once for a unit in use. -/
def Sys2Proof.Claims.testsRun : Prop :=
  (∀ (s : State) (l : LTile),
    let due := Tab.get 0 s.faults.tested l + 2592000000000000
    let used : Prop := (s.seat l).valid = true ∧ (s.part (s.seat l).part).state ∈ [.running, .preempting, .ending, .held]
    ((∃ t ∈ s.faults.tests, t.kind = 1 ∧ t.unit = l.val) → exec (.tileTestDue l) s = .next s) ∧
    ((∀ t ∈ s.faults.tests, ¬ (t.kind = 1 ∧ t.unit = l.val)) → exec (.tileTestDue l) s = .next { s with
      now := Nat.max s.now due
      faults := { s.faults with tests := s.faults.tests ++ [⟨1, l, due, decide (¬ used), (s.seat l).site, false, false⟩] } })) ∧
  (∀ (s : State) (l : LTile) (pre post : List UnitTest) (t : UnitTest),
    let s1 : State := { s with now := Nat.max s.now (t.due + 604800000000000) }
    s.faults.tests = pre ++ t :: post → t.kind = 1 ∧ t.unit = l.val → t.running = false ∧ t.passed = false ∧ t.overdue = false → (∀ e ∈ pre ++ post, ¬ (e.kind = 1 ∧ e.unit = l.val)) →
    exec (.testOverdue l) s = .next (State.modEvent { s1 with faults := { s.faults with tests := pre ++ { t with overdue := true } :: post } } 0x7001
      [.h l, .h ((s1.now - t.due) / 3600000000000)])) ∧
  (∀ (s : State) (kind unit : Nat) (failed : Bool) (pre post : List UnitTest) (t : UnitTest),
    let s1 := s.modEvent 0x7002 [.h kind, .h unit, .h (if failed then 1 else 0)]
    let out : State := { s1 with faults := { s1.faults with tests := pre ++ post } }
    let done : State := { out with faults := { out.faults with tested := Tab.put s.faults.tested unit s.now } }
    s.faults.tests = pre ++ t :: post → t.kind = kind ∧ t.unit = unit → t.running = true → (∀ e ∈ pre ++ post, ¬ (e.kind = kind ∧ e.unit = unit)) →
    (kind = 1 → failed = true → exec (.testDone kind unit failed) s = .next (done.failSite t.site)) ∧
    (kind = 1 → failed = false → (s.seat unit).site = t.site → exec (.testDone kind unit failed) s = .next (done.releaseSite t.site)) ∧
    (kind = 1 → failed = false → (s.seat unit).site ≠ t.site → exec (.testDone kind unit failed) s =
      .next { done with faults := { done.faults with tests := pre ++ post ++ [{ t with running := false, passed := true }] } }) ∧
    (kind = 2 → exec (.testDone kind unit failed) s = .next (if failed then out.failSite unit else out.releaseSite unit)) ∧
    (kind = 3 → failed = false → exec (.testDone kind unit failed) s = .next (out.releasePc unit)) ∧
    (kind = 3 → failed = true → exec (.testDone kind unit failed) s = .next (if unit ∈ s.hbm.retired then out else out.retirePc unit))) ∧
  (∀ (s : State) (f : FnIx) (k : SlotIx) (c : Cmd),
    let kind := par c 0 0 4
    let unit := par c 0 16 12
    let now : Prop := par c 0 32 2 = 1
    let owned : Prop := kind = 3 ∧ ∃ p j x, s.pcOwner unit = some (p, j) ∧ (s.part p).slots[j]? = some x ∧ x.state ≠ .released
    let used : Prop := (kind = 1 ∧ (s.seat unit).valid = true ∧ (s.part (s.seat unit).part).state ∈ [.running, .preempting, .ending, .held]) ∨
      (kind = 2 ∧ ((∃ l, s.seatedAt unit = some l ∧ (s.seat l).valid = true) ∨ ∃ y ∈ s.faults.samples, y.shadow = unit ∨ y.judge = unit))
    let t : UnitTest := ⟨kind, unit, s.now, decide (now ∨ ¬ used), if kind = 1 then (s.seat unit).site else unit, false, false⟩
    Takes s f k formTest c →
    (owned ∨ (now ∧ used) → exec (.testSchedule f k) s = .next (s.finish c 3 [] 0)) ∧
    let ts := s.faults.tests.filter (fun e => decide (¬ (e.kind = kind ∧ e.unit = unit ∧ e.running = false))) ++ [t]
    (¬ owned → ¬ (now ∧ used) → exec (.testSchedule f k) s = .next (okWith { s with faults := { s.faults with tests := ts } } c [])))

/-- R451, R490, R492, R501: the debug window of a HELD partition answers its own function with the word, the full bit, the control register or the two
accumulator elements that PT_DBGADDR selects; any other read, and a word in error, answers all ones and sets DENIED, and the error is recorded. PT_APPLY puts
PT_PROC.N forward for the next release. -/
def Sys2Proof.Claims.debugWindow : Prop :=
  (∀ (s : State) (f : FnIx) (p : PartIx),
    let x := s.part p
    let a := x.dbgAddr.toNat
    let rel := a / 2 ^ 32 % 4096
    let l := x.logical rel
    let t := s.tile l
    let off := a % 2 ^ 20
    let space := a / 2 ^ 48 % 4
    let w := wordOf (placeOf (skewAt t.pad.h.toList off) (off / 8 * 8))
    let answer (s : State) (v : Nat) : Answer := .next (s.setFn f { s.fn f with answer := some (leBytes 8 v) })
    let denied (s : State) : Answer := answer (s.setPart p { s.part p with dbgDenied := true }) (2 ^ 64 - 1)
    let may : Prop := x.state = .held ∧ x.func = f.val ∧ rel < x.count ∧ t.pad.wiping = false
    let row := off % 64
    let j := 2 * (off / 64 % 16)
    (¬ may → exec (.debugRead f p) s = denied s) ∧
    (may → space = 0 → (∀ e ∈ t.pad.ecc, e.1 ≠ w) →
      exec (.debugRead f p) s = answer (s.setTile l t) (leVal ((List.range 8).map (fun i => Mem.read t.pad.mem (8 * w + i))))) ∧
    (∀ m, may → space = 0 → Tab.rising t.pad.ecc = true → Tab.find? t.pad.ecc w = some m → eccWeight m = 2 →
      exec (.debugRead f p) s = denied ((s.setTile l t).recordD p 2 (16 * (s.seat l).site + w / 8192) (w % 8192))) ∧
    (may → space = 1 → exec (.debugRead f p) s = answer (s.setTile l t) (if t.pad.isFull w then 1 else 0)) ∧
    (may → space = 2 → exec (.debugRead f p) s = answer (s.setTile l t) (if csrKnown (off % 4096) then (t.csrRead (s.env p l) (off % 4096)).toNat else 0)) ∧
    (may → space = 3 → Tab.get 0 t.mx.accErr (32 * row + j) ≠ 2 → Tab.get 0 t.mx.accErr (32 * row + j + 1) ≠ 2 →
      let el (i : Nat) : Nat := (((t.mx.acc.toList.getD row (Vector.replicate 32 0)).toList.getD i 0).toNat)
      exec (.debugRead f p) s = answer (s.setTile l t) (el j + el (j + 1) * 2 ^ 32)) ∧
    (may → space = 3 → Tab.get 0 t.mx.accErr (32 * row + j) = 2 ∨ Tab.get 0 t.mx.accErr (32 * row + j + 1) = 2 →
      exec (.debugRead f p) s = denied ((s.setTile l t).recordD p 1 (s.seat l).site 0))) ∧
  (∀ (s : State) (p : PartIx), let x := s.part p
    exec (.ptApply p) s = .next (s.setPart p { x with proctor := { x.proctor with pendingN := some x.proctor.n.shadow } }))

namespace Sys2Proof.Claims

/-- Time has come to `t`, unless it is later already. -/
def timeAt (s : State) (t : Nat) : State := { s with now := Nat.max s.now t }

/-- How far a reading lies outside 44–58 V, in mV. -/
def outside44to58 (mv : Nat) : Nat := (44000 - mv) + (mv - 58000)

/-- R482: the largest cap or thermal fraction. -/
def slowest (w : Power) : Nat := Nat.max w.capK (Nat.max (Nat.max w.dies[0].k w.dies[1].k) (Nat.max w.dies[2].k w.dies[3].k))

/-- R482: the cause of throttling: 1 cap, 2 thermal, 3 both. -/
def causeOf (w : Power) : Nat := (if w.capK = 0 then 0 else 1) + (if ∀ i : Fin 4, w.dies[i].k = 0 then 0 else 2)

/-- R482: since when a cap or thermal fraction has been nonzero, and since when a rate other than the one last posted has stood. -/
def watched (w : Power) (now : Nat) : Power :=
  let r := 31 - slowest w
  { w with
    slowSince := if slowest w = 0 then none else match w.slowSince with | some t => some t | none => some now
    newRate := if w.throttled = false ∨ r = w.rate then none else match w.newRate with
      | some (q, t) => some (if q = r then (q, t) else (r, now))
      | none => some (r, now) }

/-- A state with its power control replaced. -/
def withPower (s : State) (w : Power) : State := { s with power := w }

end Sys2Proof.Claims

/-- R463, R464: an input reading each µs: a reading outside 44–58 V begins or goes on with a dip or surge, and one below 40 V or above 60 V, or the 100th µs
outside, makes a class F event; the first reading back inside ends it, posting PW_INPUT_DIP with the extreme and the µs, unless a class F event has begun. -/
def Sys2Proof.Claims.inputWatched : Prop :=
  ∀ (s : State) (mv : Nat),
    let w := s.power
    let s1 := timeAt s (s.now + 1000)
    let now := s1.now
    (outside44to58 mv = 0 → w.dip = none → exec (.inputSample mv) s = .next (withPower s1 { w with mv := mv })) ∧
    (∀ t far, outside44to58 mv = 0 → w.dip = some (t, far) → w.failing = none →
      exec (.inputSample mv) s = .next ((withPower s1 { w with mv := mv, dip := none, dips := w.dips + 1 }).modEvent 0x3008 [.h far, .h ((now - t) / 1000)])) ∧
    (∀ d c, outside44to58 mv = 0 → w.dip = some d → w.failing = some c → exec (.inputSample mv) s = .next (withPower s1 { w with mv := mv, dip := none })) ∧
    (∀ t far, outside44to58 mv ≠ 0 → (t, far) = (match w.dip with
        | none => (now, mv)
        | some (t, far) => (t, if outside44to58 far < outside44to58 mv then mv else far)) →
      let fails : Option Nat := match w.failing with
        | some c => some c
        | none => if mv < 40000 ∨ 60000 < mv then some 1 else if t + 100000 < now then some 2 else none
      exec (.inputSample mv) s = .next (withPower s1 { w with mv := mv, dip := some (t, far), failing := fails }))

/-- R464, R502, R512: POWER_FAIL after a class F event: the record of cause, reading and time stands in the gradebook, which is in flash; fuses, firmware
store, certificates and what waits outside the module stay, and everything else is as after reset. -/
def Sys2Proof.Claims.powerFails : Prop :=
  (∀ (s : State), s.power.failing = none → exec .powerFail s = .next s) ∧
  (∀ (s : State) (cause : Nat), s.power.failing = some cause → ∃ t, exec .powerFail s = .next t ∧
    (t.host = s.host ∧ t.pending = s.pending ∧ t.sec.otp = s.sec.otp ∧ t.sec.store = s.sec.store ∧ t.sec.chunks = s.sec.chunks ∧ t.sec.certs = s.sec.certs ∧
      t.faults.lifeBase = s.life ∧ t.faults.powerFails = s.faults.powerFails + 1 ∧ t.faults.flash = t.faults.grade) ∧
    (t.now = 0 ∧ t.tiles = [] ∧ t.parts = State.reset.parts ∧ t.fns = State.reset.fns ∧ t.ports = State.reset.ports ∧ t.hbm = State.reset.hbm ∧ t.locker = State.reset.locker ∧
      t.power = Power.reset ∧ t.up = State.reset.up ∧ t.net = [] ∧ t.cmds = []) ∧
    (Tab.rising s.faults.grade = true → t.grade 8 s.faults.powerFails = { Grade.fresh with first := s.life, last := s.life, extra := [cause, s.power.mv, s.now] } ∧
      ∀ cls unit, gradeKey cls unit ≠ gradeKey 8 s.faults.powerFails → t.grade cls unit = { s.grade cls unit with tally := 0, tally2 := 0 }))

/-- R465, R535, R536, R539, Table 15.2: POWER_ON brings every rail up by 18 ms and samples TEST_EN; a rail that is not in regulation within 2 ms stops
the sequence, and the units behind it that are not ready are failed: of rails 1 (hub), 2 to 5 (dies), 6 (HBM), 7 (locker), 8 (SerDes). -/
def Sys2Proof.Claims.railsRise : Prop :=
  (∀ (s : State) (testEn : Bool),
    (s.up.rails = 0 → s.up.railFail = none →
      exec (.powerOn testEn) s = .next { timeAt s 18000000 with up := { s.up with rails := 9, testMode := testEn } }) ∧
    (¬ (s.up.rails = 0 ∧ s.up.railFail = none) → exec (.powerOn testEn) s = .next s)) ∧
  (∀ (s : State) (k : Fin 9),
    (¬ (s.up.rails = 0 ∧ s.up.railFail = none) → exec (.railTimeout k) s = .next s) ∧
    (s.up.rails = 0 → s.up.railFail = none → ∃ t, exec (.railTimeout k) s = .next t ∧
      (t.now = Nat.max s.now (s.now + 2000000) ∧ t.up.rails = k ∧ t.up.railFail = some k.val) ∧
      (∀ b < 30, t.up.failed.getLsbD b = (s.up.failed.getLsbD b || (!s.up.ready.getLsbD b &&
        ((b == 0 && decide (k.val ≤ 1)) || (decide (1 ≤ b) && decide (b ≤ 4) && decide (k.val ≤ 1 + b)) || (decide (5 ≤ b) && decide (b ≤ 12) && decide (k.val ≤ 6)) ||
          (decide (13 ≤ b) && decide (b ≤ 28)) || (b == 29 && decide (k.val ≤ 7)))))) ∧
      (∀ b < 49, t.up.failBlocks.getLsbD b = (s.up.failBlocks.getLsbD b || (!s.up.blocks.getLsbD b &&
        (List.range 4).any (fun d => decide (k.val ≤ 2 + d) && (if d % 2 = 0 then decide (b % 7 ≤ 3) else decide (3 ≤ b % 7)) &&
          (if d / 2 = 0 then decide (b / 7 ≤ 3) else decide (3 ≤ b / 7)))))) ∧
      t = { s.readinessIrq with now := t.now, up := { s.up with rails := k, railFail := some k.val, failed := t.up.failed, failBlocks := t.up.failBlocks } }))

/-- R470, R471: FAST_LOOP raises the cap fraction by 1/32 to 4/32 a µs, to 30/32 at most, while the estimate is above the cap less its guard band of 2 %,
or 7 % when unfit; it lowers it by 1/32 a µs only when the estimate and the last measurement both allow. MEASUREMENT_INTERVAL raises it by 1/32 when the
measured 10 µs exceed the cap, adds the energy, and times power that stands above the cap at 30/32; after 10 ms of that PW_CAP_UNMET is posted once. -/
def Sys2Proof.Claims.capLoops : Prop :=
  (∀ (s : State) (est aim : Nat),
    let w := s.power
    let s1 := timeAt s (s.now + 1000)
    let limit := w.inForce * 1000 - w.inForce * 1000 * (if w.fit then 2 else 7) / 100
    let up : Prop := limit < est
    let down : Prop := ¬ up ∧ w.mw ≤ 1000 * w.inForce ∧ aim < w.capK
    let k := if up then Nat.min 30 (if aim ≤ w.capK + 1 then w.capK + 1 else if w.capK + 4 ≤ aim then w.capK + 4 else aim) else if down then w.capK - 1 else w.capK
    exec (.fastLoop est aim) s = .next (withPower s1 (watched { w with capK := k } s1.now))) ∧
  (∀ (s : State) (mw : Nat),
    let w := s.power
    let s1 := timeAt s (s.now + 10000)
    let above : Prop := 1000 * w.inForce < mw
    let unmet : Prop := above ∧ w.capK = 30
    let since : Option Nat := if unmet then (match w.unmetSince with | some t => some t | none => some s1.now) else none
    let v : Power := { w with
      mw := mw, energy := w.energy + mw, etime := s1.now, capK := if above then Nat.min 30 (w.capK + 1) else w.capK
      unmetSince := since, unmetOut := if unmet then w.unmetOut else false }
    exec (.measurementInterval mw) s = .next (withPower s1 (watched v s1.now))) ∧
  (∀ (s : State),
    let w := s.power
    (∀ t, w.unmetSince = some t → w.unmetOut = false →
      exec .pwCapUnmet s = .next ((withPower (timeAt s (t + 10000000)) { w with unmetOut := true }).modEvent 0x3004 [.h w.inForce, .h w.mw])) ∧
    (w.unmetSince = none ∨ w.unmetOut = true → exec .pwCapUnmet s = .next s))

/-- R472: CALIBRATION_WINDOW records the estimate and its error per mille, and rescales the coefficients by M / E within 0.8 to 1.25, every window while fit
and every 100 ms while not; eight windows in a row beyond 15 % make the estimator unfit, eight within make it fit again, and each is told. -/
def Sys2Proof.Claims.estimatorJudged : Prop :=
  ∀ (s : State) (e m : Nat),
    let w := s.power
    let s1 := timeAt s (s.now + 1000000)
    let diff := if e ≤ m then m - e else e - m
    let err := if m = 0 then (if diff = 0 then 0 else 65535) else Nat.min 65535 (1000 * diff / m)
    let bad : Prop := 15 * m < 100 * diff
    let due : Prop := w.fit = true ∨ w.calAt + 100000000 ≤ s1.now
    let told (code : Nat) (s : State) : Answer := .next (s.modEvent code [.h e, .h m, .h err])
    let ratio : Nat × Nat := if 5 * m < 4 * e then (4, 5) else if 5 * e < 4 * m then (5, 4) else if e = 0 then (1, 1) else (m, e)
    let num := w.scaleNum * ratio.1
    let den := w.scaleDen * ratio.2
    let g := Nat.gcd num den
    let scaled : Nat × Nat := if due then (if g = 0 then (num, den) else (num / g, den / g)) else (w.scaleNum, w.scaleDen)
    let v : Power := { w with
      estMw := e, estErr := err, scaleNum := scaled.1, scaleDen := scaled.2, calAt := if due then s1.now else w.calAt
      badRun := if bad then w.badRun + 1 else 0, goodRun := if bad then 0 else w.goodRun + 1 }
    (w.fit = true → bad → 7 ≤ w.badRun →
      exec (.calibrationWindow e m) s = told 0x3002 (withPower s1 { v with fit := false, unfits := w.unfits + 1, goodRun := 0 })) ∧
    (w.fit = false → ¬ bad → 7 ≤ w.goodRun → exec (.calibrationWindow e m) s = told 0x3005 (withPower s1 { v with fit := true, badRun := 0 })) ∧
    ((w.fit = true → ¬ bad ∨ w.badRun < 7) → (w.fit = false → bad ∨ w.goodRun < 7) → exec (.calibrationWindow e m) s = .next (withPower s1 v))

/-- R24, R467, R508: the lower of the latest host cap and the latest management cap comes into force within 100 µs when the two cores agree; when they
do not, both values are logged and the request fails: POWER_CAP_SET with FAULT, PLDM_SET_POWER_CAP with the code for an error. A management cap outside 500–1,250 W is
invalid data. -/
def Sys2Proof.Claims.capsSet : Prop :=
  (∀ (s : State) (f : FnIx) (k : SlotIx) (c : Cmd),
    let w := s.power
    let watts := par c 0 0 16
    let v := Nat.min watts w.mgmt
    Takes s f k formCap c →
    exec (.powerCapSet f k none) s =
      .next (okWith (withPower (timeAt s (s.now + 100000)) { w with host := watts, inForce := v }) c [BitVec.ofNat 64 v]) ∧
    (∀ other, exec (.powerCapSet f k (some other)) s =
      .next (((s.modLog 9 0xFFF 0 [.h 1, .d v, .d other]).modEvent 0x600B [.h 1, .d v, .d other]).finish c 6 [] 0))) ∧
  (∀ (s : State) (watts : Nat),
    let w := s.power
    let v := Nat.min w.host watts
    let answer (s : State) (code : Nat) : Answer := .next { s with up := { s.up with pldm := ⟨code, []⟩ } }
    (∀ second, watts < 500 ∨ 1250 < watts → exec (.pldmSetPowerCap watts second) s = answer s 2) ∧
    (500 ≤ watts → watts ≤ 1250 →
      exec (.pldmSetPowerCap watts none) s = answer (withPower (timeAt s (s.now + 100000)) { w with mgmt := watts, inForce := v }) 0 ∧
      ∀ other, exec (.pldmSetPowerCap watts (some other)) s =
        answer ((s.modLog 9 0xFFF 0 [.h 1, .d v, .d other]).modEvent 0x600B [.h 1, .d v, .d other]) 1))

/-- R409, R436, R438: PLDM sensors: power, voltage, energy, junction and stack temperatures, coolant, readiness and failures; the FRU data with the identity
block's values; a request for partition data is an unsupported command. -/
def Sys2Proof.Claims.sideBand : Prop :=
  ∀ (s : State),
    let w := s.power
    let answer (code : Nat) (bs : List Byte) : Answer := .next { s with up := { s.up with pldm := ⟨code, bs⟩ } }
    let packed (xs : List Nat) : Nat := ((List.range xs.length).map (fun i => xs.getD i 0 % 256 * 2 ^ (8 * i))).sum
    (∀ n v, (n, v) ∈ [(0, w.mw), (1, w.mv), (2, w.energy / 100), (3, packed ((List.range 4).map (fun d => (s.die d).tj))),
        (4, packed (s.hbm.heat.toList.map (fun y => y.temp))), (5, w.coolIn % 256 + w.coolOut % 256 * 256), (6, s.up.ready.toNat), (7, s.up.failed.toNat)] →
      exec (.pldmGetSensorReading n) s = answer 0 (leBytes 8 v)) ∧
    (∀ n, 8 ≤ n → exec (.pldmGetSensorReading n) s = answer 2 []) ∧
    exec .pldmFruRead s = answer 0 ([0x47, 0x4E, 0x58, 0x34, 0x4D, 0x31, 0x32, 0x35] ++ leBytes 8 Config.serial.toNat ++ [Config.stepping] ++ leBytes 8 Config.mfgDate.toNat) ∧
    exec .pldmPartitionRequest s = answer 5 []

/-- R478, R479, R487: a trip raises an island's droop fraction to at least 16/32, one beyond 8 % withholds every pulse until the supply is back, and each
100 ns within 2 % lowers it by 4/32; an island that has tripped counts again only after it has recovered; a die's trips that reach THRESH within 1 ms post
PW_DROOP, at most once a second. PW_APPLY puts THRESH into force. -/
def Sys2Proof.Claims.droops : Prop :=
  (∀ (s : State) (x : SiteIx) (mv : Nat) (severe : Bool),
    let i := Tab.get Island.calm s.power.islands x
    let d := dieOf x
    let y := s.die d
    let i1 : Island := ⟨Nat.max i.k 16, true, if severe then true else i.severe⟩
    let w : Power := { s.power with islands := Tab.put s.power.islands x i1 }
    let old : Prop := s.now < y.winStart + 1000000
    let trips := if old then y.trips + 1 else 1
    let deep := if old then Nat.max y.deepest mv else mv
    let y1 : DieHeat := { y with trips := trips, deepest := deep, winStart := if old then y.winStart else s.now / 1000000 * 1000000 }
    let th := s.power.thresh.force
    let posts : Prop := th ≠ 0 ∧ th ≤ trips ∧ ∀ t, y.posted = some t → t + 1000000000 ≤ s.now
    let g := s.grade 6 d
    let done (y : DieHeat) : State := (withPower s { w with dies := w.dies.set! d y, droops := w.droops + 1 }).setGrade 6 d { g with tally := g.tally + 1 }
    d < 4 →
    (i.tripped = true → exec (.droopTrip x mv severe) s = .next (withPower s w)) ∧
    (i.tripped = false → ¬ posts → exec (.droopTrip x mv severe) s = .next (done y1)) ∧
    (i.tripped = false → posts → exec (.droopTrip x mv severe) s = .next ((done { y1 with posted := some s.now }).modEvent 0x3003 [.h d, .h trips, .h deep]))) ∧
  (∀ (s : State) (x : SiteIx),
    let i := Tab.get Island.calm s.power.islands x
    let with_ (s : State) (i : Island) : State :=
      withPower s { s.power with islands := if i = ⟨0, false, false⟩ then Tab.erase s.power.islands x else Tab.put s.power.islands x i }
    (i.severe = true ∨ i = ⟨0, false, false⟩ → exec (.droopRecovery x) s = .next s) ∧
    (i.severe = false → i ≠ ⟨0, false, false⟩ →
      exec (.droopRecovery x) s = .next (with_ (timeAt s (s.now + 100)) { i with k := i.k - 4, tripped := false })) ∧
    exec (.droopSupplyBack x) s = .next (with_ s { i with severe := false })) ∧
  (∀ (s : State), exec .pwApply s = .next (withPower s { s.power with thresh := ⟨s.power.thresh.shadow, s.power.thresh.shadow⟩ }))

/-- R480, R482, R487, Table 15.4: a die's reading each 100 µs: 1/32 less every 10 ms below 98 °C, 1/32 more every 1 ms from 100 °C, thermal hold from
104 °C until below 100 °C, when the die resumes at 30/32; a hold's start and end are told and its time is counted. -/
def Sys2Proof.Claims.heatAnswered : Prop :=
  ∀ (s : State) (d : DieIx) (tj : Nat),
    let w := s.power
    let s1 := timeAt s (s.now + 100000)
    let now := s1.now
    let y : DieHeat := { s.die d with tj := tj }
    let with_ (w : Power) (y : DieHeat) : State := withPower s1 (watched { w with dies := w.dies.set d y } now)
    let others : Prop := ∃ e : Fin 4, e ≠ d ∧ w.dies[e].hold ≠ none
    (∀ t, y.hold = some t → 100 ≤ tj → exec (.thermalRead d tj) s = .next (with_ w y)) ∧
    (∀ t, y.hold = some t → tj < 100 → exec (.thermalRead d tj) s =
      .next ((with_ (if others then w else { w with holdNs := w.holdNs + (now - w.holdAt) }) { y with hold := none, k := 30, moved := now }).modEvent
        0x3007 [.h d, .h 1, .h ((now - t) / 1000)])) ∧
    (y.hold = none → 104 ≤ tj → exec (.thermalRead d tj) s =
      .next ((with_ (if others then w else { w with holdAt := now }) { y with hold := some now, k := 30 }).modEvent 0x3007 [.h d, .h 0, .h 0])) ∧
    (y.hold = none → 100 ≤ tj → tj < 104 → exec (.thermalRead d tj) s =
      .next (with_ w (if y.moved + 1000000 ≤ now ∧ y.k < 30 then { y with k := y.k + 1, moved := now } else y))) ∧
    (y.hold = none → 98 ≤ tj → tj < 100 → exec (.thermalRead d tj) s = .next (with_ w y)) ∧
    (y.hold = none → tj < 98 → exec (.thermalRead d tj) s =
      .next (with_ w (if y.moved + 10000000 ≤ now ∧ 0 < y.k then { y with k := y.k - 1, moved := now } else y)))

namespace Sys2Proof.Claims

/-- R483: THROTTLE cells for every running job with a REMOTE descriptor for bell 63, on its bell-63 ports: the parent's unless the root, then the
children's. -/
def throttleSent (s : State) (rate : Nat) : State :=
  let ports (x : Part) : List Nat := match (x.bell 63).desc with
    | some d => if d.remote then (if d.root then [] else [d.parent]) ++ (List.range 16).filter (fun q => d.children.testBit q) else []
    | none => []
  let job (s : State) (p : Nat) : State :=
    let x := s.part p
    if x.state = .running ∨ x.state = .preempting then (ports x).foldl (fun s q => cellAt s q (.throttle x.modIndex rate 0)) s else s
  let s1 := (List.range 8).foldl job s
  withPower s1 { s1.power with cellAt := s1.now }

/-- R482, R489: PW_THROTTLE to the physical function and the functions of running jobs' partitions, and the cells. -/
def throttleTold (s : State) (rate cause : Nat) : State :=
  let hot := Nat.max (Nat.max (s.die 0).tj (s.die 1).tj) (Nat.max (s.die 2).tj (s.die 3).tj)
  let fs : List Fl := [.h rate, .h cause, .h s.power.inForce, .h hot]
  let one (s : State) (p : Nat) : State :=
    let x := s.part p
    if (x.state = .running ∨ x.state = .preempting) ∧ x.func ≠ 0 then s.postTo x.func 0x3001 (some p) fs else s
  let s1 := (List.range 8).foldl one (s.sendEvent 0 0x3001 none fs)
  throttleSent (withPower s1 { s1.power with rate := rate, cause := cause, newRate := none }) rate

end Sys2Proof.Claims

/-- R482 to R484: the module becomes throttled once a cap or thermal fraction has stood for 1 ms, posts again when a rate that differs by 2 or more has stood
for 1 ms, and once more when it stops; it repeats its cells every 100 ms; a notice not repeated for 300 ms is withdrawn. -/
def Sys2Proof.Claims.throttled : Prop :=
  (∀ (s : State),
    let w := s.power
    let far (r : Nat) : Prop := r + 2 ≤ w.rate ∨ w.rate + 2 ≤ r
    (∀ t, w.throttled = false → w.slowSince = some t →
      let s1 := timeAt s (t + 1000000)
      exec .pwThrottle s = .next (throttleTold (withPower s1 { w with throttled := true, throtAt := s1.now }) (31 - slowest w) (causeOf w))) ∧
    (w.throttled = false → w.slowSince = none → exec .pwThrottle s = .next s) ∧
    (w.throttled = true → slowest w = 0 →
      exec .pwThrottle s = .next (throttleTold (withPower s { w with throttled := false, throtNs := w.throtNs + (s.now - w.throtAt) }) 31 0)) ∧
    (∀ r t, w.throttled = true → slowest w ≠ 0 → w.newRate = some (r, t) → far r →
      exec .pwThrottle s = .next (throttleTold (timeAt s (t + 1000000)) r (causeOf w))) ∧
    (w.throttled = true → slowest w ≠ 0 → (∀ r t, w.newRate = some (r, t) → ¬ far r) → exec .pwThrottle s = .next s) ∧
    (w.throttled = true → exec .throttleRepeat s = .next (throttleSent (timeAt s (w.cellAt + 100000000)) w.rate)) ∧
    (w.throttled = false → exec .throttleRepeat s = .next s)) ∧
  (∀ (s : State) (p : PartIx) (origin : Nat),
    let w := s.power
    let mine (n : PaceNotice) : Prop := n.part = p ∧ n.origin = origin
    (∀ pre n post, w.notices = pre ++ n :: post → mine n → (∀ m ∈ pre ++ post, ¬ mine m) →
      exec (.throttleNoticeExpire p origin) s = .next (withPower (timeAt s (n.time + 300000000)) { w with notices := pre ++ post })) ∧
    ((∀ n ∈ w.notices, ¬ mine n) → exec (.throttleNoticeExpire p origin) s = .next s))

/-- R475, R478, R480, R485, Table 15.3: an island's fraction is the largest of the cap, its die's thermal fraction, the pace fraction of its partition when
that matches pace, and its droop fraction, at most 30/32; a severe droop or a thermal hold withholds every pulse; a wipe obeys droop alone. -/
def Sys2Proof.Claims.fractions : Prop :=
  ∀ (s : State) (x : SiteIx),
    let i := Tab.get Island.calm s.power.islands x
    let y := s.die (dieOf x)
    let wiping := (s.siteTile x).pad.wiping
    (i.severe = true → s.fraction x = 32) ∧
    (i.severe = false → wiping = true → s.fraction x = i.k) ∧
    (i.severe = false → wiping = false → y.hold ≠ none → s.fraction x = 32) ∧
    (i.severe = false → wiping = false → y.hold = none → s.seatedAt x = none → s.fraction x = Nat.min 30 (Nat.max s.power.capK (Nat.max y.k i.k))) ∧
    (∀ l, i.severe = false → wiping = false → y.hold = none → s.seatedAt x = some l → (s.seat l).valid = true →
      let p := (s.seat l).part
      let pace := if (s.part p).pace then 31 - (((s.power.notices.filter (fun n => decide (n.part = p))).map (fun n => n.rate)).foldl Nat.min 31) else 0
      s.fraction x = Nat.min 30 (Nat.max (Nat.max s.power.capK y.k) (Nat.max pace i.k)))

/-- R544: coolant that has read out of its range for 10 s, or back inside for 10 s, posts PW_COOLANT. -/
def Sys2Proof.Claims.coolantWatched : Prop :=
  ∀ (s : State) (cin cout : Nat),
    let bad : Prop := cin < 17 ∨ 45 < cin ∨ cin + 25 < cout
    let w : Power := { s.power with coolIn := cin, coolOut := cout }
    (bad ↔ s.power.hotCoolant = true) ∧ exec (.pwCoolant cin cout) s = .next (withPower s w) ∨
    (bad ∧ s.power.hotCoolant = false) ∧ exec (.pwCoolant cin cout) s =
      .next ((withPower (timeAt s (s.now + 10000000000)) { w with hotCoolant := true }).modEvent 0x3009 [.h cin, .h cout, .h 1]) ∨
    (¬ bad ∧ s.power.hotCoolant = true) ∧ exec (.pwCoolant cin cout) s =
      .next ((withPower (timeAt s (s.now + 10000000000)) { w with hotCoolant := false }).modEvent 0x3009 [.h cin, .h cout, .h 0])

namespace Sys2Proof.Claims

/-- `n` bytes of a list from an offset, and a field of its little-endian bytes. -/
def part (bs : List Byte) (off n : Nat) : List Byte := (bs.drop off).take n
def num (bs : List Byte) (off n : Nat) : Nat := leVal (part bs off n)

/-- Table 17.3: the chunk count, sequence number, security version, key slot and revoked slots of a manifest. -/
def chunksOf (raw : List Byte) : Nat := num raw 16 2 % 2 ^ 13
def seqOf (raw : List Byte) : Nat := num raw 8 4
def svnOf (raw : List Byte) : Nat := num raw 12 1
def slotOf (raw : List Byte) : Nat := num raw 13 1 % 4
def revokeOf (raw : List Byte) : Nat := num raw 14 1 % 16

/-- R514, R515: a well-formed manifest: its length, magic and format, its reserved bits zero, a security version of at most 128, 1 to 4,096 chunks of 1 to 16 MiB with a
role and digests that differ, one loader of at most 512 KiB, a chunk of each role 2 to 5, and its own key slot not revoked. -/
structure WellFormedManifest (raw : List Byte) : Prop where
  whole : raw.length = 256 + 64 * chunksOf raw + 5357
  magic : num raw 0 5 = 0x014E414D47
  reserved : num raw 5 3 = 0 ∧ num raw 13 1 < 4 ∧ num raw 14 1 < 16 ∧ num raw 15 1 = 0 ∧ num raw 16 8 < 2 ^ 13 ∧ ∀ b ∈ part raw 24 232, b = 0
  version : svnOf raw ≤ 128
  count : 1 ≤ chunksOf raw ∧ chunksOf raw ≤ 4096
  own : (revokeOf raw).testBit (slotOf raw) = false
  entries : ∀ k < chunksOf raw, let e := 256 + 64 * k
    1 ≤ num raw (e + 48) 4 ∧ num raw (e + 48) 4 ≤ 16777216 ∧ 1 ≤ num raw (e + 52) 1 ∧ num raw (e + 52) 1 ≤ 6 ∧ num raw (e + 53) 3 = 0 ∧ num raw (e + 56) 8 = 0
  loader : ∃ k < chunksOf raw, num raw (256 + 64 * k + 52) 1 = 1 ∧ num raw (256 + 64 * k + 48) 4 ≤ 524288 ∧
    ∀ j < chunksOf raw, num raw (256 + 64 * j + 52) 1 = 1 → j = k
  roles : ∀ r ∈ [2, 3, 4, 5], ∃ k < chunksOf raw, num raw (256 + 64 * k + 52) 1 = r
  apart : ∀ j < chunksOf raw, ∀ k < chunksOf raw, part raw (256 + 64 * j) 48 = part raw (256 + 64 * k) 48 → j = k

end Sys2Proof.Claims

/-- R513, R523, R533: the checks of a signed object in their order, by the cause of the first that fails: a revoked slot 4, an empty slot 1, a key that
does not match the slot's hash 2, the Ed25519 signature 3, the ML-DSA-65 signature 4. -/
def Sys2Proof.Claims.signatureChecks : Prop :=
  ∀ (o : Otp) (slot : Fin 4) (x : Seal) (dg : List Byte),
    let keys := o.slots[slot]
    let empty : Prop := ∀ b ∈ keys, b = 0
    (o.revoked.getLsbD slot = true → o.check slot x dg = some 4) ∧
    (o.revoked.getLsbD slot = false → empty → o.check slot x dg = some 1) ∧
    (o.revoked.getLsbD slot = false → ¬ empty → o.check slot x dg =
      if Config.sha384 x.edKey ≠ part keys 0 48 ∨ Config.sha384 x.pqKey ≠ part keys 48 48 then some 2
      else if Config.ed25519Verify x.edKey dg x.edSig = false then some 3
      else if Config.mldsaVerify x.pqKey dg [] x.pqSig = false then some 4 else none)

/-- R513 to R515, R522: a manifest passes when it is well formed, its signatures over bytes 0 to 256 + 64N + 1,983 verify under its slot, and its security
version is not below the fuses'; else the cause is told, malformed first and rollback last. -/
def Sys2Proof.Claims.manifestsChecked : Prop :=
  (∀ (raw : List Byte), (∃ m, readManifest raw = some m) ↔ WellFormedManifest raw) ∧
  (∀ (raw : List Byte) (m : Manifest), readManifest raw = some m →
    m.seq = seqOf raw ∧ m.svn = svnOf raw ∧ m.slot = slotOf raw ∧ m.revoke = revokeOf raw ∧ m.chunks.length = chunksOf raw ∧
      ∀ k < chunksOf raw, m.chunks.getD k ⟨[], 0, 0⟩ = ⟨part raw (256 + 64 * k) 48, num raw (256 + 64 * k + 48) 4, num raw (256 + 64 * k + 52) 1⟩) ∧
  (∀ (o : Otp) (raw : List Byte),
    let e := 256 + 64 * chunksOf raw
    let checked := o.check (slotOf raw) ⟨part raw e 32, part raw (e + 32) 1952, part raw (e + 1984) 64, part raw (e + 2048) 3309⟩ (Config.sha384 (raw.take (e + 1984)))
    (readManifest raw = none → o.accepts raw = .error 7) ∧
    (∀ m, readManifest raw = some m → o.accepts raw =
      match checked with
      | some c => .error c
      | none => if m.svn < o.svn then .error 5 else .ok m))

/-- R517: the manifests that a boot tries: those UNMARKED or ACTIVE, each once, in descending SEQ; the first that passes with every chunk sound boots, and
each before it fails with its cause, a chunk's being 6. -/
def Sys2Proof.Claims.bootOrder : Prop :=
  (∀ (x : Security), x.eligible.Perm (x.store.filter (fun m => decide (m.mark = .unmarked ∨ m.mark = .active))) ∧
    x.eligible.Pairwise (fun a b => manifestSeq b.raw ≤ manifestSeq a.raw)) ∧
  (∀ (x : Security) (m : Stored) (ms : List Stored),
    let next (c : Nat) : List (Nat × Nat) × Option (Stored × Manifest) := ((c, seqOf m.raw) :: (x.tryBoot ms).1, (x.tryBoot ms).2)
    x.tryBoot [] = ([], none) ∧
    (∀ c, x.otp.accepts m.raw = .error c → x.tryBoot (m :: ms) = next c) ∧
    (∀ f, x.otp.accepts m.raw = .ok f → x.sound f = false → x.tryBoot (m :: ms) = next 6) ∧
    (∀ f, x.otp.accepts m.raw = .ok f → x.sound f = true → x.tryBoot (m :: ms) = ([], some (m, f)))) ∧
  (∀ (x : Security) (m : Manifest), x.sound m = true ↔
    ∀ c ∈ m.chunks, ∃ e ∈ x.chunks, e.1 = c.dg ∧ (∀ g ∈ x.chunks.takeWhile (fun g => decide (g ≠ e)), g.1 ≠ c.dg) ∧ e.2.length = c.len ∧ Config.sha384 e.2 = c.dg)

namespace Sys2Proof.Claims

/-- R520, R521: chunks that no manifest still to run names are reclaimed. -/
def reclaimed (x : Security) : Security :=
  { x with chunks := x.chunks.filter (fun c => x.store.any (fun m =>
      decide (m.mark ≠ .retired) && (List.range (chunksOf m.raw)).any (fun k => decide (part m.raw (256 + 64 * k) 48 = c.1)))) }

/-- R522, R523: fuses blown for a manifest that becomes ACTIVE, when the two cores agree: the security version up to its own, and the slots it revokes;
SC_SVN_ADVANCED tells an advance. On a disagreement both values are logged and the fuses stay. -/
def blown (s : State) (m : Manifest) (second : Option Nat) : State :=
  let o := s.sec.otp
  let revoked := o.revoked ||| BitVec.ofNat 4 m.revoke
  if m.svn ≤ o.svn ∧ revoked = o.revoked then s
  else match second with
    | some v => (s.modLog 9 0xFFF 0 [.h 4, .d m.svn, .d v]).modEvent 0x600B [.h 4, .d m.svn, .d v]
    | none =>
      let s1 : State := { s with sec := { s.sec with otp := { o with svn := Nat.max o.svn m.svn, revoked := revoked } } }
      if o.svn < m.svn then s1.modEvent 0x8003 [.h o.svn, .h m.svn, .h revoked.toNat] else s1

/-- R517, R518, R521, R530: the boot ROM's work: a new nonce; partly written STAGED manifests and unnamed chunks reclaimed; new alias keys; each failure counted;
the first manifest that passes in force and the loader started, its fuses blown if it is ACTIVE; with none, HI_FAILED.CB and recovery mode. -/
def booted (s : State) (second : Option Nat) : State :=
  let x0 := s.sec
  let r := x0.tryBoot (x0.eligible.take 8)
  let x1 := reclaimed { x0 with
    nonce := Config.random s.draws
    store := x0.store.filter (fun m => decide (m.mark ≠ .staged) || (readManifest m.raw).isSome)
    vfails := x0.vfails + r.1.length, bootFails := r.1, fallbacks := r.1.length, aliasGen := x0.aliasGen + 1 }
  let s1 : State := { s with draws := s.draws + 1 }
  match r.2 with
  | some (m, f) =>
    let s2 : State := { s1 with
      sec := { x1 with inForce := some m.raw, bootSeq := f.seq }
      up := { s.up with loader := true, recovery := false, failed := s.up.failed &&& ~~~1 } }
    if m.mark = .active then blown s2 f second else s2
  | none => State.readinessIrq { s1 with sec := { x1 with inForce := none }, up := { s.up with recovery := true, failed := s.up.failed ||| 1 } }

/-- SC_VERIFY_FAIL, counted in SC_VFAILS. -/
def failTold (s : State) (cause ctx v : Nat) : State :=
  State.modEvent { s with sec := { s.sec with vfails := s.sec.vfails + 1 } } 0x8001 [.h cause, .h ctx, .h v]

/-- An answer of Prigar's. -/
def answered (s : State) (code : Nat) : State := { s with up := { s.up with pldm := ⟨code, []⟩ } }

/-- R519: the chunks of a package that the store does not hold, with their bytes. -/
def freshChunks (x : Security) (pkg : List Byte) (m : Manifest) : List (ChunkRef × List Byte) :=
  let up64 (n : Nat) : Nat := (n + 63) / 64 * 64
  let head := up64 (256 + 64 * chunksOf pkg + 5357)
  let at_ (k : Nat) : Nat := head + ((m.chunks.take k).map (fun c => up64 c.len)).sum
  (m.chunks.mapIdx (fun k c => (c, part pkg (at_ k) c.len))).filter (fun e => decide (∀ g ∈ x.chunks, g.1 ≠ e.1.dg))

end Sys2Proof.Claims

/-- R517, R518, R521 to R523: BOOT once the hub's rails are up, outside production test, unless the loader or recovery runs already. -/
def Sys2Proof.Claims.boots : Prop :=
  ∀ (s : State) (second : Option Nat),
    let may : Prop := 2 ≤ s.up.rails ∧ s.up.testMode = false ∧ s.up.loader = false ∧ s.up.recovery = false
    (may → exec (.boot second) s = .next (booted s second)) ∧ (¬ may → exec (.boot second) s = .next s)

/-- R519: how a package is staged: a manifest that fails its checks ends with their cause, a SEQ that the store holds is present, chunks that do not fit leave the store as
it was, a chunk whose bytes have another digest fails with cause 6, and otherwise the manifest stands STAGED in place of any other and its chunks are kept. -/
def Sys2Proof.Claims.packagesStaged : Prop :=
  ∀ (s : State) (pkg : List Byte),
    let x := s.sec
    let raw := pkg.take (256 + 64 * chunksOf pkg + 5357)
    s.stage pkg = match x.otp.accepts raw with
      | .error c => (s, .rejected c (seqOf raw))
      | .ok m =>
        let fresh := freshChunks x pkg m
        let used := (x.store.map (fun e => e.raw.length)).sum + (x.chunks.map (fun e => e.2.length)).sum
        if ∃ e ∈ x.store, seqOf e.raw = m.seq then (s, .present)
        else if 444 * 2 ^ 20 - used < raw.length + (fresh.map (fun e => e.1.len)).sum then (s, .full)
        else if ∃ e ∈ fresh, e.2.length ≠ e.1.len ∨ Config.sha384 e.2 ≠ e.1.dg then (s, .rejected 6 m.seq)
        else ({ s with sec := reclaimed { x with
          store := x.store.filter (fun e => decide (e.mark ≠ .staged)) ++ [⟨raw, .staged⟩], chunks := x.chunks ++ fresh.map (fun e => (e.1.dg, e.2)) } }, .staged m.seq)

/-- R437, R519, R520, R528, R531, R533: FW_STAGE and FW_ACTIVATE: DENIED in RETIRED, BUSY during an activation or a life-cycle change, by either path; staging ends OK with SEQ,
INTEGRITY, BADARG or NOSPACE; activation of a SEQ that is not STAGED is BADARG, of one that fails its checks again INTEGRITY, and otherwise starts. -/
def Sys2Proof.Claims.firmwareCommands : Prop :=
  ∀ (s : State) (f : FnIx) (k : SlotIx) (c : Cmd),
    let retired : Prop := s.sec.otp.udsKill = true
    let busy : Prop := s.sec.activation ≠ none ∨ s.sec.change ≠ none
    let end_ (s : State) (st : Nat) : Answer := .next (s.finish c st [] 0)
    (Takes s f k formStage c →
      let pkg := (List.range (c.arg 1).toNat).map (fun i => Mem.read s.host ((c.arg 0).toNat + i))
      (retired → exec (.fwStage f k) s = end_ s 4) ∧
      (¬ retired → busy → exec (.fwStage f k) s = end_ s 3) ∧
      (¬ retired → ¬ busy → exec (.fwStage f k) s = match s.stage pkg with
        | (s1, .staged q) => .next (okWith s1 c [BitVec.ofNat 64 q])
        | (s1, .rejected cause q) => end_ (failTold s1 cause 2 q) 11
        | (s1, .present) => .next (s1.finish c 2 [] 16)
        | (s1, .full) => end_ s1 5)) ∧
    (Takes s f k formActivate c →
      let q := par c 0 0 32
      let staged := s.sec.store.find? (fun m => decide (m.mark = .staged))
      (retired → exec (.fwActivate f k) s = end_ s 4) ∧
      (¬ retired → busy → exec (.fwActivate f k) s = end_ s 3) ∧
      (¬ retired → ¬ busy → (∀ m, staged = some m → seqOf m.raw ≠ q) → exec (.fwActivate f k) s = .next (s.finish c 2 [] 16)) ∧
      (∀ m, ¬ retired → ¬ busy → staged = some m → seqOf m.raw = q → exec (.fwActivate f k) s =
        match s.sec.otp.accepts m.raw with
        | .error cause => end_ (failTold s cause 3 q) 11
        | .ok g =>
          if s.sec.sound g then .next (State.setCmd { s with sec := { s.sec with activation := some ⟨.host f k, q, [], none⟩ } } c { c with taken := true })
          else end_ (failTold s 6 3 q) 11))

namespace Sys2Proof.Claims

/-- R509: the next core of an activation, or of its rollback, in reverse order. -/
def nextOf (s : State) (a : Activation) : Option Nat :=
  if a.rollback = none then [4, 5, 6, 7, 8, 9, 10, 11, 2, 3, 1, 0].find? (fun c => decide ((s.core c).retired = false ∧ c ∉ a.done)) else a.done.getLast?

/-- An activation is over: the command that asked for it, if any, ends. -/
def activationOver (s : State) (a : Activation) (st : Nat) : State :=
  let s1 : State := { s with sec := { s.sec with activation := none } }
  match a.by_ with
  | .prigar => s1
  | .host f k => match s1.cmds.find? (fun c => decide (c.func = f ∧ c.slot = k ∧ c.opcode = 0x51 ∧ c.taken = true)) with
    | some c => s1.finish c st [] 0
    | none => s1

/-- R520: the last core is back: the new manifest ACTIVE, the old one RETIRED, fuses blown, alias keys derived again, FW_ACTIVATED, chunks reclaimed. -/
def broughtIn (s : State) (a : Activation) (m : Stored) (f : Manifest) (second : Option Nat) : State :=
  let marked (old : Option (List Byte)) (e : Stored) : Stored :=
    if ∃ r, old = some r ∧ seqOf e.raw = seqOf r then { e with mark := .retired } else if seqOf e.raw = a.seq then { e with mark := .active } else e
  let s1 := blown { s with sec := { s.sec with store := s.sec.store.map (marked s.sec.inForce), inForce := some m.raw } } f second
  let s2 := State.modEvent { s1 with sec := { s1.sec with aliasGen := s1.sec.aliasGen + 1 } } 0x9005 [.h a.seq]
  activationOver { s2 with sec := reclaimed s2.sec } a 0

end Sys2Proof.Claims

/-- R505, R509, R510, R520: a core's handover in an activation: both events with 2 s between; the last core ends it; in a rollback cores go back in reverse order, and the
command ends FAULT; a core that does not pass its self-check within 10 s posts FW_ROLLBACK and begins the rollback; nothing moves while a core restarts. -/
def Sys2Proof.Claims.activationSteps : Prop :=
  ∀ (s : State) (second : Option Nat) (a : Activation) (c : Nat),
    let cover : Nat := [1, 0, 3, 2, 5, 4, 7, 6, 9, 8, 11, 10].getD c 0
    let told (s : State) (phase : Nat) : State := s.modEvent 0x9001 [.h c, .h cover, .h phase]
    let s0 := told s 0
    let s1 := told (timeAt s0 (s0.now + 2000000000)) 1
    let with_ (s : State) (a : Activation) : State := { s with sec := { s.sec with activation := some a } }
    s.sec.activation = some a → nextOf s a = some c → (∀ d : Fin 12, (s.faults.cores[d]).away = none) →
    (a.rollback = none →
      let b : Activation := { a with done := a.done ++ [c] }
      (nextOf s b ≠ none → exec (.fwCoreHandover second) s = .next (with_ s1 b)) ∧
      (∀ m f, nextOf s b = none → s.sec.store.find? (fun m => decide (m.mark = .staged)) = some m → readManifest m.raw = some f →
        exec (.fwCoreHandover second) s = .next (broughtIn (with_ s1 b) b m f second))) ∧
    (∀ x, a.rollback = some x →
      let b : Activation := { a with done := a.done.dropLast }
      exec (.fwCoreHandover second) s = .next (if b.done = [] then activationOver (with_ s1 b) b 6 else with_ s1 b)) ∧
    (a.rollback = none →
      let s2 := (timeAt s0 (s0.now + 10000000000)).modEvent 0x9006 [.h c, .h a.seq]
      let b : Activation := { a with rollback := some c }
      exec .fwSelfCheckTimeout s = .next (if a.done = [] then activationOver s2 b 6 else with_ s2 b))

/-- R509, R510: nothing is handed over without an activation, or while a core restarts for another reason. -/
def Sys2Proof.Claims.activationWaits : Prop :=
  ∀ (s : State) (second : Option Nat),
    s.sec.activation = none ∨ (∃ d : Fin 12, (s.faults.cores[d]).away ≠ none) →
    exec (.fwCoreHandover second) s = .next s ∧ exec .fwSelfCheckTimeout s = .next s

/-- R437, R518, R528, R531: PLDM_FIRMWARE_UPDATE stages and starts the activation; it is an error before the command board is ready, in RETIRED, and where staging fails, and
"already in progress" during another. PLDM_RECOVERY_UPDATE in recovery mode writes the package UNMARKED and runs the boot ROM again. -/
def Sys2Proof.Claims.prigarUpdates : Prop :=
  (∀ (s : State) (pkg : List Byte),
    let off : Prop := s.up.ready.getLsbD 0 = false ∨ s.sec.otp.udsKill = true
    let busy : Prop := s.sec.activation ≠ none ∨ s.sec.change ≠ none
    (off → exec (.pldmFirmwareUpdate pkg) s = .next (answered s 1)) ∧
    (¬ off → busy → exec (.pldmFirmwareUpdate pkg) s = .next (answered s 0x81)) ∧
    (¬ off → ¬ busy → exec (.pldmFirmwareUpdate pkg) s = match s.stage pkg with
      | (s1, .staged q) => .next (answered { s1 with sec := { s1.sec with activation := some ⟨.prigar, q, [], none⟩ } } 0)
      | (s1, .rejected cause q) => .next (answered (failTold s1 cause 5 q) 1)
      | (s1, _) => .next (answered s1 1))) ∧
  (∀ (s : State) (pkg : List Byte) (second : Option Nat),
    let x := s.sec
    let raw := pkg.take (256 + 64 * chunksOf pkg + 5357)
    let used := (x.store.map (fun e => e.raw.length)).sum + (x.chunks.map (fun e => e.2.length)).sum
    (s.up.recovery = false → exec (.pldmRecoveryUpdate pkg second) s = .next (answered s 1)) ∧
    (s.up.recovery = true → readManifest raw = none → exec (.pldmRecoveryUpdate pkg second) s = .next (answered s 2)) ∧
    (∀ m, s.up.recovery = true → readManifest raw = some m →
      let fresh := freshChunks x pkg m
      exec (.pldmRecoveryUpdate pkg second) s = .next (
        if 444 * 2 ^ 20 - used < raw.length + (fresh.map (fun e => e.1.len)).sum then answered s 1
        else booted (answered { s with sec := { x with
          store := x.store.filter (fun e => decide (seqOf e.raw ≠ m.seq)) ++ [⟨raw, .unmarked⟩], chunks := x.chunks ++ fresh.map (fun e => (e.1.dg, e.2)) } } 0) second)))

namespace Sys2Proof.Claims

/-- R525: a value as 48 bytes, zero-padded. -/
def in48 (bs : List Byte) : List Byte := (bs ++ List.replicate 48 0).take 48

/-- R525, Table 17.5: measurement `i` as a function gets it. -/
def measured (s : State) (f i : Nat) : List Byte :=
  let x := s.sec
  let o := x.otp
  let now (g : List Byte → List Byte) : List Byte := match x.inForce with | some raw => g raw | none => ([0] : List Byte)
  let staged := match x.store.find? (fun m => decide (m.mark = .staged)) with | some m => seqOf m.raw | none => 0
  let mine := (List.range 8).find? (fun p => decide ((s.part p).state ≠ .none ∧ (s.part p).func = f))
  in48 (match i with
    | 1 => Config.romDigest
    | 2 => now (fun raw => Config.sha384 (raw.take (256 + 64 * chunksOf raw + 1984)))
    | 3 => [BitVec.ofNat 8 o.svn] ++ now (fun raw => [BitVec.ofNat 8 (svnOf raw)]) ++ ([0, 0] : List Byte) ++ leBytes 4 (match x.inForce with | some raw => seqOf raw | none => 0) ++
        leBytes 4 staged ++ [if x.activation = none then 0 else 1]
    | 4 => [BitVec.ofNat 8 o.state, BitVec.ofNat 8 ((o.lc - 1) / 2)]
    | 5 => now (fun raw => [BitVec.ofNat 8 (slotOf raw)]) ++ [BitVec.ofNat 8 o.revoked.toNat]
    | 6 => [if o.state ∈ [0, 3] then 1 else 0]
    | 7 => match mine with | some p => x.imageDigest.toList.getD p [] | none => []
    | 8 => match mine with | some p => x.tableDigest.toList.getD p [] | none => []
    | _ => [])

/-- R527, Table 17.6: an attestation report, with both signatures over its first 608 bytes. -/
def reportOf (s : State) (f : Nat) (nonce : List Byte) : List Byte :=
  let head := leBytes 4 0x54544147 ++ [1, BitVec.ofNat 8 f] ++ leBytes 2 3981 ++ leBytes 8 Config.serial.toNat ++ leBytes 8 s.now ++ List.replicate 40 0 ++ nonce ++
    (List.range 8).flatMap (fun i => [BitVec.ofNat 8 (i + 1)] ++ List.replicate 15 0 ++ measured s f (i + 1))
  let sized (n : Nat) (bs : List Byte) : List Byte := (bs ++ List.replicate n 0).take n
  let asText : List Byte := [71, 110, 111, 114, 111, 115, 45, 65, 84, 84, 69, 83, 84]
  head ++ sized 64 (Config.ed25519Sign s.sec.aliasGen (Config.sha384 head)) ++ sized 3309 (Config.mldsaSign s.sec.aliasGen (Config.sha384 head) asText)

/-- R526, R528, R537: an SPDM request that is turned away, and with which error. -/
def turnedAway (s : State) : Option SpdmError :=
  if s.up.ready.getLsbD 0 = false ∨ s.sec.change ≠ none then some .busy else if s.sec.otp.state ∈ [0, 4] then some .unspecified else none

/-- A function's SPDM responder. -/
def spdmOf (s : State) (f : FnIx) : Spdm := s.sec.spdm[f]

/-- A function's SPDM responder replaced. -/
def withSpdm (s : State) (f : FnIx) (x : Spdm) : State := { s with sec := { s.sec with spdm := s.sec.spdm.set f x } }

end Sys2Proof.Claims

/-- R527, R528: ATTEST writes the report to host memory; DENIED in BLANK and RETIRED, NOSPACE in fewer than 4,032 bytes. -/
def Sys2Proof.Claims.attests : Prop :=
  ∀ (s : State) (f : FnIx) (k : SlotIx) (c : Cmd),
    let none_ : Prop := s.sec.otp.state ∈ [0, 4]
    let nonce := (c.params.drop 16).take 32
    Takes s f k formAttest c →
    (none_ → exec (.attest f k) s = .next (s.finish c 4 [] 0)) ∧
    (¬ none_ → (c.arg 1).toNat < 4032 → exec (.attest f k) s = .next (s.finish c 5 [0, 4032] 0)) ∧
    (¬ none_ → 4032 ≤ (c.arg 1).toNat → nonce.length = 32 →
      exec (.attest f k) s = .next (okWith { s with host := Mem.writeN s.host (c.arg 0).toNat (reportOf s f nonce) } c [3981]))

/-- R526, R528, R537: SPDM 1.3: Busy before the command board is ready and during a life-cycle change, Unspecified in BLANK and RETIRED, UnexpectedRequest
before the set-up a request needs, and otherwise the version, capabilities, algorithms, parts of the two chains, and signed and unsigned answers; the ML-DSA-65
signature covers the message of the last signed response. -/
def Sys2Proof.Claims.spdmAnswers : Prop :=
  ∀ (s : State) (f : FnIx) (slot off len index : Nat) (sign : Bool) (o16 l16 : BitVec 16),
    let x := spdmOf s f
    let gen := s.sec.aliasGen
    let n := s.draws
    let say (r : SpdmReply) : Answer := .next (withSpdm s f { x with reply := r })
    let chain (pq : Bool) (off len : Nat) : SpdmReply :=
      let c := Config.certChain gen pq
      if c.length < off then .error .invalidRequest else .certificate (part c off len) (c.length - (off + len))
    let sized (n : Nat) (bs : List Byte) : List Byte := (bs ++ List.replicate n 0).take n
    let drawn : State := { s with draws := n + 1 }
    let sig := sized 64 (Config.ed25519Sign gen (Config.spdmTranscript n))
    let asText : List Byte := [71, 110, 111, 114, 111, 115, 45, 83, 80, 68, 77]
    let requests : List (Instr × Nat) := [(.spdmGetVersion f, 0), (.spdmGetCapabilities f, 1), (.spdmNegotiateAlgorithms f, 2), (.spdmGetCertificate f slot off len, 3),
      (.spdmChallenge f slot, 3), (.spdmGetMeasurements f index sign, 3), (.getPqCertificate f o16 l16, 3), (.getPqSignature f, 1)]
    (∀ e ∈ requests, (∀ r, turnedAway s = some r → exec e.1 s = say (.error r)) ∧
      (turnedAway s = none → x.stage < e.2 → exec e.1 s = say (.error .unexpectedRequest))) ∧
    (turnedAway s = none →
      exec (.spdmGetVersion f) s = .next (withSpdm s f ⟨1, none, .version 1 3⟩) ∧
      (1 ≤ x.stage → exec (.spdmGetCapabilities f) s = .next (withSpdm s f { x with stage := Nat.max x.stage 2, reply := .capabilities true true true })) ∧
      (2 ≤ x.stage → exec (.spdmNegotiateAlgorithms f) s = .next (withSpdm s f { x with stage := Nat.max x.stage 3, reply := .algorithms true true })) ∧
      (3 ≤ x.stage →
        exec (.spdmGetCertificate f slot off len) s = say (if slot = 0 then chain false off len else .error .invalidRequest) ∧
        exec (.spdmChallenge f slot) s =
          (if slot = 0 then .next (withSpdm drawn f { x with signed := some n, reply := .challengeAuth sig }) else say (.error .invalidRequest)) ∧
        (index = 0 ∨ (8 < index ∧ index ≠ 255) → exec (.spdmGetMeasurements f index sign) s = say (.error .invalidRequest)) ∧
        (∀ is, (1 ≤ index ∧ index ≤ 8 ∧ is = [index]) ∨ (index = 255 ∧ is = [1, 2, 3, 4, 5, 6, 7, 8]) →
          let bs := is.map (fun i => (i, measured s f i))
          exec (.spdmGetMeasurements f index sign) s =
            (if sign then .next (withSpdm drawn f { x with signed := some n, reply := .measurements bs (some sig) }) else say (.measurements bs none))) ∧
        exec (.getPqCertificate f o16 l16) s = say (chain true o16.toNat l16.toNat)) ∧
      (1 ≤ x.stage → (x.signed = none → exec (.getPqSignature f) s = say (.error .unexpectedRequest)) ∧
        ∀ m, x.signed = some m → exec (.getPqSignature f) s = say (.pqSignature (sized 3309 (Config.mldsaSign gen (Config.spdmTranscript m) asText)))))

namespace Sys2Proof.Claims

/-- Table 17.8: the length of an authorization's certificates. -/
def certLen (a : List Byte) : Nat := num a 6 2

/-- R530, check 1: MAGIC, FROM, TARGET, KEYSLOT, CERTLEN, SERIAL, NONCE, reserved bits zero, and certificates only for DEPLOYED from PROVISIONED. -/
abbrev fieldsHold (s : State) (a : List Byte) (target : Nat) : Prop :=
  num a 0 4 = 0x43594C47 ∧ num a 4 1 = s.sec.otp.state + 16 * target ∧ num a 5 1 < 4 ∧ certLen a ≤ 32704 ∧ num a 8 8 = Config.serial.toNat ∧
    num a 16 32 = s.sec.nonce.toNat ∧ (∀ b ∈ part a 48 16, b = 0) ∧ a.length = 64 + certLen a + 5357 ∧
    (certLen a ≠ 0 → s.sec.otp.state = 1 ∧ target = 2)

/-- Table 17.9: the permitted changes. -/
abbrev permitted (o : Otp) (target : Nat) : Prop :=
  (o.state, target) ∈ [(0, 1), (1, 2), (3, 2), (1, 4), (2, 4), (3, 4)] ∨ (o.state = 2 ∧ target = 3 ∧ o.lc < 8)

/-- R530: SC_NONCE takes a new value. -/
def renonced (s : State) : State := { s with draws := s.draws + 1, sec := { s.sec with nonce := Config.random s.draws } }

/-- R531, Table 17.9, Table 17.10: the fuses of a change, its certificates, every tile wiped, and every key replaced. -/
def changed (s : State) (a : List Byte) (target : Nat) : State :=
  let o := s.sec.otp
  let o1 : Otp := if target = 4 then { o with udsKill := true }
    else if target = 1 then { o with lc := o.lc + 1, uds := Config.random s.draws } else { o with lc := o.lc + 1 }
  let certs := if target = 4 then [] else if o.state = 1 then part a 64 (certLen a) else s.sec.certs
  let s1 : State := { s with draws := if target = 1 then s.draws + 1 else s.draws, sec := { s.sec with otp := o1, certs := certs }
                             tiles := s.tiles.map (fun e => (e.1, wipedWhole e.2)) }
  (List.range 8).foldl (fun s p => rekeyed s p true true) s1

end Sys2Proof.Claims

/-- R530, Table 17.9: the checks of an authorization in their order: its fields, the transition, the signatures, and the certificates of a deployment. -/
def Sys2Proof.Claims.authorizations : Prop :=
  ∀ (s : State) (a : List Byte) (target : Nat),
    let o := s.sec.otp
    let e := 64 + certLen a
    target < 8 →
    (¬ fieldsHold s a target → s.authorize a target = .failed 8) ∧
    (fieldsHold s a target → ¬ permitted o target → s.authorize a target = .badTransition) ∧
    (fieldsHold s a target → permitted o target → s.authorize a target =
      match o.check (num a 5 1) ⟨part a e 32, part a (e + 32) 1952, part a (e + 1984) 64, part a (e + 2048) 3309⟩ (Config.sha384 (a.take (e + 1984))) with
      | some c => .failed c
      | none => if o.state = 1 ∧ target = 2 ∧ o.certsOk (part a 64 (certLen a)) = false then .failed 8 else .ok)

/-- R508, R528, R530, R531: LIFECYCLE to each target: DENIED in RETIRED; INTEGRITY with SC_VERIFY_FAIL for a check that fails, BADARG for a transition that is not
permitted; BUSY while a partition exists or firmware is staged or activated; FAULT where the cores disagree; else the fuses are blown, everything is wiped and every
other command ends ABORTED; and SC_NONCE is new after each. Its wipe's end zeroes memory, slots, events and logs, issues alias keys and tells SC_LIFECYCLE. -/
def Sys2Proof.Claims.lifeCycle : Prop :=
  (∀ (s : State) (f : FnIx) (k : SlotIx) (c : Cmd) (second : Option Nat),
    let t := par c 0 0 3
    let a := (List.range (c.arg 2).toNat).map (fun i => Mem.read s.host ((c.arg 1).toNat + i))
    let end_ (s : State) (st : Nat) : Answer := .next (renonced (s.finish c st [] 0))
    let used : Prop := (∃ p : PartIx, (s.part p).state ≠ .none) ∨ s.sec.activation ≠ none ∨ s.sec.change ≠ none
    ∀ i ∈ (if t = 2 then [Instr.lifecycleDeploy f k second] else if t = 3 then [Instr.lifecycleReturn f k second] else if t = 4 then [Instr.lifecycleRetire f k second]
        else [Instr.lifecycleProvision f k second]),
    (∀ st off, s.toTake f k 0xA0 = some c → s.verdict formLifecycle c = some (st, off) → exec i s = .next (renonced (s.finish c st [] off))) ∧
    (Takes s f k formLifecycle c →
      (s.sec.otp.udsKill = true → exec i s = end_ s 4) ∧
      (s.sec.otp.udsKill = false → exec i s = match s.authorize a t with
        | .failed cause => end_ (failTold s cause 4 t) 11
        | .badTransition => .next (renonced (s.finish c 2 [] 16))
        | .ok =>
          if used then end_ s 3
          else match second with
            | some v => end_ ((s.modLog 9 0xFFF 0 [.h 4, .d t, .d v]).modEvent 0x600B [.h 4, .d t, .d v]) 6
            | none =>
              let s1 := changed s a t
              let s2 := (s1.cmds.filter (fun d => decide (¬ (d.func = c.func ∧ d.slot = c.slot ∧ d.at_ = c.at_ ∧ d.seq = c.seq)))).foldl (fun s d => s.finish d 10 [] 0) s1
              let s3 : State := { s2 with sec := { s2.sec with change := some ⟨f, k, s.sec.otp.state, t⟩ } }
              .next (renonced (s3.setCmd c { c with taken := true }))))) ∧
  (∀ (s : State) (ch : LcChange),
    let fresh : State := { s with
      now := Nat.max s.now (s.now + 650000000)
      hbm := { s.hbm with cells := [], keys := [], poison := [], bad := [], weak := [] }
      locker := { s.locker with cells := [], keys := [], poison := [], bad := [] }
      fns := s.fns.map (fun x => { x with slots := [], held := [], full := x.full.map (fun e => (e.1, 0)) })
      parts := s.parts.map (fun x => { x with log := ⟨[], 0⟩ })
      faults := { s.faults with modLog := ⟨[], s.faults.modLog.next⟩ }
      sec := { s.sec with change := none, aliasGen := s.sec.aliasGen + 1 } }
    let told := fresh.modEvent 0x8002 [.h ch.old, .h ch.new]
    s.sec.change = some ch →
    (∀ c, told.cmds.find? (fun d => decide (d.func = ch.func ∧ d.slot = ch.slot ∧ d.opcode = 0xA0 ∧ d.taken = true)) = some c →
      exec .lifecycleWipeComplete s = .next (okWith told c [])) ∧
    ((∀ d ∈ told.cmds, ¬ (d.func = ch.func ∧ d.slot = ch.slot ∧ d.opcode = 0xA0 ∧ d.taken = true)) → exec .lifecycleWipeComplete s = .next told)) ∧
  (∀ (s : State), s.sec.change = none → exec .lifecycleWipeComplete s = .next s)

namespace Sys2Proof.Claims

/-- R502: a record of the gradebook written to service flash at once. -/
def flashed (s : State) (cls unit : Nat) : State :=
  { s with faults := { s.faults with flash := Tab.put s.faults.flash (65536 * cls + unit) (s.grade cls unit) } }

/-- R503, R504: a record after a counted event at an address. -/
def afterEvent (g : Grade) (life addr : Nat) (proctor : Bool) : Grade :=
  let recent := g.events.filter (fun e => decide (life < e + 720 * 3600))
  { g with
    first := if g.contained = 0 ∧ g.proctor = 0 then life else g.first, last := life, events := recent ++ [life], lastAddr := addr
    contained := if proctor then g.contained else g.contained + 1, proctor := if proctor then g.proctor + 1 else g.proctor
    addrs := if addr ∈ g.addrs then g.addrs else g.addrs ++ [addr] }

/-- R504: UNIT_PERMANENT. -/
def declared (s : State) (cls unit : Nat) : State :=
  (s.setGrade cls unit { s.grade cls unit with state := 1 }).modEvent 0x6007 [.h cls, .h unit]

/-- R493: a class D error in the gradebook and the module log. -/
def loggedD (s : State) (p cls unit addr : Nat) : State := (s.countGrade cls unit addr false).modLog 8 0xFFF p [.h cls, .h unit, .d addr]

/-- R491: the reset of a partition for class D, by what it is doing. -/
def classDOn (s : State) (p : Nat) : State :=
  let x := s.part p
  if x.state = .running ∨ x.state = .preempting then endsNow s p .classD
  else if x.state = .preempted then s.setPart p { x with state := .ending, ending := some .classD, refused := true, saved := none }
  else if x.state = .empty ∨ x.state = .loaded then
    let s1 := rekeyed (vacated s p) p true false
    s1.setPart p (regsBack (s1.part p))
  else s

/-- R491, R492: the errors of a partition contained by one reset, and each told by PART_CONTAINED. -/
def containedBy (s : State) (p : Nat) (es : List DErr) : State :=
  es.foldl (fun s e => (loggedD s p e.cls e.unit e.addr).bothEvent (some p) 0x6002 [.h e.cls, .h e.unit, .d e.addr, .d e.time]) (classDOn s p)

/-- R508: COUNTERSIGN_FAIL with the decision's kind and both values, in the module log too. -/
def disagreed (s : State) (kind a b : Nat) : State := (s.modLog 9 0xFFF 0 [.h kind, .d a, .d b]).modEvent 0x600B [.h kind, .d a, .d b]

/-- R498: a sample ends, and its two sites are wiped. -/
def sampleOver (s : State) (id shadow judge : Nat) : State :=
  let s1 : State := { s with faults := { s.faults with samples := s.faults.samples.filter (fun y => decide (y.id ≠ id)) } }
  let s2 := s1.setSiteTile shadow (s1.siteTile shadow).wipe
  s2.setSiteTile judge (s1.siteTile judge).wipe

end Sys2Proof.Claims

/-- R502 to R504: a counted event enters its unit's record, which is in flash at once; the third within 720 h, or one at the nonzero address of an earlier one, makes
the unit permanent-faulty. -/
def Sys2Proof.Claims.eventsGraded : Prop :=
  ∀ (s : State) (cls unit addr : Nat) (proctor : Bool),
    let g := s.grade cls unit
    let g1 := afterEvent g s.life addr proctor
    let s1 := s.setGrade cls unit g1
    let faulty : Prop := 3 ≤ g1.events.length ∨ (addr ≠ 0 ∧ addr ∈ g.addrs)
    (faulty → s.countGrade cls unit addr proctor = flashed (s1.condemn cls unit) cls unit) ∧
    (¬ faulty → s.countGrade cls unit addr proctor = flashed s1 cls unit)

/-- R273, R339, R368, R504, R505: a unit declared permanent-faulty, unless it is so or out of service already: a site of no duty leaves service at once; a bank makes its site
permanent-faulty; an owned pseudo-channel's slot is RETIRING, and another retires; a lane waits for its port's recess. -/
def Sys2Proof.Claims.unitsCondemned : Prop :=
  ∀ (s : State) (unit : Nat),
    let out (g : Grade) : Prop := g.state ∈ [1, 2, 4]
    let s1 (cls : Nat) : State := declared s cls unit
    (∀ cls, out (s.grade cls unit) → s.condemn cls unit = s) ∧
    (∀ l, ¬ out (s.grade 1 unit) → (s1 1).seatedAt unit = some l → ((s1 1).seat l).valid = true → s.condemn 1 unit = s1 1) ∧
    (¬ out (s.grade 1 unit) → (s1 1).seatedAt unit = none → s.condemn 1 unit = outOfService (s1 1) 1 unit ((s1 1).subsLeft (dieOf unit))) ∧
    (¬ out (s.grade 2 unit) → out ((s1 2).grade 1 (unit / 16)) → s.condemn 2 unit = s1 2) ∧
    (∀ l, ¬ out (s.grade 2 unit) → ¬ out ((s1 2).grade 1 (unit / 16)) →
      let s2 := declared (s1 2) 1 (unit / 16)
      s2.seatedAt (unit / 16) = some l → (s2.seat l).valid = true → s.condemn 2 unit = s2) ∧
    (∀ p k, ¬ out (s.grade 3 unit) → (s1 3).pcOwner unit = some (p, k) → p < 8 →
      let x := (s1 3).part p
      s.condemn 3 unit = ((s1 3).setPart p { x with slots := slotsWith x k .retiring }).bothEvent (some p) 0x4002 [.h k, .h (unit / 32), .h (unit % 32), .h 0]) ∧
    (¬ out (s.grade 3 unit) → (s1 3).pcOwner unit = none → s.condemn 3 unit = (s1 3).retirePc unit) ∧
    (¬ out (s.grade 4 unit) →
      let x := (s1 4).port (unit / 4)
      s.condemn 4 unit = if x.retired.testBit (unit % 4) then s1 4 else (s1 4).setPort (unit / 4) { x with toRetire := x.toRetire ||| 2 ^ (unit % 4) }) ∧
    (∀ cls, 5 ≤ cls → ¬ out (s.grade cls unit) → s.condemn cls unit = s1 cls)

/-- R447, R491, R492: a class D error of a partition refuses its memory from that moment and waits for its reset; one of no partition, of a HELD partition or of one
that is ENDING is recorded only, and one that meets a class D reset under way is told too. -/
def Sys2Proof.Claims.classDDetected : Prop :=
  ∀ (s : State) (p : PartIx) (cls unit addr : Nat),
    let x := s.part p
    let joins : Prop := x.state = .ending ∧ x.ending = some .classD
    (s.classD none cls unit addr = loggedD s 0 cls unit addr) ∧
    (joins → s.classD (some p.val) cls unit addr =
      (loggedD s p cls unit addr).bothEvent (some p.val) 0x6002 [.h cls, .h unit, .d addr, .d s.now]) ∧
    (¬ joins → x.state ∈ [.none, .held, .ending] → s.classD (some p.val) cls unit addr = loggedD s p cls unit addr) ∧
    (x.state ∉ [.none, .held, .ending] → s.classD (some p.val) cls unit addr = State.setPart
      { s with faults := { s.faults with derrs := s.faults.derrs ++ [⟨p, cls, unit, addr, s.now⟩] } } p { x with refused := true })

/-- R491, R492, R508: CLASS_D_RESET takes the errors of a partition together: one reset, and each error told; where the countersigner names another partition, a third core
decides, and where no two agree every partition named is reset. -/
def Sys2Proof.Claims.classDResets : Prop :=
  ∀ (s : State) (p second third : PartIx) (e : DErr) (es : List DErr),
    let s1 : State := { s with now := Nat.max s.now (e.time + 3000)
                               faults := { s.faults with derrs := s.faults.derrs.filter (fun d => decide (d.part ≠ p.val)) } }
    let s2 := disagreed s1 2 p second
    (s.faults.derrs.filter (fun d => decide (d.part = p.val)) = [] → exec (.classDReset p second third) s = .next s) ∧
    (s.faults.derrs.filter (fun d => decide (d.part = p.val)) = e :: es →
      (second = p → exec (.classDReset p second third) s = .next (containedBy s1 p (e :: es))) ∧
      (second ≠ p → third = p → exec (.classDReset p second third) s = .next (containedBy s2 p (e :: es))) ∧
      (second ≠ p → third = second →
        exec (.classDReset p second third) s = .next (containedBy (s2.setPart p { s2.part p with refused := false }) second (e :: es))) ∧
      (second ≠ p → third ≠ p → third ≠ second →
        exec (.classDReset p second third) s = .next (classDOn (classDOn (containedBy s2 p (e :: es)) second) third)))

/-- R395, R498 to R500: a comparison: equal signatures end the sample and are counted; others set the commit veto, are logged and told, and wait for the judge; one whose
shadow met a class D error is void; and the contribution to bell 63 that waited goes out. -/
def Sys2Proof.Claims.proctorCompares : Prop :=
  ∀ (s : State) (id : Nat) (sig : Word) (void : Bool) (pre post : List Sample) (x : Sample) (orig n : Word),
    let p := x.part
    let y := s.part p
    let out (s : State) : Answer := .next (s.contribute p 63)
    s.faults.samples = pre ++ x :: post → x.id = id → (∀ z ∈ pre ++ post, z.id ≠ id) → x.state = .ended orig n →
    (void = true → exec (.proctorCompare id sig void) s = out (loggedD (s.voidSamples (fun z => decide (z.id = id))) 0 1 x.shadow 0)) ∧
    (void = false → sig = orig →
      let s1 := sampleOver s id x.shadow x.judge
      exec (.proctorCompare id sig void) s = out (s1.setPart p { y with proctor := { y.proctor with sampled := y.proctor.sampled + 1 } })) ∧
    (void = false → sig ≠ orig →
      let s1 : State := { s with faults := { s.faults with samples := pre ++ { x with state := .judging orig sig } :: post } }
      let s2 := s1.setPart p { y with veto := true, proctor := { y.proctor with mismatched := y.proctor.mismatched + 1 } }
      exec (.proctorCompare id sig void) s = out ((s2.partLog p 10 x.tile [.h id, .h x.shadow, .h x.judge, .d orig.toNat, .d sig.toNat]).bothEvent (some p) 0x6001
        [.h id, .h x.tile, .h x.orig, .h x.shadow, .h x.judge, .d x.step]))

/-- R498, R499, Table 16.4: the judge's verdict: the event counts against the shadow when the judge has the original's signature, against the original when it has the
shadow's, and against both when it has neither; the others get a note; and the sample is over. -/
def Sys2Proof.Claims.proctorJudges : Prop :=
  ∀ (s : State) (id : Nat) (sig : Word) (void : Bool) (pre post : List Sample) (x : Sample) (orig shadow : Word),
    let noted (s : State) (u : Nat) : State := s.setGrade 1 u { s.grade 1 u with notes := Nat.min ((s.grade 1 u).notes + 1) 65535 }
    let struck (s : State) (u : Nat) : State := s.countGrade 1 u 0 true
    let told (s : State) (v : Nat) : Answer := .next (sampleOver (s.bothEvent (some x.part) 0x6006 [.h id, .h v]) id x.shadow x.judge)
    s.faults.samples = pre ++ x :: post → x.id = id → (∀ z ∈ pre ++ post, z.id ≠ id) → x.state = .judging orig shadow →
    (void = false → sig = orig → exec (.proctorVerdict id sig void) s = told (noted (struck s x.shadow) x.orig) 1) ∧
    (void = false → sig ≠ orig → sig = shadow → exec (.proctorVerdict id sig void) s = told (noted (struck s x.orig) x.shadow) 2) ∧
    (void = false → sig ≠ orig → sig ≠ shadow → exec (.proctorVerdict id sig void) s = told (noted (struck (struck s x.orig) x.shadow) x.judge) 3) ∧
    (void = true → exec (.proctorVerdict id sig void) s = told (noted (noted (loggedD s 0 1 x.judge 0) x.orig) x.shadow) 4)

namespace Sys2Proof.Claims

/-- R502: a histogram's bin advanced, saturating at 32 bits. -/
def binUp (h : List Nat) (k n : Nat) : List Nat := h.set k (Nat.min (h.getD k 0 + n) (2 ^ 32 - 1))

/-- R502: the log bin of a count. -/
def logBinOf (v : Nat) : Nat := ((List.range 15).filter (fun k => decide (2 ^ k ≤ v))).length

/-- R502: the degree bin of a temperature. -/
def degreeBin (t : Nat) : Nat := ((List.range 15).filter (fun k => decide (44 + 4 * k ≤ t))).length

/-- R502: a count of the hour (or day) that ends enters a histogram, and the hours since had none. -/
def hourIn (h : List Nat) (v n : Nat) : List Nat := binUp (binUp h (logBinOf v) 1) 0 (n - 1)

/-- Table 16.7: a record when `n` hours and `d` days have ended. -/
def hourEnded (s : State) (cls unit n d : Nat) : Grade :=
  let g := s.grade cls unit
  if cls = 1 then { g with h2 := hourIn g.h2 g.tally n, tally := 0 }
  else if cls = 2 ∨ cls = 3 then { g with h1 := hourIn g.h1 g.tally n, tally := 0 }
  else if cls = 4 then
    let x := s.port (unit / 4)
    let errors := x.lanecorr.toList.getD (unit % 4) 0
    let bits := 3600 * 212500000000
    let rate := ((List.range 15).filter (fun j => decide (bits ≤ (errors - g.tally2) * 10 ^ (15 - j)))).length
    { g with h1 := binUp (binUp g.h1 rate 1) 0 (n - 1), h2 := hourIn g.h2 (x.retries - g.tally) n, tally := x.retries, tally2 := errors }
  else if cls = 5 then (if d = 0 then g else { g with h1 := hourIn g.h1 g.tally d, tally := 0 })
  else if cls = 6 then { g with h1 := binUp g.h1 (degreeBin (s.die unit).tj) n, h2 := hourIn g.h2 g.tally n, tally := 0 }
  else
    let k := s.hbm.heat.toList.getD unit ⟨0, 1, 0, false, false⟩
    { g with h1 := binUp g.h1 (degreeBin k.temp) n, h2 := binUp g.h2 (if k.mult = 4 then 2 else if k.mult = 2 then 1 else 0) n }

end Sys2Proof.Claims

/-- R502, R503: GRADEBOOK_FLUSH at each full minute writes every record to flash; where an hour of life has ended since the last, the histograms take it in. -/
def Sys2Proof.Claims.gradebookFlushed : Prop :=
  ∀ (s : State),
    let s1 := timeAt s ((s.now / 60000000000 + 1) * 60000000000)
    let hour := s1.life / 3600
    let n := hour - s.faults.hourAt
    (∀ k : Fin 8, s.hbm.heat[k].mult ∈ [1, 2, 4]) →
    (n = 0 → exec .gradebookFlush s = .next { s1 with faults := { s1.faults with flash := s1.faults.grade } }) ∧
    (n ≠ 0 → ∃ t, exec .gradebookFlush s = .next t ∧ t.faults.hourAt = hour ∧ t.faults.flash = t.faults.grade ∧
      t = { s1 with faults := { s1.faults with grade := t.faults.grade, flash := t.faults.flash, hourAt := hour } } ∧
      (Tab.rising s.faults.grade = true → ∀ cls unit size, (cls, size) ∈ [(1, 3136), (2, 50176), (3, 256), (4, 64), (5, 12), (6, 4), (7, 8)] →
        unit < size → t.grade cls unit = hourEnded s1 cls unit n (hour / 24 - s.faults.hourAt / 24)))

/-- R31, R505, R507, Table 16.10: a core that serves restarts at a memory error, or when its watchdog has run for 100 ms: its commands end FAULT, with those of the core it
covers; the restart is logged, told and counted, and a core made permanent-faulty retires when the hub keeps two cores and its die one; otherwise it is back after 2 s. -/
def Sys2Proof.Claims.coresRestart : Prop :=
  ∀ (s : State) (c : CoreIx),
    let cover : Nat := [1, 0, 3, 2, 5, 4, 7, 6, 9, 8, 11, 10].getD c 0
    let serves (k : CtlCore) : Prop := k.away = none ∧ k.retired = false
    let restarted (s : State) (cause : Nat) : State :=
      let duty : Nat := if c.val < 4 then c else 4
      let for_ (d : Cmd) : Nat := if d.opcode ∈ [0x11, 0x12, 0x20, 0x21, 0x22, 0x23, 0x24, 0x25, 0x26, 0x30] then 1 else 0
      let mine (k : Nat) : Prop := k = c ∨ (k = cover ∧ ¬ serves (s.core cover))
      let s1 := (s.cmds.filter (fun d => decide (d.taken = true ∧ d.deferred = false ∧ mine (for_ d)))).foldl (fun s d => s.finish d 6 [] 0) s
      let s2 := (s1.modLog 11 0xFFF 0 [.h c, .h cause, .h duty]).modEvent 0x600A [.h c, .h cause, .h duty]
      let s3 : State := { s2 with faults := { s2.faults with cores := s2.faults.cores.set c ⟨some (s2.now, cause), false⟩ } }
      let s4 := (s3.setGrade 5 c { s3.grade 5 c with tally := (s3.grade 5 c).tally + 1 }).countGrade 5 c 0 false
      let inService (k : Fin 12) : Prop := s4.faults.cores[k].retired = false
      let may : Prop := if c.val < 4 then 3 ≤ ((List.finRange 12).filter (fun k => decide (k.val < 4 ∧ inService k))).length
        else ∃ k : Fin 12, k.val = cover ∧ inService k
      if (s4.grade 5 c).state = 1 ∧ may then
        let s5 : State := { s4 with faults := { s4.faults with cores := s4.faults.cores.set c ⟨none, true⟩ } }
        outOfService s5 5 c ((List.finRange 12).filter (fun k => decide (s5.faults.cores[k].retired = false))).length
      else s4
    let k := s.faults.cores[c]
    (serves k → exec (.coreMemoryError c) s = .next (restarted s 1) ∧ exec (.coreWatchdog c) s = .next (restarted (timeAt s (s.now + 100000000)) 2)) ∧
    (¬ serves k → exec (.coreMemoryError c) s = .next s ∧ exec (.coreWatchdog c) s = .next s) ∧
    (∀ t cause, k.away = some (t, cause) → exec (.coreRestartComplete c) s = .next
      (let s1 := timeAt s (t + 2000000000); { s1 with faults := { s1.faults with cores := s1.faults.cores.set c ⟨none, false⟩ } })) ∧
    (k.away = none → exec (.coreRestartComplete c) s = .next s)

namespace Sys2Proof.Claims

/-- Table 18.1, R535: a function by its number: 0 the command board, 1–4 the dies, 5–12 the stacks, 13–28 the ports, 29 the locker, 30–78 the blocks. -/
def isReady (u : Bringup) (n : Nat) : Bool := if n < 30 then u.ready.getLsbD n else u.blocks.getLsbD (n - 30)
def isFailed (u : Bringup) (n : Nat) : Bool := if n < 30 then u.failed.getLsbD n else u.failBlocks.getLsbD (n - 30)
def nowReady (u : Bringup) (n : Nat) : Bringup :=
  if n < 30 then { u with ready := u.ready ||| BitVec.ofNat 30 (2 ^ n) } else { u with blocks := u.blocks ||| BitVec.ofNat 49 (2 ^ (n - 30)) }
def nowFailed (u : Bringup) (n : Nat) : Bringup :=
  if n < 30 then { u with failed := u.failed ||| BitVec.ofNat 30 (2 ^ n) } else { u with failBlocks := u.failBlocks ||| BitVec.ofNat 49 (2 ^ (n - 30)) }

/-- R535: whether a block lies on a die, in whole or in part. -/
abbrev liesOn (b d : Nat) : Prop :=
  (if d % 2 = 0 then b % 7 ≤ 3 else 3 ≤ b % 7) ∧ (if d / 2 = 0 then b / 7 ≤ 3 else 3 ≤ b / 7)

/-- Table 18.1: what a function's bring-up waits for. -/
abbrev mayStart (u : Bringup) (n : Nat) : Prop :=
  u.testMode = false ∧ u.loader = true ∧
    (n = 0 → 2 ≤ u.rails) ∧ (1 ≤ n → n ≤ 4 → 2 + n ≤ u.rails) ∧ (5 ≤ n → n ≤ 12 → 7 ≤ u.rails ∧ u.ready.getLsbD (1 + (n - 5) / 2) = true) ∧
    (13 ≤ n → n ≤ 28 → 9 ≤ u.rails ∧ u.ready.getLsbD (1 + (n - 13) / 4) = true) ∧ (n = 29 → 8 ≤ u.rails) ∧
    (30 ≤ n → ∀ d < 4, liesOn (n - 30) d → u.ready.getLsbD (1 + d) = true)

/-- R410: MSI-X vector 2 raised on every function; while masked it waits. -/
def readinessTold (s : State) : State :=
  let fired (v : Vector_) : Vector_ :=
    if v.masked then { v with waits := true, gathered := 0, first := none } else { v with raised := v.raised + 1, gathered := 0, first := none }
  { s with fns := s.fns.map (fun x => { x with msix := x.msix.set 2 (fired x.msix[2]) }) }

/-- R534: UNIT_FAILED and the cause in the gradebook, unless the function is ready or has failed. -/
def unitFails (s : State) (n cause : Nat) : State :=
  if isReady s.up n = true ∨ isFailed s.up n = true then s
  else
    let s1 : State := { s with up := nowFailed s.up n }
    let s2 := if 1 ≤ n ∧ n ≤ 4 then s1.setGrade 6 (n - 1) { s1.grade 6 (n - 1) with extra := [cause] }
      else if 5 ≤ n ∧ n ≤ 12 then s1.setGrade 7 (n - 5) { s1.grade 7 (n - 5) with extra := [cause] } else s1
    s2.modEvent 0x7003 [.h n, .h cause]

end Sys2Proof.Claims

/-- R410, R458, R505, R517, R534, R541: FUNCTION_READY when a function's bring-up may start and it has neither come up nor failed: its bit is set and vector 2 raised. The
command board posts the boot's failures; a port enters DETECT, or DISABLED while not enabled; a stack's channels with a row that cannot be repaired are permanent-faulty; a block's sites
that failed their test leave service, its tiles are wiped, and they count as tested. -/
def Sys2Proof.Claims.functionsReady : Prop :=
  ∀ (s : State) (n : Fin 79) (bad : List Nat),
    let u := s.up
    let may : Prop := isReady u n = false ∧ isFailed u n = false ∧ mayStart u n
    let s1 : State := { s with up := nowReady u n }
    let out (t : State) : Answer := .next (readinessTold t)
    (¬ may → exec (.functionReady n bad) s = .next s) ∧
    (may → n.val = 0 → exec (.functionReady n bad) s =
      out (s.sec.bootFails.foldl (fun s e => s.modEvent 0x8001 [.h e.1, .h 1, .h e.2]) { s1 with sec := { s.sec with bootFails := [] } })) ∧
    (may → (1 ≤ n.val ∧ n.val ≤ 4) ∨ n.val = 29 → exec (.functionReady n bad) s = out s1) ∧
    (may → 5 ≤ n.val → n.val ≤ 12 →
      exec (.functionReady n bad) s = out ((bad.filter (fun c => decide (c / 32 = n.val - 5))).foldl (fun s c => s.condemn 3 c) s1)) ∧
    (may → 13 ≤ n.val → n.val ≤ 28 →
      let x := s.port (n.val - 13)
      exec (.functionReady n bad) s = out (s1.setPort (n.val - 13) (inState x (if x.en.force then .detect else .disabled) s.now))) ∧
    (may → 30 ≤ n.val →
      let b := n.val - 30
      let sites := (List.range 64).map (fun k => 56 * (8 * (b / 7) + k / 8) + 8 * (b % 7) + k % 8)
      let s2 := (sites.filter (fun x => decide (x ∈ bad))).foldl (fun s x => s.condemnSite x) s1
      let s3 := sites.foldl (fun s x => s.setSiteTile x (wipedWhole (s.siteTile x))) s2
      let tested (s : State) (x : Nat) : State := match s.seatedAt x with
        | some l => { s with faults := { s.faults with tested := Tab.put s.faults.tested l s.now } }
        | none => s
      exec (.functionReady n bad) s = out (sites.foldl tested s3))

/-- R505: a site that leaves service: a tile of no partition that sat there is seated on a free substitute of its die; UNIT_RETIRED tells how many are left. One that holds a
duty stays until its recess. -/
def Sys2Proof.Claims.sitesLeave : Prop :=
  ∀ (s : State) (x : Nat),
    let left := s.subsLeft (dieOf x)
    (s.seatedAt x = none → s.condemnSite x = outOfService s 1 x left) ∧
    (∀ l, s.seatedAt x = some l → (s.seat l).valid = true → s.condemnSite x = s) ∧
    (∀ l y, s.seatedAt x = some l → (s.seat l).valid = false → s.substitute none l = some y →
      s.condemnSite x = outOfService (s.setSeat l ⟨y, 0, false, false⟩) 1 x (left - 1)) ∧
    (∀ l, s.seatedAt x = some l → (s.seat l).valid = false → s.substitute none l = none → s.condemnSite x = outOfService s 1 x 0)

/-- R518, R534, R535, Table 18.1: BRINGUP_TIMEOUT outside production test: the function's timer, of 3 s, or 5 s for a stack, 2 s for a port and 1 s for the locker, has run out, or
its test has failed; a die takes its stacks, ports and blocks with it, and the command board's failure is recovery. -/
def Sys2Proof.Claims.functionsFail : Prop :=
  ∀ (s : State) (n : Fin 79) (test : Bool),
    let beyond : Prop := isReady s.up n = true ∨ isFailed s.up n = true ∨ s.up.testMode = true
    let timer := if 5 ≤ n.val ∧ n.val ≤ 12 then 5000000000 else if 13 ≤ n.val ∧ n.val ≤ 28 then 2000000000 else if n.val = 29 then 1000000000 else 3000000000
    let s1 := unitFails (timeAt s timer) n (if test then 2 else 1)
    (beyond → exec (.bringupTimeout n test) s = .next s) ∧
    (¬ beyond → n.val = 0 → exec (.bringupTimeout n test) s = .next (readinessTold { s1 with up := { s1.up with recovery := true } })) ∧
    (¬ beyond → 1 ≤ n.val → n.val ≤ 4 →
      let d := n.val - 1
      let blocks := (List.range 49).filter (fun b => (if d % 2 = 0 then decide (b % 7 ≤ 3) else decide (3 ≤ b % 7)) && (if d / 2 = 0 then decide (b / 7 ≤ 3) else decide (3 ≤ b / 7)))
      let behind := [5 + 2 * d, 6 + 2 * d] ++ (List.range 4).map (fun k => 13 + 4 * d + k) ++ blocks.map (fun b => 30 + b)
      exec (.bringupTimeout n test) s = .next (readinessTold (behind.foldl (fun s m => unitFails s m 3) s1))) ∧
    (¬ beyond → 5 ≤ n.val → exec (.bringupTimeout n test) s = .next (readinessTold s1))

/-- R404, R537, R540: the PCIe port trains once PERST# is deasserted and 20 ms have passed; a host that enters compliance takes the link down, which resets every function as a hot
reset does. -/
def Sys2Proof.Claims.hostPortStarts : Prop :=
  ∀ (s : State),
    (s.up.rails ≠ 0 → exec .perstDeassert s = .next { timeAt s 20000000 with up := { s.up with perst := true, link := true, compliance := false } }) ∧
    (s.up.rails = 0 → exec .perstDeassert s = .next s) ∧
    (∀ t, s.up.perst = true → exec .hotReset s = .next t → exec .enterCompliance s = .next { t with up := { s.up with link := false, compliance := true } }) ∧
    (s.up.perst = false → exec .enterCompliance s = .next s)

/-- R529, R539, Table 18.4: the test access port in every mode: BYPASS, IDCODE, SAMPLE, PRELOAD; every other instruction in production-test mode only, and as BYPASS outside it. -/
def Sys2Proof.Claims.testPort : Prop :=
  ∀ (s : State) (pins bits : List Bool) (h : StackIx) (lanes : BitVec 64),
    let u := s.up
    let to_ (v : Bringup) : Answer := .next { s with up := v }
    let bypassed : Answer := to_ { u with ir := .bypass, dr := [false], drive := 0 }
    exec .bypass s = bypassed ∧
    exec .idcode s = to_ { u with ir := .idcode, drive := 0, dr := (List.range 32).map (fun k => (Config.stepping.toNat % 16 * 2 ^ 28 + 0x047045CB).testBit k) } ∧
    exec (.sample pins) s = to_ { u with ir := .sample, dr := pins, drive := 0 } ∧
    exec (.preload bits) s = to_ { u with ir := .preload, dr := u.cells, cells := bits, drive := 0 } ∧
    (u.testMode = true →
      exec (.extest pins bits) s = to_ { u with ir := .extest, dr := pins, cells := bits, drive := 1 } ∧
      exec (.extestPulse pins bits) s = to_ { u with ir := .extestPulse, dr := pins, cells := bits, drive := 1 } ∧
      exec (.extestTrain pins bits) s = to_ { u with ir := .extestTrain, dr := pins, cells := bits, drive := 1 } ∧
      exec .clamp s = to_ { u with ir := .clamp, dr := [false], drive := 1 } ∧
      exec .highz s = to_ { u with ir := .highz, dr := [false], drive := 2 } ∧
      exec (.hbmWir h bits) s = to_ { u with ir := .hbmWir, dr := u.wir[h], wir := u.wir.set h bits, drive := 0 } ∧
      exec (.hbmWdr h bits) s = to_ { u with ir := .hbmWdr, dr := u.wdr[h], wdr := u.wdr.set h bits, drive := 0 } ∧
      exec (.laneTest lanes pins) s = to_ { u with ir := .laneTest, dr := pins, lanes := lanes, drive := 0 }) ∧
    (u.testMode = false → ∀ i ∈ [Instr.extest pins bits, .extestPulse pins bits, .extestTrain pins bits, .clamp, .highz, .hbmWir h bits, .hbmWdr h bits, .laneTest lanes pins],
      exec i s = bypassed)

/-- R37, R71, R91, R105, R138, R152, R182, R201, R212, R245, R308: a tile after a wipe, which is what every site holds at power-on. -/
def Sys2Proof.Claims.tilesAtReset : Prop :=
  (∀ x, State.reset.siteTile x = Tile.wiped) ∧
    (let t := Tile.wiped
     t.core.run = .idle ∧ (∀ r : Reg, t.core.rd r = 0) ∧ t.core.pc = 0 ∧ (∀ k : Fin 8, t.core.tokens[k] = 0) ∧ t.core.wait = none ∧
     t.core.waitlimit = 0x100000000 ∧ t.core.evec = 0 ∧ t.core.cause = 0 ∧ t.core.instret = 0 ∧
     t.mxq.waiting = [] ∧ t.vxq.waiting = [] ∧ t.xcq.waiting = [] ∧
     (∀ a, Mem.read t.pad.mem a = 0) ∧ (∀ w, Tab.get false t.pad.full w = false) ∧ (∀ c : Fin 16, t.pad.ctr[c] = 0) ∧ (∀ h : Fin 64, hValid t.pad.h[h] = false) ∧
     (∀ (r : Fin 64) (k : Fin 32), t.mx.acc[r][k] = 0) ∧ (∀ r : Fin 64, t.mx.acnt[r] = 0) ∧ t.mx.p0 = none ∧ t.mx.p1 = none ∧ t.mx.chain = [] ∧
     t.mx.srk = 0x1000 ∧ t.mx.sig = 0xFFFFFFFFFFFFFFFF ∧
     t.sr.rollen = true ∧ t.sr.rollbit = 7 ∧ t.sr.ovfmask = 0 ∧
     t.vx.vl = 16 ∧ (∀ a, Mem.read t.vx.cache a = 0) ∧ (∀ k : Fin 4, t.vx.prog[k] = []) ∧
     (∀ e : Fin 16, t.xc.ep[e].state = .idle) ∧
     (∀ b : Fin 64, t.bl.bells[b].next = 0 ∧ t.bl.bells[b].rel = 0xE00) ∧ t.bl.run = false)

/-- The reset column of Tables 10.11, 10.12, 11.10, 13.5, 13.6, 13.9, 13.11, 14.7, 15.6 and 16.5, as the physical function's BAR0 shows the module at power-on. -/
def Sys2Proof.Claims.registersAtReset : Prop :=
  let r (off : Nat) : Word := State.reset.barWord 0 off
  State.reset.now = 0 ∧
  (∀ k : Fin 6, r (0x0010000 + 8 * k.val) = 0) ∧
  (∀ k : Fin 16, r (0x0200000 + 8 * k.val) = if k = 7 then 0x44C else 0) ∧
  (∀ k : Fin 13, r (0x0140000 + 8 * k.val) = if k = 1 then 0x0A else 0) ∧ (∀ k : Fin 16, r (0x0140100 + 8 * k.val) = 0) ∧
  (∀ k : Fin 8, r (0x0300000 + 8 * k.val) = if k = 1 then 0x0A else if k = 2 then 0x3FE else 0) ∧
  (∀ (p : PartIx) (k : Fin 14), r (0x0210000 + 0x1000 * p.val + 8 * k.val) = 0) ∧ (∀ p : PartIx, r (0x0220000 + 0x10 * p.val) = 0) ∧
  (∀ (q : PortIx) (k : Fin 20), r (0x0230000 + 0x100 * q.val + 8 * k.val) = if k = 3 then 0x11 else 0) ∧
  (∀ k : Fin 13, r (0x0240000 + 8 * k.val) =
    if k = 0 then 0x1F01 else if k = 1 then 0x44C044C044C else if k = 4 then 0x3E8 else if k = 6 then 0x1F1F1F1F1F1F1F1F else 0) ∧
  (∀ (p : PartIx) (k : Fin 17), r (0x0250000 + 0x1000 * p.val + 8 * k.val) = if k = 12 then 0x100 else 0)

/-- With no command waiting, a step is one ns of module time, in which the ports send what falls due and running tiles' islands lose the
pulses withheld (the model's choice: assumption 1); everything else stays. -/
def Sys2Proof.Claims.idleStep : Prop :=
  ∀ (s : State), s.pending = [] →
    ∃ ports tiles, step s = .next { s with now := s.now + 1, ports := ports, tiles := tiles } ∧
      (∀ x, s.siteRuns x = false → Tab.get .wiped tiles x = s.siteTile x)

/-- Section 16.1, R490: nothing in the block stops it: every command, in every state, leaves a next state. -/
def Sys2Proof.Claims.alwaysGoesOn : Prop := ∀ (s : State) (c : Instr), goesOn (exec c s) = true

/-- A command changes nothing of the queue of those that wait behind it (the model's choice: the queue is the model's own). -/
def Sys2Proof.Claims.queueKept : Prop := ∀ (s t : State) (c : Instr), exec c s = .next t → t.pending = s.pending

/-- R512: a fuse, once blown, cannot be restored: by no step, whatever the command. -/
def Sys2Proof.Claims.fusesStay : Prop := ∀ s t : State, step s = .next t → fusesKept s.sec.otp t.sec.otp

/-- Every addressed store keeps its one canonical form through every step, so that equal contents are equal data. -/
def Sys2Proof.Claims.storesStay : Prop := ∀ s t : State, storesOk s = true → step s = .next t → storesOk t = true

/-- The stores of the module at power-on are in canonical form. -/
def Sys2Proof.Claims.storesAtReset : Prop := storesOk State.reset = true

/-- R73, R405: module time never runs backward but at a power-fail, after which the next module power-on starts it at zero. -/
def Sys2Proof.Claims.timeAdvances : Prop :=
  ∀ (s t : State) (c : Instr), exec c s = .next t → c ≠ .powerFail → s.now ≤ t.now

/-- R410: a readiness bit, once 1, stays 1 for the rest of the module's life: through every command but the power-fail that ends it. -/
def Sys2Proof.Claims.readinessStays : Prop :=
  ∀ (s t : State) (c : Instr), exec c s = .next t → c ≠ .powerFail →
    s.up.ready &&& t.up.ready = s.up.ready ∧ s.up.blocks &&& t.up.blocks = s.up.blocks

/-! ### The statements -/

/-- A step takes the command at the front of the queue: exec of it on the state with the queue's rest. Where the manual leaves a reading or a value open,
the clauses take the model's choice: assumption 46. -/
def Obligations.StepTakesTheFrontCommand : Prop :=
  Claims.stepTakesFront

/-- With no command waiting a step is one ns of module time (the model's choice, assumption 1). Where the manual leaves a reading or a value open, the
clauses take the model's choice: assumption 1. -/
def Obligations.IdleStepIsOneNanosecond : Prop :=
  Claims.idleStep

/-- What power-on leaves: the tiles as wiped, the registers at the reset column of their tables, the stores in canonical form. Where the manual leaves a
reading or a value open, the clauses take the model's choice: assumptions 3, 5. -/
def Obligations.ModuleAfterPowerOn : Prop :=
  Claims.tilesAtReset ∧ Claims.registersAtReset ∧ Claims.storesAtReset

/-- No step restores a blown fuse, changes a root key, or replaces a UDS outside BLANK. Where the manual leaves a reading or a value open, the clauses
take the model's choice: assumption 41. -/
def Obligations.BlownFusesStayBlown : Prop :=
  Claims.fusesStay

/-- Every step keeps every addressed store in its canonical form. Where the manual leaves a reading or a value open, the clauses take the model's choice:
assumption 3. -/
def Obligations.StoresKeepOneCanonicalForm : Prop :=
  Claims.storesStay

/-- No command stops the block or touches the queue, and time runs backward at no command but POWER_FAIL. Where the manual leaves a reading or a value
open, the clauses take the model's choice: assumptions 2, 4, 46. -/
def Obligations.EveryCommandGoesOn : Prop :=
  Claims.alwaysGoesOn ∧ Claims.queueKept ∧ Claims.timeAdvances

/-- A readiness bit that is 1 stays 1 through every command but the power-fail. -/
def Obligations.ReadinessBitsStay : Prop :=
  Claims.readinessStays

/-- What a port spells as control cells or context slots, a port reads back as it was. Where the manual leaves a reading or a value open, the clauses
take the model's choice: assumption 23. -/
def Obligations.WireFormatsReadBack : Prop :=
  Claims.wireReadBack

/-- The register and immediate operations of Table 2.3 write their results and change nothing else. -/
def Obligations.RegisterAndImmediateOperations : Prop :=
  Claims.registerOperations ∧ Claims.immediateOperations

/-- R44: DIV, DIVU, REM and REMU: the quotient or remainder, all ones or the dividend at zero, in 34 tc. -/
def Obligations.DivisionsByRow : Prop :=
  Claims.divisions

/-- Core loads, stores and LA that pass their checks. Where the manual leaves a reading or a value open, the clauses take the model's choice: assumption
19. -/
def Obligations.LoadsAndStores : Prop :=
  Claims.loads ∧ Claims.stores ∧ Claims.localAddress

/-- LD.FE and ST.EF: on a word in their state, in the other state, and when the wait ends. Where the manual leaves a reading or a value open, the clauses
take the model's choice: assumption 19. -/
def Obligations.FullEmptyAccesses : Prop :=
  Claims.fullEmpty

/-- RIGHTS, BOUNDS, MISALIGN, FETCH and ILLEGAL: what raises each, with what information. Where the manual leaves a reading or a value open, the clauses
take the model's choice: assumption 19. -/
def Obligations.RefusedAccessesAndWords : Prop :=
  Claims.accessChecks ∧ Claims.fetchChecked ∧ Claims.reservedFields

/-- Branches, JAL and JALR. Where the manual leaves a reading or a value open, the clauses take the model's choice: assumption 19. -/
def Obligations.BranchesAndJumps : Prop :=
  Claims.branches ∧ Claims.jumps

/-- ENTER, ARRIVE and WAIT of a tile, with BELL_WAIT_COMPLETE. Where the manual leaves a reading or a value open, the clauses take the model's choice:
assumption 16. -/
def Obligations.BellEntriesOfATile : Prop :=
  Claims.bellEntry ∧ Claims.bellWaits

/-- A bell entered two epochs ahead; arrivals at the bell unit and notices of children. Where the manual leaves a reading or a value open, the clauses
take the model's choice: assumptions 18, 26. -/
def Obligations.BellOverruns : Prop :=
  Claims.bellOverrun ∧ Claims.arrivalsCounted

/-- WAITC, TSIG, TWAIT, FENCE and HALT, the ends of their waits, and WAIT_LIMIT. Where the manual leaves a reading or a value open, the clauses take the
model's choice: assumptions 16, 18. -/
def Obligations.WaitsAndHalts : Prop :=
  Claims.synchronisation ∧ Claims.waitsEnd ∧ Claims.waitLimits ∧ Claims.halts

/-- EXC, ERET and the handler; an exception that no handler takes halts the tile. Where the manual leaves a reading or a value open, the clauses take the
model's choice: assumption 19. -/
def Obligations.ExceptionsAndHandlers : Prop :=
  Claims.handlers ∧ Claims.exceptionsHalt

/-- CSR.R and CSR.W of the tile control registers, scale records, subscriptions, and the walker's RUN. -/
def Obligations.TileControlRegisters : Prop :=
  Claims.registerReads ∧ Claims.registerWrites ∧ Claims.recordAndSubscriptionWrites ∧ Claims.walkerControl

/-- R81: Writes of the handle table: the four conditions, and what the module does when one fails. -/
def Obligations.HandleTableWrites : Prop :=
  Claims.handleWrites

/-- ENGINE_ISSUE, the waits for an entry or a pending register, completion of an engine instruction; counter writes. Where the manual leaves a reading or
a value open, the clauses take the model's choice: assumption 16. -/
def Obligations.EngineQueues : Prop :=
  Claims.engineIssue ∧ Claims.heldIssue ∧ Claims.pendingRegisters ∧ Claims.completions ∧ Claims.counterWrites

/-- MX.LOAD, MX.STORE, MX.PASS and MX.ALOAD. Where the manual leaves a reading or a value open, the clauses take the model's choice: assumptions 16, 21. -/
def Obligations.MatrixMoves : Prop :=
  Claims.matrixLoads ∧ Claims.matrixStores ∧ Claims.matrixPassAndLoad

/-- MX.FWD, MX.DGRAD and MX.WGRAD: what each pass adds to its accumulator. Where the manual leaves a reading or a value open, the clauses take the
model's choice: assumptions 16, 21. -/
def Obligations.MatrixPasses : Prop :=
  Claims.matrixComputes

/-- The vector engine outside runs: settings, programs, the operand cache and the exact sums. Where the manual leaves a reading or a value open, the
clauses take the model's choice: assumption 16. -/
def Obligations.VectorSettings : Prop :=
  Claims.vectorSets ∧ Claims.vectorTransfers ∧ Claims.exactSums

/-- VX.RUN, VX.CMPR and VX.EXPD: the run as a whole and what one vector writes. Where the manual leaves a reading or a value open, the clauses take the
model's choice: assumptions 8, 15, 16, 22. -/
def Obligations.VectorRuns : Prop :=
  Claims.vectorRuns ∧ Claims.vectorResults

/-- Opening and closing channels: XC.OPEN, open requests and replies, XC.CLOSE, close markers and notices. Where the manual leaves a reading or a value
open, the clauses take the model's choice: assumption 24. -/
def Obligations.ChannelOpensAndCloses : Prop :=
  Claims.receiveOpens ∧ Claims.sendOpens ∧ Claims.opensAnswered ∧ Claims.closes ∧ Claims.closeMarkers ∧ Claims.senderTold

/-- Messages: XC.SEND, XC.SELECT and XC.DONE, flits, pads and truncations. Where the manual leaves a reading or a value open, the clauses take the
model's choice: assumption 24. -/
def Obligations.ChannelMessages : Prop :=
  Claims.sends ∧ Claims.selections ∧ Claims.consumes ∧ Claims.flits ∧ Claims.padsAndTruncations

/-- XC.PUT and the descriptors WRITE, REDUCE, CBWRITE, ANNOUNCE and DMA; what a tile asks of the module. Where the manual leaves a reading or a value
open, the clauses take the model's choice: assumption 23. -/
def Obligations.ExchangeDescriptors : Prop :=
  Claims.puts ∧ Claims.writesSent ∧ Claims.reducesSent ∧ Claims.boardAndAnnounce ∧ Claims.dmaAccepted ∧ Claims.asked

/-- Remote writes, refusals and their notices, reduction merges, the chalkboard, and chart words. Where the manual leaves a reading or a value open, the
clauses take the model's choice: assumptions 17, 25. -/
def Obligations.RemoteWritesAndCharts : Prop :=
  Claims.remoteWrites ∧ Claims.refusalsNoted ∧ Claims.merges ∧ Claims.grants ∧ Claims.chalkArrives ∧ Claims.chartWords

/-- FREEZE and SCRUB_READ of a scratchpad, and the seating of sites that leave service. Where the manual leaves a reading or a value open, the clauses
take the model's choice: assumptions 9, 20, 29. -/
def Obligations.ScratchpadByItself : Prop :=
  Claims.scratchpadAlone ∧ Claims.sitesLeave

/-- DMA rows and units, row-lookup, copies to the locker, completion, translation faults and their ends. Where the manual leaves a reading or a value
open, the clauses take the model's choice: assumptions 10, 23, 28. -/
def Obligations.DmaTransfers : Prop :=
  Claims.rowsMoved ∧ Claims.rowsNotMoved ∧ Claims.lookups ∧ Claims.unitsCopied ∧ Claims.descriptorsComplete ∧ Claims.faultsEnded

/-- MM_ registers, the regulator, BAR2, patrol scrub and refresh. Where the manual leaves a reading or a value open, the clauses take the model's choice:
assumptions 2, 10, 20, 28, 44. -/
def Obligations.MemoryBlocks : Prop :=
  Claims.memoryApplies ∧ Claims.slotsReleased ∧ Claims.tokensRefill ∧ Claims.windowAccesses ∧ Claims.patrolled ∧ Claims.stacksRefresh

/-- Bells at the bell unit: contributions, the release formed, forwarded, given out and held, and its events. Where the manual leaves a reading or a
value open, the clauses take the model's choice: assumption 26. -/
def Obligations.BellReleases : Prop :=
  Claims.contributions ∧ Claims.releasesFormed ∧ Claims.releasesForwarded ∧ Claims.releasesGiven ∧ Claims.holdsEnd ∧ Claims.releaseEventsTold

/-- RELEASE_APPLY at a tile, the walker's firings, and the lateness thresholds and histograms. Where the manual leaves a reading or a value open, the
clauses take the model's choice: assumptions 12, 26. -/
def Obligations.ReleasesAtTiles : Prop :=
  Claims.releasesReach ∧ Claims.firingsEnd ∧ Claims.latenessKept

/-- Flows at their home: counts, announces held, delivered and expired. Where the manual leaves a reading or a value open, the clauses take the model's
choice: assumption 27. -/
def Obligations.FlowsAndAnnounces : Prop :=
  Claims.flowsCount

/-- A port from pulse to ACTIVE and to DOWN: training, negotiation, lane loss, LK_APPLY. Where the manual leaves a reading or a value open, the clauses
take the model's choice: assumptions 30, 32. -/
def Obligations.PortStates : Prop :=
  Claims.portsTrain ∧ Claims.portsNegotiate ∧ Claims.portsGoDown ∧ Claims.lanesLost ∧ Claims.linkApplies

/-- Frames, slots, contexts, violations, time and throttle cells of a port. Where the manual leaves a reading or a value open, the clauses take the
model's choice: assumptions 30, 31. -/
def Obligations.FramesAndContexts : Prop :=
  Claims.framesReceived ∧ Claims.slotsReceived ∧ Claims.violations ∧ Claims.contextsDelivered ∧ Claims.timeAndThrottle

/-- Commands submitted, ended, late, and their replies. Where the manual leaves a reading or a value open, the clauses take the model's choice:
assumptions 35, 43, 47. -/
def Obligations.CommandBoard : Prop :=
  Claims.commandsSubmitted ∧ Claims.commandsEnd ∧ Claims.commandsLate ∧ Claims.repliesWritten ∧ Claims.completionsMissing

/-- R431: Events written, held or lost, and EV_LOST. -/
def Obligations.EventsHeldOrLost : Prop :=
  Claims.eventsPosted ∧ Claims.heldEventsWritten

/-- BAR0 writes, APPLY of the rings, interrupt moderation, the debug window. Where the manual leaves a reading or a value open, the clauses take the
model's choice: assumptions 34, 43, 44, 48. -/
def Obligations.HostRegisters : Prop :=
  Claims.registersWritten ∧ Claims.boardApplies ∧ Claims.interruptsModerated ∧ Claims.debugWindow

/-- The checks of a command in their order, when it may start, and NEGOTIATE. Where the manual leaves a reading or a value open, the clauses take the
model's choice: assumption 35. -/
def Obligations.CommandChecks : Prop :=
  Claims.commandChecks ∧ Claims.commandOrder ∧ Claims.commandsTurnedAway ∧ Claims.negotiates

/-- QUERY, POWER_QUERY, LOG_READ, GRADEBOOK_READ and DMA_HOST. Where the manual leaves a reading or a value open, the clauses take the model's choice:
assumptions 35, 36, 47. -/
def Obligations.QueriesAndRecords : Prop :=
  Claims.queriesAnswered ∧ Claims.powerQueried ∧ Claims.recordsRead ∧ Claims.hostMemoryMoved

/-- LINK_CTRL and LINK_TEST. Where the manual leaves a reading or a value open, the clauses take the model's choice: assumptions 30, 35. -/
def Obligations.LinkCommands : Prop :=
  Claims.linkCommands

/-- PART_CREATE, the seating of its tiles, wipes and new keys. Where the manual leaves a reading or a value open, the clauses take the model's choice:
assumptions 11, 28, 35, 36. -/
def Obligations.PartitionsCreated : Prop :=
  Claims.keysReplaced ∧ Claims.partitionWiped ∧ Claims.tilesSeated ∧ Claims.partitionsCreated

/-- LOAD_IMAGE, BIND_TIMETABLE and JOB_START, with the checks of their images. Where the manual leaves a reading or a value open, the clauses take the
model's choice: assumptions 13, 35, 45. -/
def Obligations.JobsLoadedAndStarted : Prop :=
  Claims.imageChecks ∧ Claims.tileLoaded ∧ Claims.imagesLoaded ∧ Claims.timetablesBound ∧ Claims.jobsStart

/-- The end of a job, kills, resets, destroys, PARTITION_END and the samples they void. Where the manual leaves a reading or a value open, the clauses
take the model's choice: assumptions 36, 39. -/
def Obligations.JobsEnded : Prop :=
  Claims.jobsEnd ∧ Claims.samplesVoided ∧ Claims.killsTaken ∧ Claims.partitionsEnd

/-- PREEMPT, PREEMPT_SAVE and RESUME. Where the manual leaves a reading or a value open, the clauses take the model's choice: assumptions 20, 36. -/
def Obligations.PreemptionAndResume : Prop :=
  Claims.preemptsAt ∧ Claims.preemption

/-- RECESS, SUBSTITUTE_SWAP, and the tests of tiles, stacks and lanes. Where the manual leaves a reading or a value open, the clauses take the model's
choice: assumptions 36, 37. -/
def Obligations.RecessWorkAndTests : Prop :=
  Claims.tilesMove ∧ Claims.recessWork ∧ Claims.testsRun

/-- Input dips and surges, POWER_FAIL, the rails and POWER_ON. Where the manual leaves a reading or a value open, the clauses take the model's choice:
assumption 38. -/
def Obligations.PowerInputAndRails : Prop :=
  Claims.inputWatched ∧ Claims.powerFails ∧ Claims.railsRise

/-- The cap loops, the estimator, cap requests and the side band. Where the manual leaves a reading or a value open, the clauses take the model's choice:
assumptions 33, 38, 39. -/
def Obligations.PowerCaps : Prop :=
  Claims.capLoops ∧ Claims.estimatorJudged ∧ Claims.capsSet ∧ Claims.sideBand

/-- Droop, heat, throttle notices, the fraction of an island, and coolant. Where the manual leaves a reading or a value open, the clauses take the
model's choice: assumptions 32, 38. -/
def Obligations.DroopHeatAndThrottle : Prop :=
  Claims.droops ∧ Claims.heatAnswered ∧ Claims.throttled ∧ Claims.fractions ∧ Claims.coolantWatched

/-- Signatures, manifests, boot, staging, FW_STAGE and FW_ACTIVATE. Where the manual leaves a reading or a value open, the clauses take the model's
choice: assumptions 6, 13, 40. -/
def Obligations.FirmwareStores : Prop :=
  Claims.signatureChecks ∧ Claims.manifestsChecked ∧ Claims.bootOrder ∧ Claims.boots ∧ Claims.packagesStaged ∧ Claims.firmwareCommands

/-- The steps of an activation, and the updates that come through Prigar. Where the manual leaves a reading or a value open, the clauses take the model's
choice: assumptions 33, 40, 49. -/
def Obligations.FirmwareActivation : Prop :=
  Claims.activationSteps ∧ Claims.activationWaits ∧ Claims.prigarUpdates

/-- ATTEST and the SPDM responder. Where the manual leaves a reading or a value open, the clauses take the model's choice: assumptions 13, 14. -/
def Obligations.AttestationAndSpdm : Prop :=
  Claims.attests ∧ Claims.spdmAnswers

/-- The checks of an authorization, LIFECYCLE, and the wipe that completes it. Where the manual leaves a reading or a value open, the clauses take the
model's choice: assumptions 11, 13, 39, 41. -/
def Obligations.LifeCycleChanges : Prop :=
  Claims.authorizations ∧ Claims.lifeCycle

/-- Events in the gradebook, permanent faults, GRADEBOOK_FLUSH and restarts of control cores. Where the manual leaves a reading or a value open, the
clauses take the model's choice: assumptions 32, 39, 49. -/
def Obligations.GradebookAndUnits : Prop :=
  Claims.eventsGraded ∧ Claims.unitsCondemned ∧ Claims.gradebookFlushed ∧ Claims.coresRestart

/-- Class D errors: detection, and CLASS_D_RESET with its countersigning. Where the manual leaves a reading or a value open, the clauses take the model's
choice: assumptions 39, 50. -/
def Obligations.ClassDErrors : Prop :=
  Claims.classDDetected ∧ Claims.classDResets

/-- PROCTOR_COMPARE and PROCTOR_VERDICT. Where the manual leaves a reading or a value open, the clauses take the model's choice: assumptions 12, 17. -/
def Obligations.ProctorVerdicts : Prop :=
  Claims.proctorCompares ∧ Claims.proctorJudges

/-- FUNCTION_READY, BRINGUP_TIMEOUT, PERST# and compliance. Where the manual leaves a reading or a value open, the clauses take the model's choice:
assumptions 32, 42. -/
def Obligations.BringUpOfFunctions : Prop :=
  Claims.functionsReady ∧ Claims.functionsFail ∧ Claims.hostPortStarts

/-- The instructions of the test access port, in and outside production test. Where the manual leaves a reading or a value open, the clauses take the
model's choice: assumption 42. -/
def Obligations.TestAccessPort : Prop :=
  Claims.testPort
end

