-- ==== Sys2Proof/Laws/State.lean ====
section
/-! SUPPORT. What the named updates of the whole state and the shared operations over it leave alone: for each, every field that it does not touch
(`Ops.lean`, `Gradebook.lean`, `Perform.lean`). A field read after an update is a rewrite away; no proof unfolds the update. -/

namespace Sys2Proof.Laws

set_option linter.all false

open Sys2Proof Sys2Proof.Machine

/-- A fold keeps what each of its steps keeps. -/
theorem foldl_keeps {σ β γ : Type} (φ : σ → γ) (g : σ → β → σ) (h : ∀ s b, φ (g s b) = φ s) (l : List β) (s : σ) : φ (l.foldl g s) = φ s := by
  induction l generalizing s with
  | nil => rfl
  | cons b l ih => rw [List.foldl_cons, ih, h]

@[simp] theorem setPart_now (s : State) (p : Nat) (x : Part) : (s.setPart p x).now = s.now := by
  unfold State.setPart
  first | rfl | (repeat' split) <;> (first | rfl | simp; done) | dsimp only; (repeat' split) <;> (first | rfl | simp; done)
@[simp] theorem setPart_draws (s : State) (p : Nat) (x : Part) : (s.setPart p x).draws = s.draws := by
  unfold State.setPart
  first | rfl | (repeat' split) <;> (first | rfl | simp; done) | dsimp only; (repeat' split) <;> (first | rfl | simp; done)
@[simp] theorem setPart_tiles (s : State) (p : Nat) (x : Part) : (s.setPart p x).tiles = s.tiles := by
  unfold State.setPart
  first | rfl | (repeat' split) <;> (first | rfl | simp; done) | dsimp only; (repeat' split) <;> (first | rfl | simp; done)
@[simp] theorem setPart_seats (s : State) (p : Nat) (x : Part) : (s.setPart p x).seats = s.seats := by
  unfold State.setPart
  first | rfl | (repeat' split) <;> (first | rfl | simp; done) | dsimp only; (repeat' split) <;> (first | rfl | simp; done)
@[simp] theorem setPart_board (s : State) (p : Nat) (x : Part) : (s.setPart p x).board = s.board := by
  unfold State.setPart
  first | rfl | (repeat' split) <;> (first | rfl | simp; done) | dsimp only; (repeat' split) <;> (first | rfl | simp; done)
@[simp] theorem setPart_net (s : State) (p : Nat) (x : Part) : (s.setPart p x).net = s.net := by
  unfold State.setPart
  first | rfl | (repeat' split) <;> (first | rfl | simp; done) | dsimp only; (repeat' split) <;> (first | rfl | simp; done)
@[simp] theorem setPart_hbm (s : State) (p : Nat) (x : Part) : (s.setPart p x).hbm = s.hbm := by
  unfold State.setPart
  first | rfl | (repeat' split) <;> (first | rfl | simp; done) | dsimp only; (repeat' split) <;> (first | rfl | simp; done)
@[simp] theorem setPart_locker (s : State) (p : Nat) (x : Part) : (s.setPart p x).locker = s.locker := by
  unfold State.setPart
  first | rfl | (repeat' split) <;> (first | rfl | simp; done) | dsimp only; (repeat' split) <;> (first | rfl | simp; done)
@[simp] theorem setPart_ports (s : State) (p : Nat) (x : Part) : (s.setPart p x).ports = s.ports := by
  unfold State.setPart
  first | rfl | (repeat' split) <;> (first | rfl | simp; done) | dsimp only; (repeat' split) <;> (first | rfl | simp; done)
@[simp] theorem setPart_fns (s : State) (p : Nat) (x : Part) : (s.setPart p x).fns = s.fns := by
  unfold State.setPart
  first | rfl | (repeat' split) <;> (first | rfl | simp; done) | dsimp only; (repeat' split) <;> (first | rfl | simp; done)
@[simp] theorem setPart_cmds (s : State) (p : Nat) (x : Part) : (s.setPart p x).cmds = s.cmds := by
  unfold State.setPart
  first | rfl | (repeat' split) <;> (first | rfl | simp; done) | dsimp only; (repeat' split) <;> (first | rfl | simp; done)
@[simp] theorem setPart_host (s : State) (p : Nat) (x : Part) : (s.setPart p x).host = s.host := by
  unfold State.setPart
  first | rfl | (repeat' split) <;> (first | rfl | simp; done) | dsimp only; (repeat' split) <;> (first | rfl | simp; done)
@[simp] theorem setPart_faults (s : State) (p : Nat) (x : Part) : (s.setPart p x).faults = s.faults := by
  unfold State.setPart
  first | rfl | (repeat' split) <;> (first | rfl | simp; done) | dsimp only; (repeat' split) <;> (first | rfl | simp; done)
@[simp] theorem setPart_power (s : State) (p : Nat) (x : Part) : (s.setPart p x).power = s.power := by
  unfold State.setPart
  first | rfl | (repeat' split) <;> (first | rfl | simp; done) | dsimp only; (repeat' split) <;> (first | rfl | simp; done)
@[simp] theorem setPart_sec (s : State) (p : Nat) (x : Part) : (s.setPart p x).sec = s.sec := by
  unfold State.setPart
  first | rfl | (repeat' split) <;> (first | rfl | simp; done) | dsimp only; (repeat' split) <;> (first | rfl | simp; done)
@[simp] theorem setPart_up (s : State) (p : Nat) (x : Part) : (s.setPart p x).up = s.up := by
  unfold State.setPart
  first | rfl | (repeat' split) <;> (first | rfl | simp; done) | dsimp only; (repeat' split) <;> (first | rfl | simp; done)
@[simp] theorem setPart_pending (s : State) (p : Nat) (x : Part) : (s.setPart p x).pending = s.pending := by
  unfold State.setPart
  first | rfl | (repeat' split) <;> (first | rfl | simp; done) | dsimp only; (repeat' split) <;> (first | rfl | simp; done)

@[simp] theorem modPart_now (s : State) (p : Nat) (f : Part → Part) : (s.modPart p f).now = s.now := by
  unfold State.modPart
  first | rfl | (repeat' split) <;> (first | rfl | simp; done) | dsimp only; (repeat' split) <;> (first | rfl | simp; done)
@[simp] theorem modPart_draws (s : State) (p : Nat) (f : Part → Part) : (s.modPart p f).draws = s.draws := by
  unfold State.modPart
  first | rfl | (repeat' split) <;> (first | rfl | simp; done) | dsimp only; (repeat' split) <;> (first | rfl | simp; done)
@[simp] theorem modPart_tiles (s : State) (p : Nat) (f : Part → Part) : (s.modPart p f).tiles = s.tiles := by
  unfold State.modPart
  first | rfl | (repeat' split) <;> (first | rfl | simp; done) | dsimp only; (repeat' split) <;> (first | rfl | simp; done)
@[simp] theorem modPart_seats (s : State) (p : Nat) (f : Part → Part) : (s.modPart p f).seats = s.seats := by
  unfold State.modPart
  first | rfl | (repeat' split) <;> (first | rfl | simp; done) | dsimp only; (repeat' split) <;> (first | rfl | simp; done)
@[simp] theorem modPart_board (s : State) (p : Nat) (f : Part → Part) : (s.modPart p f).board = s.board := by
  unfold State.modPart
  first | rfl | (repeat' split) <;> (first | rfl | simp; done) | dsimp only; (repeat' split) <;> (first | rfl | simp; done)
@[simp] theorem modPart_net (s : State) (p : Nat) (f : Part → Part) : (s.modPart p f).net = s.net := by
  unfold State.modPart
  first | rfl | (repeat' split) <;> (first | rfl | simp; done) | dsimp only; (repeat' split) <;> (first | rfl | simp; done)
@[simp] theorem modPart_hbm (s : State) (p : Nat) (f : Part → Part) : (s.modPart p f).hbm = s.hbm := by
  unfold State.modPart
  first | rfl | (repeat' split) <;> (first | rfl | simp; done) | dsimp only; (repeat' split) <;> (first | rfl | simp; done)
@[simp] theorem modPart_locker (s : State) (p : Nat) (f : Part → Part) : (s.modPart p f).locker = s.locker := by
  unfold State.modPart
  first | rfl | (repeat' split) <;> (first | rfl | simp; done) | dsimp only; (repeat' split) <;> (first | rfl | simp; done)
@[simp] theorem modPart_ports (s : State) (p : Nat) (f : Part → Part) : (s.modPart p f).ports = s.ports := by
  unfold State.modPart
  first | rfl | (repeat' split) <;> (first | rfl | simp; done) | dsimp only; (repeat' split) <;> (first | rfl | simp; done)
@[simp] theorem modPart_fns (s : State) (p : Nat) (f : Part → Part) : (s.modPart p f).fns = s.fns := by
  unfold State.modPart
  first | rfl | (repeat' split) <;> (first | rfl | simp; done) | dsimp only; (repeat' split) <;> (first | rfl | simp; done)
@[simp] theorem modPart_cmds (s : State) (p : Nat) (f : Part → Part) : (s.modPart p f).cmds = s.cmds := by
  unfold State.modPart
  first | rfl | (repeat' split) <;> (first | rfl | simp; done) | dsimp only; (repeat' split) <;> (first | rfl | simp; done)
@[simp] theorem modPart_host (s : State) (p : Nat) (f : Part → Part) : (s.modPart p f).host = s.host := by
  unfold State.modPart
  first | rfl | (repeat' split) <;> (first | rfl | simp; done) | dsimp only; (repeat' split) <;> (first | rfl | simp; done)
@[simp] theorem modPart_faults (s : State) (p : Nat) (f : Part → Part) : (s.modPart p f).faults = s.faults := by
  unfold State.modPart
  first | rfl | (repeat' split) <;> (first | rfl | simp; done) | dsimp only; (repeat' split) <;> (first | rfl | simp; done)
@[simp] theorem modPart_power (s : State) (p : Nat) (f : Part → Part) : (s.modPart p f).power = s.power := by
  unfold State.modPart
  first | rfl | (repeat' split) <;> (first | rfl | simp; done) | dsimp only; (repeat' split) <;> (first | rfl | simp; done)
@[simp] theorem modPart_sec (s : State) (p : Nat) (f : Part → Part) : (s.modPart p f).sec = s.sec := by
  unfold State.modPart
  first | rfl | (repeat' split) <;> (first | rfl | simp; done) | dsimp only; (repeat' split) <;> (first | rfl | simp; done)
@[simp] theorem modPart_up (s : State) (p : Nat) (f : Part → Part) : (s.modPart p f).up = s.up := by
  unfold State.modPart
  first | rfl | (repeat' split) <;> (first | rfl | simp; done) | dsimp only; (repeat' split) <;> (first | rfl | simp; done)
@[simp] theorem modPart_pending (s : State) (p : Nat) (f : Part → Part) : (s.modPart p f).pending = s.pending := by
  unfold State.modPart
  first | rfl | (repeat' split) <;> (first | rfl | simp; done) | dsimp only; (repeat' split) <;> (first | rfl | simp; done)

@[simp] theorem setPort_now (s : State) (k : Nat) (x : Port) : (s.setPort k x).now = s.now := by
  unfold State.setPort
  first | rfl | (repeat' split) <;> (first | rfl | simp; done) | dsimp only; (repeat' split) <;> (first | rfl | simp; done)
@[simp] theorem setPort_draws (s : State) (k : Nat) (x : Port) : (s.setPort k x).draws = s.draws := by
  unfold State.setPort
  first | rfl | (repeat' split) <;> (first | rfl | simp; done) | dsimp only; (repeat' split) <;> (first | rfl | simp; done)
@[simp] theorem setPort_tiles (s : State) (k : Nat) (x : Port) : (s.setPort k x).tiles = s.tiles := by
  unfold State.setPort
  first | rfl | (repeat' split) <;> (first | rfl | simp; done) | dsimp only; (repeat' split) <;> (first | rfl | simp; done)
@[simp] theorem setPort_seats (s : State) (k : Nat) (x : Port) : (s.setPort k x).seats = s.seats := by
  unfold State.setPort
  first | rfl | (repeat' split) <;> (first | rfl | simp; done) | dsimp only; (repeat' split) <;> (first | rfl | simp; done)
@[simp] theorem setPort_board (s : State) (k : Nat) (x : Port) : (s.setPort k x).board = s.board := by
  unfold State.setPort
  first | rfl | (repeat' split) <;> (first | rfl | simp; done) | dsimp only; (repeat' split) <;> (first | rfl | simp; done)
@[simp] theorem setPort_net (s : State) (k : Nat) (x : Port) : (s.setPort k x).net = s.net := by
  unfold State.setPort
  first | rfl | (repeat' split) <;> (first | rfl | simp; done) | dsimp only; (repeat' split) <;> (first | rfl | simp; done)
@[simp] theorem setPort_parts (s : State) (k : Nat) (x : Port) : (s.setPort k x).parts = s.parts := by
  unfold State.setPort
  first | rfl | (repeat' split) <;> (first | rfl | simp; done) | dsimp only; (repeat' split) <;> (first | rfl | simp; done)
@[simp] theorem setPort_hbm (s : State) (k : Nat) (x : Port) : (s.setPort k x).hbm = s.hbm := by
  unfold State.setPort
  first | rfl | (repeat' split) <;> (first | rfl | simp; done) | dsimp only; (repeat' split) <;> (first | rfl | simp; done)
@[simp] theorem setPort_locker (s : State) (k : Nat) (x : Port) : (s.setPort k x).locker = s.locker := by
  unfold State.setPort
  first | rfl | (repeat' split) <;> (first | rfl | simp; done) | dsimp only; (repeat' split) <;> (first | rfl | simp; done)
@[simp] theorem setPort_fns (s : State) (k : Nat) (x : Port) : (s.setPort k x).fns = s.fns := by
  unfold State.setPort
  first | rfl | (repeat' split) <;> (first | rfl | simp; done) | dsimp only; (repeat' split) <;> (first | rfl | simp; done)
@[simp] theorem setPort_cmds (s : State) (k : Nat) (x : Port) : (s.setPort k x).cmds = s.cmds := by
  unfold State.setPort
  first | rfl | (repeat' split) <;> (first | rfl | simp; done) | dsimp only; (repeat' split) <;> (first | rfl | simp; done)
@[simp] theorem setPort_host (s : State) (k : Nat) (x : Port) : (s.setPort k x).host = s.host := by
  unfold State.setPort
  first | rfl | (repeat' split) <;> (first | rfl | simp; done) | dsimp only; (repeat' split) <;> (first | rfl | simp; done)
@[simp] theorem setPort_faults (s : State) (k : Nat) (x : Port) : (s.setPort k x).faults = s.faults := by
  unfold State.setPort
  first | rfl | (repeat' split) <;> (first | rfl | simp; done) | dsimp only; (repeat' split) <;> (first | rfl | simp; done)
@[simp] theorem setPort_power (s : State) (k : Nat) (x : Port) : (s.setPort k x).power = s.power := by
  unfold State.setPort
  first | rfl | (repeat' split) <;> (first | rfl | simp; done) | dsimp only; (repeat' split) <;> (first | rfl | simp; done)
@[simp] theorem setPort_sec (s : State) (k : Nat) (x : Port) : (s.setPort k x).sec = s.sec := by
  unfold State.setPort
  first | rfl | (repeat' split) <;> (first | rfl | simp; done) | dsimp only; (repeat' split) <;> (first | rfl | simp; done)
@[simp] theorem setPort_up (s : State) (k : Nat) (x : Port) : (s.setPort k x).up = s.up := by
  unfold State.setPort
  first | rfl | (repeat' split) <;> (first | rfl | simp; done) | dsimp only; (repeat' split) <;> (first | rfl | simp; done)
@[simp] theorem setPort_pending (s : State) (k : Nat) (x : Port) : (s.setPort k x).pending = s.pending := by
  unfold State.setPort
  first | rfl | (repeat' split) <;> (first | rfl | simp; done) | dsimp only; (repeat' split) <;> (first | rfl | simp; done)

@[simp] theorem setFn_now (s : State) (f : Nat) (x : Fn) : (s.setFn f x).now = s.now := by
  unfold State.setFn
  first | rfl | (repeat' split) <;> (first | rfl | simp; done) | dsimp only; (repeat' split) <;> (first | rfl | simp; done)
@[simp] theorem setFn_draws (s : State) (f : Nat) (x : Fn) : (s.setFn f x).draws = s.draws := by
  unfold State.setFn
  first | rfl | (repeat' split) <;> (first | rfl | simp; done) | dsimp only; (repeat' split) <;> (first | rfl | simp; done)
@[simp] theorem setFn_tiles (s : State) (f : Nat) (x : Fn) : (s.setFn f x).tiles = s.tiles := by
  unfold State.setFn
  first | rfl | (repeat' split) <;> (first | rfl | simp; done) | dsimp only; (repeat' split) <;> (first | rfl | simp; done)
@[simp] theorem setFn_seats (s : State) (f : Nat) (x : Fn) : (s.setFn f x).seats = s.seats := by
  unfold State.setFn
  first | rfl | (repeat' split) <;> (first | rfl | simp; done) | dsimp only; (repeat' split) <;> (first | rfl | simp; done)
@[simp] theorem setFn_board (s : State) (f : Nat) (x : Fn) : (s.setFn f x).board = s.board := by
  unfold State.setFn
  first | rfl | (repeat' split) <;> (first | rfl | simp; done) | dsimp only; (repeat' split) <;> (first | rfl | simp; done)
@[simp] theorem setFn_net (s : State) (f : Nat) (x : Fn) : (s.setFn f x).net = s.net := by
  unfold State.setFn
  first | rfl | (repeat' split) <;> (first | rfl | simp; done) | dsimp only; (repeat' split) <;> (first | rfl | simp; done)
@[simp] theorem setFn_parts (s : State) (f : Nat) (x : Fn) : (s.setFn f x).parts = s.parts := by
  unfold State.setFn
  first | rfl | (repeat' split) <;> (first | rfl | simp; done) | dsimp only; (repeat' split) <;> (first | rfl | simp; done)
@[simp] theorem setFn_hbm (s : State) (f : Nat) (x : Fn) : (s.setFn f x).hbm = s.hbm := by
  unfold State.setFn
  first | rfl | (repeat' split) <;> (first | rfl | simp; done) | dsimp only; (repeat' split) <;> (first | rfl | simp; done)
@[simp] theorem setFn_locker (s : State) (f : Nat) (x : Fn) : (s.setFn f x).locker = s.locker := by
  unfold State.setFn
  first | rfl | (repeat' split) <;> (first | rfl | simp; done) | dsimp only; (repeat' split) <;> (first | rfl | simp; done)
@[simp] theorem setFn_ports (s : State) (f : Nat) (x : Fn) : (s.setFn f x).ports = s.ports := by
  unfold State.setFn
  first | rfl | (repeat' split) <;> (first | rfl | simp; done) | dsimp only; (repeat' split) <;> (first | rfl | simp; done)
@[simp] theorem setFn_cmds (s : State) (f : Nat) (x : Fn) : (s.setFn f x).cmds = s.cmds := by
  unfold State.setFn
  first | rfl | (repeat' split) <;> (first | rfl | simp; done) | dsimp only; (repeat' split) <;> (first | rfl | simp; done)
@[simp] theorem setFn_host (s : State) (f : Nat) (x : Fn) : (s.setFn f x).host = s.host := by
  unfold State.setFn
  first | rfl | (repeat' split) <;> (first | rfl | simp; done) | dsimp only; (repeat' split) <;> (first | rfl | simp; done)
@[simp] theorem setFn_faults (s : State) (f : Nat) (x : Fn) : (s.setFn f x).faults = s.faults := by
  unfold State.setFn
  first | rfl | (repeat' split) <;> (first | rfl | simp; done) | dsimp only; (repeat' split) <;> (first | rfl | simp; done)
@[simp] theorem setFn_power (s : State) (f : Nat) (x : Fn) : (s.setFn f x).power = s.power := by
  unfold State.setFn
  first | rfl | (repeat' split) <;> (first | rfl | simp; done) | dsimp only; (repeat' split) <;> (first | rfl | simp; done)
@[simp] theorem setFn_sec (s : State) (f : Nat) (x : Fn) : (s.setFn f x).sec = s.sec := by
  unfold State.setFn
  first | rfl | (repeat' split) <;> (first | rfl | simp; done) | dsimp only; (repeat' split) <;> (first | rfl | simp; done)
@[simp] theorem setFn_up (s : State) (f : Nat) (x : Fn) : (s.setFn f x).up = s.up := by
  unfold State.setFn
  first | rfl | (repeat' split) <;> (first | rfl | simp; done) | dsimp only; (repeat' split) <;> (first | rfl | simp; done)
@[simp] theorem setFn_pending (s : State) (f : Nat) (x : Fn) : (s.setFn f x).pending = s.pending := by
  unfold State.setFn
  first | rfl | (repeat' split) <;> (first | rfl | simp; done) | dsimp only; (repeat' split) <;> (first | rfl | simp; done)

@[simp] theorem modFn_now (s : State) (f : Nat) (g : Fn → Fn) : (s.modFn f g).now = s.now := by
  unfold State.modFn
  first | rfl | (repeat' split) <;> (first | rfl | simp; done) | dsimp only; (repeat' split) <;> (first | rfl | simp; done)
@[simp] theorem modFn_draws (s : State) (f : Nat) (g : Fn → Fn) : (s.modFn f g).draws = s.draws := by
  unfold State.modFn
  first | rfl | (repeat' split) <;> (first | rfl | simp; done) | dsimp only; (repeat' split) <;> (first | rfl | simp; done)
@[simp] theorem modFn_tiles (s : State) (f : Nat) (g : Fn → Fn) : (s.modFn f g).tiles = s.tiles := by
  unfold State.modFn
  first | rfl | (repeat' split) <;> (first | rfl | simp; done) | dsimp only; (repeat' split) <;> (first | rfl | simp; done)
@[simp] theorem modFn_seats (s : State) (f : Nat) (g : Fn → Fn) : (s.modFn f g).seats = s.seats := by
  unfold State.modFn
  first | rfl | (repeat' split) <;> (first | rfl | simp; done) | dsimp only; (repeat' split) <;> (first | rfl | simp; done)
@[simp] theorem modFn_board (s : State) (f : Nat) (g : Fn → Fn) : (s.modFn f g).board = s.board := by
  unfold State.modFn
  first | rfl | (repeat' split) <;> (first | rfl | simp; done) | dsimp only; (repeat' split) <;> (first | rfl | simp; done)
@[simp] theorem modFn_net (s : State) (f : Nat) (g : Fn → Fn) : (s.modFn f g).net = s.net := by
  unfold State.modFn
  first | rfl | (repeat' split) <;> (first | rfl | simp; done) | dsimp only; (repeat' split) <;> (first | rfl | simp; done)
@[simp] theorem modFn_parts (s : State) (f : Nat) (g : Fn → Fn) : (s.modFn f g).parts = s.parts := by
  unfold State.modFn
  first | rfl | (repeat' split) <;> (first | rfl | simp; done) | dsimp only; (repeat' split) <;> (first | rfl | simp; done)
@[simp] theorem modFn_hbm (s : State) (f : Nat) (g : Fn → Fn) : (s.modFn f g).hbm = s.hbm := by
  unfold State.modFn
  first | rfl | (repeat' split) <;> (first | rfl | simp; done) | dsimp only; (repeat' split) <;> (first | rfl | simp; done)
@[simp] theorem modFn_locker (s : State) (f : Nat) (g : Fn → Fn) : (s.modFn f g).locker = s.locker := by
  unfold State.modFn
  first | rfl | (repeat' split) <;> (first | rfl | simp; done) | dsimp only; (repeat' split) <;> (first | rfl | simp; done)
@[simp] theorem modFn_ports (s : State) (f : Nat) (g : Fn → Fn) : (s.modFn f g).ports = s.ports := by
  unfold State.modFn
  first | rfl | (repeat' split) <;> (first | rfl | simp; done) | dsimp only; (repeat' split) <;> (first | rfl | simp; done)
@[simp] theorem modFn_cmds (s : State) (f : Nat) (g : Fn → Fn) : (s.modFn f g).cmds = s.cmds := by
  unfold State.modFn
  first | rfl | (repeat' split) <;> (first | rfl | simp; done) | dsimp only; (repeat' split) <;> (first | rfl | simp; done)
@[simp] theorem modFn_host (s : State) (f : Nat) (g : Fn → Fn) : (s.modFn f g).host = s.host := by
  unfold State.modFn
  first | rfl | (repeat' split) <;> (first | rfl | simp; done) | dsimp only; (repeat' split) <;> (first | rfl | simp; done)
@[simp] theorem modFn_faults (s : State) (f : Nat) (g : Fn → Fn) : (s.modFn f g).faults = s.faults := by
  unfold State.modFn
  first | rfl | (repeat' split) <;> (first | rfl | simp; done) | dsimp only; (repeat' split) <;> (first | rfl | simp; done)
@[simp] theorem modFn_power (s : State) (f : Nat) (g : Fn → Fn) : (s.modFn f g).power = s.power := by
  unfold State.modFn
  first | rfl | (repeat' split) <;> (first | rfl | simp; done) | dsimp only; (repeat' split) <;> (first | rfl | simp; done)
@[simp] theorem modFn_sec (s : State) (f : Nat) (g : Fn → Fn) : (s.modFn f g).sec = s.sec := by
  unfold State.modFn
  first | rfl | (repeat' split) <;> (first | rfl | simp; done) | dsimp only; (repeat' split) <;> (first | rfl | simp; done)
@[simp] theorem modFn_up (s : State) (f : Nat) (g : Fn → Fn) : (s.modFn f g).up = s.up := by
  unfold State.modFn
  first | rfl | (repeat' split) <;> (first | rfl | simp; done) | dsimp only; (repeat' split) <;> (first | rfl | simp; done)
@[simp] theorem modFn_pending (s : State) (f : Nat) (g : Fn → Fn) : (s.modFn f g).pending = s.pending := by
  unfold State.modFn
  first | rfl | (repeat' split) <;> (first | rfl | simp; done) | dsimp only; (repeat' split) <;> (first | rfl | simp; done)

@[simp] theorem setSeat_now (s : State) (l : Nat) (e : Seat) : (s.setSeat l e).now = s.now := by
  unfold State.setSeat
  first | rfl | (repeat' split) <;> (first | rfl | simp; done) | dsimp only; (repeat' split) <;> (first | rfl | simp; done)
@[simp] theorem setSeat_draws (s : State) (l : Nat) (e : Seat) : (s.setSeat l e).draws = s.draws := by
  unfold State.setSeat
  first | rfl | (repeat' split) <;> (first | rfl | simp; done) | dsimp only; (repeat' split) <;> (first | rfl | simp; done)
@[simp] theorem setSeat_tiles (s : State) (l : Nat) (e : Seat) : (s.setSeat l e).tiles = s.tiles := by
  unfold State.setSeat
  first | rfl | (repeat' split) <;> (first | rfl | simp; done) | dsimp only; (repeat' split) <;> (first | rfl | simp; done)
@[simp] theorem setSeat_board (s : State) (l : Nat) (e : Seat) : (s.setSeat l e).board = s.board := by
  unfold State.setSeat
  first | rfl | (repeat' split) <;> (first | rfl | simp; done) | dsimp only; (repeat' split) <;> (first | rfl | simp; done)
@[simp] theorem setSeat_net (s : State) (l : Nat) (e : Seat) : (s.setSeat l e).net = s.net := by
  unfold State.setSeat
  first | rfl | (repeat' split) <;> (first | rfl | simp; done) | dsimp only; (repeat' split) <;> (first | rfl | simp; done)
@[simp] theorem setSeat_parts (s : State) (l : Nat) (e : Seat) : (s.setSeat l e).parts = s.parts := by
  unfold State.setSeat
  first | rfl | (repeat' split) <;> (first | rfl | simp; done) | dsimp only; (repeat' split) <;> (first | rfl | simp; done)
@[simp] theorem setSeat_hbm (s : State) (l : Nat) (e : Seat) : (s.setSeat l e).hbm = s.hbm := by
  unfold State.setSeat
  first | rfl | (repeat' split) <;> (first | rfl | simp; done) | dsimp only; (repeat' split) <;> (first | rfl | simp; done)
@[simp] theorem setSeat_locker (s : State) (l : Nat) (e : Seat) : (s.setSeat l e).locker = s.locker := by
  unfold State.setSeat
  first | rfl | (repeat' split) <;> (first | rfl | simp; done) | dsimp only; (repeat' split) <;> (first | rfl | simp; done)
@[simp] theorem setSeat_ports (s : State) (l : Nat) (e : Seat) : (s.setSeat l e).ports = s.ports := by
  unfold State.setSeat
  first | rfl | (repeat' split) <;> (first | rfl | simp; done) | dsimp only; (repeat' split) <;> (first | rfl | simp; done)
@[simp] theorem setSeat_fns (s : State) (l : Nat) (e : Seat) : (s.setSeat l e).fns = s.fns := by
  unfold State.setSeat
  first | rfl | (repeat' split) <;> (first | rfl | simp; done) | dsimp only; (repeat' split) <;> (first | rfl | simp; done)
@[simp] theorem setSeat_cmds (s : State) (l : Nat) (e : Seat) : (s.setSeat l e).cmds = s.cmds := by
  unfold State.setSeat
  first | rfl | (repeat' split) <;> (first | rfl | simp; done) | dsimp only; (repeat' split) <;> (first | rfl | simp; done)
@[simp] theorem setSeat_host (s : State) (l : Nat) (e : Seat) : (s.setSeat l e).host = s.host := by
  unfold State.setSeat
  first | rfl | (repeat' split) <;> (first | rfl | simp; done) | dsimp only; (repeat' split) <;> (first | rfl | simp; done)
@[simp] theorem setSeat_faults (s : State) (l : Nat) (e : Seat) : (s.setSeat l e).faults = s.faults := by
  unfold State.setSeat
  first | rfl | (repeat' split) <;> (first | rfl | simp; done) | dsimp only; (repeat' split) <;> (first | rfl | simp; done)
@[simp] theorem setSeat_power (s : State) (l : Nat) (e : Seat) : (s.setSeat l e).power = s.power := by
  unfold State.setSeat
  first | rfl | (repeat' split) <;> (first | rfl | simp; done) | dsimp only; (repeat' split) <;> (first | rfl | simp; done)
@[simp] theorem setSeat_sec (s : State) (l : Nat) (e : Seat) : (s.setSeat l e).sec = s.sec := by
  unfold State.setSeat
  first | rfl | (repeat' split) <;> (first | rfl | simp; done) | dsimp only; (repeat' split) <;> (first | rfl | simp; done)
@[simp] theorem setSeat_up (s : State) (l : Nat) (e : Seat) : (s.setSeat l e).up = s.up := by
  unfold State.setSeat
  first | rfl | (repeat' split) <;> (first | rfl | simp; done) | dsimp only; (repeat' split) <;> (first | rfl | simp; done)
@[simp] theorem setSeat_pending (s : State) (l : Nat) (e : Seat) : (s.setSeat l e).pending = s.pending := by
  unfold State.setSeat
  first | rfl | (repeat' split) <;> (first | rfl | simp; done) | dsimp only; (repeat' split) <;> (first | rfl | simp; done)

@[simp] theorem setSiteTile_now (s : State) (x : Nat) (t : Tile) : (s.setSiteTile x t).now = s.now := by
  unfold State.setSiteTile
  first | rfl | (repeat' split) <;> (first | rfl | simp; done) | dsimp only; (repeat' split) <;> (first | rfl | simp; done)
@[simp] theorem setSiteTile_draws (s : State) (x : Nat) (t : Tile) : (s.setSiteTile x t).draws = s.draws := by
  unfold State.setSiteTile
  first | rfl | (repeat' split) <;> (first | rfl | simp; done) | dsimp only; (repeat' split) <;> (first | rfl | simp; done)
@[simp] theorem setSiteTile_seats (s : State) (x : Nat) (t : Tile) : (s.setSiteTile x t).seats = s.seats := by
  unfold State.setSiteTile
  first | rfl | (repeat' split) <;> (first | rfl | simp; done) | dsimp only; (repeat' split) <;> (first | rfl | simp; done)
@[simp] theorem setSiteTile_board (s : State) (x : Nat) (t : Tile) : (s.setSiteTile x t).board = s.board := by
  unfold State.setSiteTile
  first | rfl | (repeat' split) <;> (first | rfl | simp; done) | dsimp only; (repeat' split) <;> (first | rfl | simp; done)
@[simp] theorem setSiteTile_net (s : State) (x : Nat) (t : Tile) : (s.setSiteTile x t).net = s.net := by
  unfold State.setSiteTile
  first | rfl | (repeat' split) <;> (first | rfl | simp; done) | dsimp only; (repeat' split) <;> (first | rfl | simp; done)
@[simp] theorem setSiteTile_parts (s : State) (x : Nat) (t : Tile) : (s.setSiteTile x t).parts = s.parts := by
  unfold State.setSiteTile
  first | rfl | (repeat' split) <;> (first | rfl | simp; done) | dsimp only; (repeat' split) <;> (first | rfl | simp; done)
@[simp] theorem setSiteTile_hbm (s : State) (x : Nat) (t : Tile) : (s.setSiteTile x t).hbm = s.hbm := by
  unfold State.setSiteTile
  first | rfl | (repeat' split) <;> (first | rfl | simp; done) | dsimp only; (repeat' split) <;> (first | rfl | simp; done)
@[simp] theorem setSiteTile_locker (s : State) (x : Nat) (t : Tile) : (s.setSiteTile x t).locker = s.locker := by
  unfold State.setSiteTile
  first | rfl | (repeat' split) <;> (first | rfl | simp; done) | dsimp only; (repeat' split) <;> (first | rfl | simp; done)
@[simp] theorem setSiteTile_ports (s : State) (x : Nat) (t : Tile) : (s.setSiteTile x t).ports = s.ports := by
  unfold State.setSiteTile
  first | rfl | (repeat' split) <;> (first | rfl | simp; done) | dsimp only; (repeat' split) <;> (first | rfl | simp; done)
@[simp] theorem setSiteTile_fns (s : State) (x : Nat) (t : Tile) : (s.setSiteTile x t).fns = s.fns := by
  unfold State.setSiteTile
  first | rfl | (repeat' split) <;> (first | rfl | simp; done) | dsimp only; (repeat' split) <;> (first | rfl | simp; done)
@[simp] theorem setSiteTile_cmds (s : State) (x : Nat) (t : Tile) : (s.setSiteTile x t).cmds = s.cmds := by
  unfold State.setSiteTile
  first | rfl | (repeat' split) <;> (first | rfl | simp; done) | dsimp only; (repeat' split) <;> (first | rfl | simp; done)
@[simp] theorem setSiteTile_host (s : State) (x : Nat) (t : Tile) : (s.setSiteTile x t).host = s.host := by
  unfold State.setSiteTile
  first | rfl | (repeat' split) <;> (first | rfl | simp; done) | dsimp only; (repeat' split) <;> (first | rfl | simp; done)
@[simp] theorem setSiteTile_faults (s : State) (x : Nat) (t : Tile) : (s.setSiteTile x t).faults = s.faults := by
  unfold State.setSiteTile
  first | rfl | (repeat' split) <;> (first | rfl | simp; done) | dsimp only; (repeat' split) <;> (first | rfl | simp; done)
@[simp] theorem setSiteTile_power (s : State) (x : Nat) (t : Tile) : (s.setSiteTile x t).power = s.power := by
  unfold State.setSiteTile
  first | rfl | (repeat' split) <;> (first | rfl | simp; done) | dsimp only; (repeat' split) <;> (first | rfl | simp; done)
@[simp] theorem setSiteTile_sec (s : State) (x : Nat) (t : Tile) : (s.setSiteTile x t).sec = s.sec := by
  unfold State.setSiteTile
  first | rfl | (repeat' split) <;> (first | rfl | simp; done) | dsimp only; (repeat' split) <;> (first | rfl | simp; done)
@[simp] theorem setSiteTile_up (s : State) (x : Nat) (t : Tile) : (s.setSiteTile x t).up = s.up := by
  unfold State.setSiteTile
  first | rfl | (repeat' split) <;> (first | rfl | simp; done) | dsimp only; (repeat' split) <;> (first | rfl | simp; done)
@[simp] theorem setSiteTile_pending (s : State) (x : Nat) (t : Tile) : (s.setSiteTile x t).pending = s.pending := by
  unfold State.setSiteTile
  first | rfl | (repeat' split) <;> (first | rfl | simp; done) | dsimp only; (repeat' split) <;> (first | rfl | simp; done)

@[simp] theorem setTile_now (s : State) (l : Nat) (t : Tile) : (s.setTile l t).now = s.now := by
  unfold State.setTile
  first | rfl | (repeat' split) <;> (first | rfl | simp; done) | dsimp only; (repeat' split) <;> (first | rfl | simp; done)
@[simp] theorem setTile_draws (s : State) (l : Nat) (t : Tile) : (s.setTile l t).draws = s.draws := by
  unfold State.setTile
  first | rfl | (repeat' split) <;> (first | rfl | simp; done) | dsimp only; (repeat' split) <;> (first | rfl | simp; done)
@[simp] theorem setTile_seats (s : State) (l : Nat) (t : Tile) : (s.setTile l t).seats = s.seats := by
  unfold State.setTile
  first | rfl | (repeat' split) <;> (first | rfl | simp; done) | dsimp only; (repeat' split) <;> (first | rfl | simp; done)
@[simp] theorem setTile_board (s : State) (l : Nat) (t : Tile) : (s.setTile l t).board = s.board := by
  unfold State.setTile
  first | rfl | (repeat' split) <;> (first | rfl | simp; done) | dsimp only; (repeat' split) <;> (first | rfl | simp; done)
@[simp] theorem setTile_net (s : State) (l : Nat) (t : Tile) : (s.setTile l t).net = s.net := by
  unfold State.setTile
  first | rfl | (repeat' split) <;> (first | rfl | simp; done) | dsimp only; (repeat' split) <;> (first | rfl | simp; done)
@[simp] theorem setTile_parts (s : State) (l : Nat) (t : Tile) : (s.setTile l t).parts = s.parts := by
  unfold State.setTile
  first | rfl | (repeat' split) <;> (first | rfl | simp; done) | dsimp only; (repeat' split) <;> (first | rfl | simp; done)
@[simp] theorem setTile_hbm (s : State) (l : Nat) (t : Tile) : (s.setTile l t).hbm = s.hbm := by
  unfold State.setTile
  first | rfl | (repeat' split) <;> (first | rfl | simp; done) | dsimp only; (repeat' split) <;> (first | rfl | simp; done)
@[simp] theorem setTile_locker (s : State) (l : Nat) (t : Tile) : (s.setTile l t).locker = s.locker := by
  unfold State.setTile
  first | rfl | (repeat' split) <;> (first | rfl | simp; done) | dsimp only; (repeat' split) <;> (first | rfl | simp; done)
@[simp] theorem setTile_ports (s : State) (l : Nat) (t : Tile) : (s.setTile l t).ports = s.ports := by
  unfold State.setTile
  first | rfl | (repeat' split) <;> (first | rfl | simp; done) | dsimp only; (repeat' split) <;> (first | rfl | simp; done)
@[simp] theorem setTile_fns (s : State) (l : Nat) (t : Tile) : (s.setTile l t).fns = s.fns := by
  unfold State.setTile
  first | rfl | (repeat' split) <;> (first | rfl | simp; done) | dsimp only; (repeat' split) <;> (first | rfl | simp; done)
@[simp] theorem setTile_cmds (s : State) (l : Nat) (t : Tile) : (s.setTile l t).cmds = s.cmds := by
  unfold State.setTile
  first | rfl | (repeat' split) <;> (first | rfl | simp; done) | dsimp only; (repeat' split) <;> (first | rfl | simp; done)
@[simp] theorem setTile_host (s : State) (l : Nat) (t : Tile) : (s.setTile l t).host = s.host := by
  unfold State.setTile
  first | rfl | (repeat' split) <;> (first | rfl | simp; done) | dsimp only; (repeat' split) <;> (first | rfl | simp; done)
@[simp] theorem setTile_faults (s : State) (l : Nat) (t : Tile) : (s.setTile l t).faults = s.faults := by
  unfold State.setTile
  first | rfl | (repeat' split) <;> (first | rfl | simp; done) | dsimp only; (repeat' split) <;> (first | rfl | simp; done)
@[simp] theorem setTile_power (s : State) (l : Nat) (t : Tile) : (s.setTile l t).power = s.power := by
  unfold State.setTile
  first | rfl | (repeat' split) <;> (first | rfl | simp; done) | dsimp only; (repeat' split) <;> (first | rfl | simp; done)
@[simp] theorem setTile_sec (s : State) (l : Nat) (t : Tile) : (s.setTile l t).sec = s.sec := by
  unfold State.setTile
  first | rfl | (repeat' split) <;> (first | rfl | simp; done) | dsimp only; (repeat' split) <;> (first | rfl | simp; done)
@[simp] theorem setTile_up (s : State) (l : Nat) (t : Tile) : (s.setTile l t).up = s.up := by
  unfold State.setTile
  first | rfl | (repeat' split) <;> (first | rfl | simp; done) | dsimp only; (repeat' split) <;> (first | rfl | simp; done)
@[simp] theorem setTile_pending (s : State) (l : Nat) (t : Tile) : (s.setTile l t).pending = s.pending := by
  unfold State.setTile
  first | rfl | (repeat' split) <;> (first | rfl | simp; done) | dsimp only; (repeat' split) <;> (first | rfl | simp; done)

@[simp] theorem until_draws (s : State) (t : Nat) : (s.until t).draws = s.draws := by
  unfold State.until
  first | rfl | (repeat' split) <;> (first | rfl | simp; done) | dsimp only; (repeat' split) <;> (first | rfl | simp; done)
@[simp] theorem until_tiles (s : State) (t : Nat) : (s.until t).tiles = s.tiles := by
  unfold State.until
  first | rfl | (repeat' split) <;> (first | rfl | simp; done) | dsimp only; (repeat' split) <;> (first | rfl | simp; done)
@[simp] theorem until_seats (s : State) (t : Nat) : (s.until t).seats = s.seats := by
  unfold State.until
  first | rfl | (repeat' split) <;> (first | rfl | simp; done) | dsimp only; (repeat' split) <;> (first | rfl | simp; done)
@[simp] theorem until_board (s : State) (t : Nat) : (s.until t).board = s.board := by
  unfold State.until
  first | rfl | (repeat' split) <;> (first | rfl | simp; done) | dsimp only; (repeat' split) <;> (first | rfl | simp; done)
@[simp] theorem until_net (s : State) (t : Nat) : (s.until t).net = s.net := by
  unfold State.until
  first | rfl | (repeat' split) <;> (first | rfl | simp; done) | dsimp only; (repeat' split) <;> (first | rfl | simp; done)
@[simp] theorem until_parts (s : State) (t : Nat) : (s.until t).parts = s.parts := by
  unfold State.until
  first | rfl | (repeat' split) <;> (first | rfl | simp; done) | dsimp only; (repeat' split) <;> (first | rfl | simp; done)
@[simp] theorem until_hbm (s : State) (t : Nat) : (s.until t).hbm = s.hbm := by
  unfold State.until
  first | rfl | (repeat' split) <;> (first | rfl | simp; done) | dsimp only; (repeat' split) <;> (first | rfl | simp; done)
@[simp] theorem until_locker (s : State) (t : Nat) : (s.until t).locker = s.locker := by
  unfold State.until
  first | rfl | (repeat' split) <;> (first | rfl | simp; done) | dsimp only; (repeat' split) <;> (first | rfl | simp; done)
@[simp] theorem until_ports (s : State) (t : Nat) : (s.until t).ports = s.ports := by
  unfold State.until
  first | rfl | (repeat' split) <;> (first | rfl | simp; done) | dsimp only; (repeat' split) <;> (first | rfl | simp; done)
@[simp] theorem until_fns (s : State) (t : Nat) : (s.until t).fns = s.fns := by
  unfold State.until
  first | rfl | (repeat' split) <;> (first | rfl | simp; done) | dsimp only; (repeat' split) <;> (first | rfl | simp; done)
@[simp] theorem until_cmds (s : State) (t : Nat) : (s.until t).cmds = s.cmds := by
  unfold State.until
  first | rfl | (repeat' split) <;> (first | rfl | simp; done) | dsimp only; (repeat' split) <;> (first | rfl | simp; done)
@[simp] theorem until_host (s : State) (t : Nat) : (s.until t).host = s.host := by
  unfold State.until
  first | rfl | (repeat' split) <;> (first | rfl | simp; done) | dsimp only; (repeat' split) <;> (first | rfl | simp; done)
@[simp] theorem until_faults (s : State) (t : Nat) : (s.until t).faults = s.faults := by
  unfold State.until
  first | rfl | (repeat' split) <;> (first | rfl | simp; done) | dsimp only; (repeat' split) <;> (first | rfl | simp; done)
@[simp] theorem until_power (s : State) (t : Nat) : (s.until t).power = s.power := by
  unfold State.until
  first | rfl | (repeat' split) <;> (first | rfl | simp; done) | dsimp only; (repeat' split) <;> (first | rfl | simp; done)
@[simp] theorem until_sec (s : State) (t : Nat) : (s.until t).sec = s.sec := by
  unfold State.until
  first | rfl | (repeat' split) <;> (first | rfl | simp; done) | dsimp only; (repeat' split) <;> (first | rfl | simp; done)
@[simp] theorem until_up (s : State) (t : Nat) : (s.until t).up = s.up := by
  unfold State.until
  first | rfl | (repeat' split) <;> (first | rfl | simp; done) | dsimp only; (repeat' split) <;> (first | rfl | simp; done)
@[simp] theorem until_pending (s : State) (t : Nat) : (s.until t).pending = s.pending := by
  unfold State.until
  first | rfl | (repeat' split) <;> (first | rfl | simp; done) | dsimp only; (repeat' split) <;> (first | rfl | simp; done)

@[simp] theorem eachTile_now (s : State) (p : Nat) (f : Nat → Tile → Tile) : (s.eachTile p f).now = s.now := by
  unfold State.eachTile
  exact foldl_keeps (fun s : State => s.now) _ (fun _ _ => by simp) _ _
@[simp] theorem eachTile_draws (s : State) (p : Nat) (f : Nat → Tile → Tile) : (s.eachTile p f).draws = s.draws := by
  unfold State.eachTile
  exact foldl_keeps (fun s : State => s.draws) _ (fun _ _ => by simp) _ _
@[simp] theorem eachTile_seats (s : State) (p : Nat) (f : Nat → Tile → Tile) : (s.eachTile p f).seats = s.seats := by
  unfold State.eachTile
  exact foldl_keeps (fun s : State => s.seats) _ (fun _ _ => by simp) _ _
@[simp] theorem eachTile_board (s : State) (p : Nat) (f : Nat → Tile → Tile) : (s.eachTile p f).board = s.board := by
  unfold State.eachTile
  exact foldl_keeps (fun s : State => s.board) _ (fun _ _ => by simp) _ _
@[simp] theorem eachTile_net (s : State) (p : Nat) (f : Nat → Tile → Tile) : (s.eachTile p f).net = s.net := by
  unfold State.eachTile
  exact foldl_keeps (fun s : State => s.net) _ (fun _ _ => by simp) _ _
@[simp] theorem eachTile_parts (s : State) (p : Nat) (f : Nat → Tile → Tile) : (s.eachTile p f).parts = s.parts := by
  unfold State.eachTile
  exact foldl_keeps (fun s : State => s.parts) _ (fun _ _ => by simp) _ _
@[simp] theorem eachTile_hbm (s : State) (p : Nat) (f : Nat → Tile → Tile) : (s.eachTile p f).hbm = s.hbm := by
  unfold State.eachTile
  exact foldl_keeps (fun s : State => s.hbm) _ (fun _ _ => by simp) _ _
@[simp] theorem eachTile_locker (s : State) (p : Nat) (f : Nat → Tile → Tile) : (s.eachTile p f).locker = s.locker := by
  unfold State.eachTile
  exact foldl_keeps (fun s : State => s.locker) _ (fun _ _ => by simp) _ _
@[simp] theorem eachTile_ports (s : State) (p : Nat) (f : Nat → Tile → Tile) : (s.eachTile p f).ports = s.ports := by
  unfold State.eachTile
  exact foldl_keeps (fun s : State => s.ports) _ (fun _ _ => by simp) _ _
@[simp] theorem eachTile_fns (s : State) (p : Nat) (f : Nat → Tile → Tile) : (s.eachTile p f).fns = s.fns := by
  unfold State.eachTile
  exact foldl_keeps (fun s : State => s.fns) _ (fun _ _ => by simp) _ _
@[simp] theorem eachTile_cmds (s : State) (p : Nat) (f : Nat → Tile → Tile) : (s.eachTile p f).cmds = s.cmds := by
  unfold State.eachTile
  exact foldl_keeps (fun s : State => s.cmds) _ (fun _ _ => by simp) _ _
@[simp] theorem eachTile_host (s : State) (p : Nat) (f : Nat → Tile → Tile) : (s.eachTile p f).host = s.host := by
  unfold State.eachTile
  exact foldl_keeps (fun s : State => s.host) _ (fun _ _ => by simp) _ _
@[simp] theorem eachTile_faults (s : State) (p : Nat) (f : Nat → Tile → Tile) : (s.eachTile p f).faults = s.faults := by
  unfold State.eachTile
  exact foldl_keeps (fun s : State => s.faults) _ (fun _ _ => by simp) _ _
@[simp] theorem eachTile_power (s : State) (p : Nat) (f : Nat → Tile → Tile) : (s.eachTile p f).power = s.power := by
  unfold State.eachTile
  exact foldl_keeps (fun s : State => s.power) _ (fun _ _ => by simp) _ _
@[simp] theorem eachTile_sec (s : State) (p : Nat) (f : Nat → Tile → Tile) : (s.eachTile p f).sec = s.sec := by
  unfold State.eachTile
  exact foldl_keeps (fun s : State => s.sec) _ (fun _ _ => by simp) _ _
@[simp] theorem eachTile_up (s : State) (p : Nat) (f : Nat → Tile → Tile) : (s.eachTile p f).up = s.up := by
  unfold State.eachTile
  exact foldl_keeps (fun s : State => s.up) _ (fun _ _ => by simp) _ _
@[simp] theorem eachTile_pending (s : State) (p : Nat) (f : Nat → Tile → Tile) : (s.eachTile p f).pending = s.pending := by
  unfold State.eachTile
  exact foldl_keeps (fun s : State => s.pending) _ (fun _ _ => by simp) _ _

@[simp] theorem hostWrite_now (s : State) (a : Nat) (bs : List Byte) : (s.hostWrite a bs).now = s.now := by
  unfold State.hostWrite
  first | rfl | (repeat' split) <;> (first | rfl | simp; done) | dsimp only; (repeat' split) <;> (first | rfl | simp; done)
@[simp] theorem hostWrite_draws (s : State) (a : Nat) (bs : List Byte) : (s.hostWrite a bs).draws = s.draws := by
  unfold State.hostWrite
  first | rfl | (repeat' split) <;> (first | rfl | simp; done) | dsimp only; (repeat' split) <;> (first | rfl | simp; done)
@[simp] theorem hostWrite_tiles (s : State) (a : Nat) (bs : List Byte) : (s.hostWrite a bs).tiles = s.tiles := by
  unfold State.hostWrite
  first | rfl | (repeat' split) <;> (first | rfl | simp; done) | dsimp only; (repeat' split) <;> (first | rfl | simp; done)
@[simp] theorem hostWrite_seats (s : State) (a : Nat) (bs : List Byte) : (s.hostWrite a bs).seats = s.seats := by
  unfold State.hostWrite
  first | rfl | (repeat' split) <;> (first | rfl | simp; done) | dsimp only; (repeat' split) <;> (first | rfl | simp; done)
@[simp] theorem hostWrite_board (s : State) (a : Nat) (bs : List Byte) : (s.hostWrite a bs).board = s.board := by
  unfold State.hostWrite
  first | rfl | (repeat' split) <;> (first | rfl | simp; done) | dsimp only; (repeat' split) <;> (first | rfl | simp; done)
@[simp] theorem hostWrite_net (s : State) (a : Nat) (bs : List Byte) : (s.hostWrite a bs).net = s.net := by
  unfold State.hostWrite
  first | rfl | (repeat' split) <;> (first | rfl | simp; done) | dsimp only; (repeat' split) <;> (first | rfl | simp; done)
@[simp] theorem hostWrite_parts (s : State) (a : Nat) (bs : List Byte) : (s.hostWrite a bs).parts = s.parts := by
  unfold State.hostWrite
  first | rfl | (repeat' split) <;> (first | rfl | simp; done) | dsimp only; (repeat' split) <;> (first | rfl | simp; done)
@[simp] theorem hostWrite_hbm (s : State) (a : Nat) (bs : List Byte) : (s.hostWrite a bs).hbm = s.hbm := by
  unfold State.hostWrite
  first | rfl | (repeat' split) <;> (first | rfl | simp; done) | dsimp only; (repeat' split) <;> (first | rfl | simp; done)
@[simp] theorem hostWrite_locker (s : State) (a : Nat) (bs : List Byte) : (s.hostWrite a bs).locker = s.locker := by
  unfold State.hostWrite
  first | rfl | (repeat' split) <;> (first | rfl | simp; done) | dsimp only; (repeat' split) <;> (first | rfl | simp; done)
@[simp] theorem hostWrite_ports (s : State) (a : Nat) (bs : List Byte) : (s.hostWrite a bs).ports = s.ports := by
  unfold State.hostWrite
  first | rfl | (repeat' split) <;> (first | rfl | simp; done) | dsimp only; (repeat' split) <;> (first | rfl | simp; done)
@[simp] theorem hostWrite_fns (s : State) (a : Nat) (bs : List Byte) : (s.hostWrite a bs).fns = s.fns := by
  unfold State.hostWrite
  first | rfl | (repeat' split) <;> (first | rfl | simp; done) | dsimp only; (repeat' split) <;> (first | rfl | simp; done)
@[simp] theorem hostWrite_cmds (s : State) (a : Nat) (bs : List Byte) : (s.hostWrite a bs).cmds = s.cmds := by
  unfold State.hostWrite
  first | rfl | (repeat' split) <;> (first | rfl | simp; done) | dsimp only; (repeat' split) <;> (first | rfl | simp; done)
@[simp] theorem hostWrite_faults (s : State) (a : Nat) (bs : List Byte) : (s.hostWrite a bs).faults = s.faults := by
  unfold State.hostWrite
  first | rfl | (repeat' split) <;> (first | rfl | simp; done) | dsimp only; (repeat' split) <;> (first | rfl | simp; done)
@[simp] theorem hostWrite_power (s : State) (a : Nat) (bs : List Byte) : (s.hostWrite a bs).power = s.power := by
  unfold State.hostWrite
  first | rfl | (repeat' split) <;> (first | rfl | simp; done) | dsimp only; (repeat' split) <;> (first | rfl | simp; done)
@[simp] theorem hostWrite_sec (s : State) (a : Nat) (bs : List Byte) : (s.hostWrite a bs).sec = s.sec := by
  unfold State.hostWrite
  first | rfl | (repeat' split) <;> (first | rfl | simp; done) | dsimp only; (repeat' split) <;> (first | rfl | simp; done)
@[simp] theorem hostWrite_up (s : State) (a : Nat) (bs : List Byte) : (s.hostWrite a bs).up = s.up := by
  unfold State.hostWrite
  first | rfl | (repeat' split) <;> (first | rfl | simp; done) | dsimp only; (repeat' split) <;> (first | rfl | simp; done)
@[simp] theorem hostWrite_pending (s : State) (a : Nat) (bs : List Byte) : (s.hostWrite a bs).pending = s.pending := by
  unfold State.hostWrite
  first | rfl | (repeat' split) <;> (first | rfl | simp; done) | dsimp only; (repeat' split) <;> (first | rfl | simp; done)

@[simp] theorem readinessIrq_now (s : State)  : (s.readinessIrq).now = s.now := by
  unfold State.readinessIrq
  first | rfl | (repeat' split) <;> (first | rfl | simp; done) | dsimp only; (repeat' split) <;> (first | rfl | simp; done)
@[simp] theorem readinessIrq_draws (s : State)  : (s.readinessIrq).draws = s.draws := by
  unfold State.readinessIrq
  first | rfl | (repeat' split) <;> (first | rfl | simp; done) | dsimp only; (repeat' split) <;> (first | rfl | simp; done)
@[simp] theorem readinessIrq_tiles (s : State)  : (s.readinessIrq).tiles = s.tiles := by
  unfold State.readinessIrq
  first | rfl | (repeat' split) <;> (first | rfl | simp; done) | dsimp only; (repeat' split) <;> (first | rfl | simp; done)
@[simp] theorem readinessIrq_seats (s : State)  : (s.readinessIrq).seats = s.seats := by
  unfold State.readinessIrq
  first | rfl | (repeat' split) <;> (first | rfl | simp; done) | dsimp only; (repeat' split) <;> (first | rfl | simp; done)
@[simp] theorem readinessIrq_board (s : State)  : (s.readinessIrq).board = s.board := by
  unfold State.readinessIrq
  first | rfl | (repeat' split) <;> (first | rfl | simp; done) | dsimp only; (repeat' split) <;> (first | rfl | simp; done)
@[simp] theorem readinessIrq_net (s : State)  : (s.readinessIrq).net = s.net := by
  unfold State.readinessIrq
  first | rfl | (repeat' split) <;> (first | rfl | simp; done) | dsimp only; (repeat' split) <;> (first | rfl | simp; done)
@[simp] theorem readinessIrq_parts (s : State)  : (s.readinessIrq).parts = s.parts := by
  unfold State.readinessIrq
  first | rfl | (repeat' split) <;> (first | rfl | simp; done) | dsimp only; (repeat' split) <;> (first | rfl | simp; done)
@[simp] theorem readinessIrq_hbm (s : State)  : (s.readinessIrq).hbm = s.hbm := by
  unfold State.readinessIrq
  first | rfl | (repeat' split) <;> (first | rfl | simp; done) | dsimp only; (repeat' split) <;> (first | rfl | simp; done)
@[simp] theorem readinessIrq_locker (s : State)  : (s.readinessIrq).locker = s.locker := by
  unfold State.readinessIrq
  first | rfl | (repeat' split) <;> (first | rfl | simp; done) | dsimp only; (repeat' split) <;> (first | rfl | simp; done)
@[simp] theorem readinessIrq_ports (s : State)  : (s.readinessIrq).ports = s.ports := by
  unfold State.readinessIrq
  first | rfl | (repeat' split) <;> (first | rfl | simp; done) | dsimp only; (repeat' split) <;> (first | rfl | simp; done)
@[simp] theorem readinessIrq_cmds (s : State)  : (s.readinessIrq).cmds = s.cmds := by
  unfold State.readinessIrq
  first | rfl | (repeat' split) <;> (first | rfl | simp; done) | dsimp only; (repeat' split) <;> (first | rfl | simp; done)
@[simp] theorem readinessIrq_host (s : State)  : (s.readinessIrq).host = s.host := by
  unfold State.readinessIrq
  first | rfl | (repeat' split) <;> (first | rfl | simp; done) | dsimp only; (repeat' split) <;> (first | rfl | simp; done)
@[simp] theorem readinessIrq_faults (s : State)  : (s.readinessIrq).faults = s.faults := by
  unfold State.readinessIrq
  first | rfl | (repeat' split) <;> (first | rfl | simp; done) | dsimp only; (repeat' split) <;> (first | rfl | simp; done)
@[simp] theorem readinessIrq_power (s : State)  : (s.readinessIrq).power = s.power := by
  unfold State.readinessIrq
  first | rfl | (repeat' split) <;> (first | rfl | simp; done) | dsimp only; (repeat' split) <;> (first | rfl | simp; done)
@[simp] theorem readinessIrq_sec (s : State)  : (s.readinessIrq).sec = s.sec := by
  unfold State.readinessIrq
  first | rfl | (repeat' split) <;> (first | rfl | simp; done) | dsimp only; (repeat' split) <;> (first | rfl | simp; done)
@[simp] theorem readinessIrq_up (s : State)  : (s.readinessIrq).up = s.up := by
  unfold State.readinessIrq
  first | rfl | (repeat' split) <;> (first | rfl | simp; done) | dsimp only; (repeat' split) <;> (first | rfl | simp; done)
@[simp] theorem readinessIrq_pending (s : State)  : (s.readinessIrq).pending = s.pending := by
  unfold State.readinessIrq
  first | rfl | (repeat' split) <;> (first | rfl | simp; done) | dsimp only; (repeat' split) <;> (first | rfl | simp; done)

@[simp] theorem writeEvent_now (s : State) (f : Nat) (e : Event) : (s.writeEvent f e).now = s.now := by
  unfold State.writeEvent
  first | rfl | (repeat' split) <;> (first | rfl | simp; done) | dsimp only; (repeat' split) <;> (first | rfl | simp; done)
@[simp] theorem writeEvent_draws (s : State) (f : Nat) (e : Event) : (s.writeEvent f e).draws = s.draws := by
  unfold State.writeEvent
  first | rfl | (repeat' split) <;> (first | rfl | simp; done) | dsimp only; (repeat' split) <;> (first | rfl | simp; done)
@[simp] theorem writeEvent_tiles (s : State) (f : Nat) (e : Event) : (s.writeEvent f e).tiles = s.tiles := by
  unfold State.writeEvent
  first | rfl | (repeat' split) <;> (first | rfl | simp; done) | dsimp only; (repeat' split) <;> (first | rfl | simp; done)
@[simp] theorem writeEvent_seats (s : State) (f : Nat) (e : Event) : (s.writeEvent f e).seats = s.seats := by
  unfold State.writeEvent
  first | rfl | (repeat' split) <;> (first | rfl | simp; done) | dsimp only; (repeat' split) <;> (first | rfl | simp; done)
@[simp] theorem writeEvent_board (s : State) (f : Nat) (e : Event) : (s.writeEvent f e).board = s.board := by
  unfold State.writeEvent
  first | rfl | (repeat' split) <;> (first | rfl | simp; done) | dsimp only; (repeat' split) <;> (first | rfl | simp; done)
@[simp] theorem writeEvent_net (s : State) (f : Nat) (e : Event) : (s.writeEvent f e).net = s.net := by
  unfold State.writeEvent
  first | rfl | (repeat' split) <;> (first | rfl | simp; done) | dsimp only; (repeat' split) <;> (first | rfl | simp; done)
@[simp] theorem writeEvent_parts (s : State) (f : Nat) (e : Event) : (s.writeEvent f e).parts = s.parts := by
  unfold State.writeEvent
  first | rfl | (repeat' split) <;> (first | rfl | simp; done) | dsimp only; (repeat' split) <;> (first | rfl | simp; done)
@[simp] theorem writeEvent_hbm (s : State) (f : Nat) (e : Event) : (s.writeEvent f e).hbm = s.hbm := by
  unfold State.writeEvent
  first | rfl | (repeat' split) <;> (first | rfl | simp; done) | dsimp only; (repeat' split) <;> (first | rfl | simp; done)
@[simp] theorem writeEvent_locker (s : State) (f : Nat) (e : Event) : (s.writeEvent f e).locker = s.locker := by
  unfold State.writeEvent
  first | rfl | (repeat' split) <;> (first | rfl | simp; done) | dsimp only; (repeat' split) <;> (first | rfl | simp; done)
@[simp] theorem writeEvent_ports (s : State) (f : Nat) (e : Event) : (s.writeEvent f e).ports = s.ports := by
  unfold State.writeEvent
  first | rfl | (repeat' split) <;> (first | rfl | simp; done) | dsimp only; (repeat' split) <;> (first | rfl | simp; done)
@[simp] theorem writeEvent_cmds (s : State) (f : Nat) (e : Event) : (s.writeEvent f e).cmds = s.cmds := by
  unfold State.writeEvent
  first | rfl | (repeat' split) <;> (first | rfl | simp; done) | dsimp only; (repeat' split) <;> (first | rfl | simp; done)
@[simp] theorem writeEvent_faults (s : State) (f : Nat) (e : Event) : (s.writeEvent f e).faults = s.faults := by
  unfold State.writeEvent
  first | rfl | (repeat' split) <;> (first | rfl | simp; done) | dsimp only; (repeat' split) <;> (first | rfl | simp; done)
@[simp] theorem writeEvent_power (s : State) (f : Nat) (e : Event) : (s.writeEvent f e).power = s.power := by
  unfold State.writeEvent
  first | rfl | (repeat' split) <;> (first | rfl | simp; done) | dsimp only; (repeat' split) <;> (first | rfl | simp; done)
@[simp] theorem writeEvent_sec (s : State) (f : Nat) (e : Event) : (s.writeEvent f e).sec = s.sec := by
  unfold State.writeEvent
  first | rfl | (repeat' split) <;> (first | rfl | simp; done) | dsimp only; (repeat' split) <;> (first | rfl | simp; done)
@[simp] theorem writeEvent_up (s : State) (f : Nat) (e : Event) : (s.writeEvent f e).up = s.up := by
  unfold State.writeEvent
  first | rfl | (repeat' split) <;> (first | rfl | simp; done) | dsimp only; (repeat' split) <;> (first | rfl | simp; done)
@[simp] theorem writeEvent_pending (s : State) (f : Nat) (e : Event) : (s.writeEvent f e).pending = s.pending := by
  unfold State.writeEvent
  first | rfl | (repeat' split) <;> (first | rfl | simp; done) | dsimp only; (repeat' split) <;> (first | rfl | simp; done)

@[simp] theorem alert_now (s : State) (code : Nat) (fs : List Fl) : (s.alert code fs).now = s.now := by
  unfold State.alert
  first | rfl | (repeat' split) <;> (first | rfl | simp; done) | dsimp only; (repeat' split) <;> (first | rfl | simp; done)
@[simp] theorem alert_draws (s : State) (code : Nat) (fs : List Fl) : (s.alert code fs).draws = s.draws := by
  unfold State.alert
  first | rfl | (repeat' split) <;> (first | rfl | simp; done) | dsimp only; (repeat' split) <;> (first | rfl | simp; done)
@[simp] theorem alert_tiles (s : State) (code : Nat) (fs : List Fl) : (s.alert code fs).tiles = s.tiles := by
  unfold State.alert
  first | rfl | (repeat' split) <;> (first | rfl | simp; done) | dsimp only; (repeat' split) <;> (first | rfl | simp; done)
@[simp] theorem alert_seats (s : State) (code : Nat) (fs : List Fl) : (s.alert code fs).seats = s.seats := by
  unfold State.alert
  first | rfl | (repeat' split) <;> (first | rfl | simp; done) | dsimp only; (repeat' split) <;> (first | rfl | simp; done)
@[simp] theorem alert_board (s : State) (code : Nat) (fs : List Fl) : (s.alert code fs).board = s.board := by
  unfold State.alert
  first | rfl | (repeat' split) <;> (first | rfl | simp; done) | dsimp only; (repeat' split) <;> (first | rfl | simp; done)
@[simp] theorem alert_net (s : State) (code : Nat) (fs : List Fl) : (s.alert code fs).net = s.net := by
  unfold State.alert
  first | rfl | (repeat' split) <;> (first | rfl | simp; done) | dsimp only; (repeat' split) <;> (first | rfl | simp; done)
@[simp] theorem alert_parts (s : State) (code : Nat) (fs : List Fl) : (s.alert code fs).parts = s.parts := by
  unfold State.alert
  first | rfl | (repeat' split) <;> (first | rfl | simp; done) | dsimp only; (repeat' split) <;> (first | rfl | simp; done)
@[simp] theorem alert_hbm (s : State) (code : Nat) (fs : List Fl) : (s.alert code fs).hbm = s.hbm := by
  unfold State.alert
  first | rfl | (repeat' split) <;> (first | rfl | simp; done) | dsimp only; (repeat' split) <;> (first | rfl | simp; done)
@[simp] theorem alert_locker (s : State) (code : Nat) (fs : List Fl) : (s.alert code fs).locker = s.locker := by
  unfold State.alert
  first | rfl | (repeat' split) <;> (first | rfl | simp; done) | dsimp only; (repeat' split) <;> (first | rfl | simp; done)
@[simp] theorem alert_ports (s : State) (code : Nat) (fs : List Fl) : (s.alert code fs).ports = s.ports := by
  unfold State.alert
  first | rfl | (repeat' split) <;> (first | rfl | simp; done) | dsimp only; (repeat' split) <;> (first | rfl | simp; done)
@[simp] theorem alert_fns (s : State) (code : Nat) (fs : List Fl) : (s.alert code fs).fns = s.fns := by
  unfold State.alert
  first | rfl | (repeat' split) <;> (first | rfl | simp; done) | dsimp only; (repeat' split) <;> (first | rfl | simp; done)
@[simp] theorem alert_cmds (s : State) (code : Nat) (fs : List Fl) : (s.alert code fs).cmds = s.cmds := by
  unfold State.alert
  first | rfl | (repeat' split) <;> (first | rfl | simp; done) | dsimp only; (repeat' split) <;> (first | rfl | simp; done)
@[simp] theorem alert_host (s : State) (code : Nat) (fs : List Fl) : (s.alert code fs).host = s.host := by
  unfold State.alert
  first | rfl | (repeat' split) <;> (first | rfl | simp; done) | dsimp only; (repeat' split) <;> (first | rfl | simp; done)
@[simp] theorem alert_faults (s : State) (code : Nat) (fs : List Fl) : (s.alert code fs).faults = s.faults := by
  unfold State.alert
  first | rfl | (repeat' split) <;> (first | rfl | simp; done) | dsimp only; (repeat' split) <;> (first | rfl | simp; done)
@[simp] theorem alert_power (s : State) (code : Nat) (fs : List Fl) : (s.alert code fs).power = s.power := by
  unfold State.alert
  first | rfl | (repeat' split) <;> (first | rfl | simp; done) | dsimp only; (repeat' split) <;> (first | rfl | simp; done)
@[simp] theorem alert_sec (s : State) (code : Nat) (fs : List Fl) : (s.alert code fs).sec = s.sec := by
  unfold State.alert
  first | rfl | (repeat' split) <;> (first | rfl | simp; done) | dsimp only; (repeat' split) <;> (first | rfl | simp; done)
@[simp] theorem alert_pending (s : State) (code : Nat) (fs : List Fl) : (s.alert code fs).pending = s.pending := by
  unfold State.alert
  first | rfl | (repeat' split) <;> (first | rfl | simp; done) | dsimp only; (repeat' split) <;> (first | rfl | simp; done)
@[simp] theorem alert_up_ready (s : State) (code : Nat) (fs : List Fl) : (s.alert code fs).up.ready = s.up.ready := by
  unfold State.alert
  first | rfl | (repeat' split) <;> (first | rfl | simp; done) | dsimp only; (repeat' split) <;> (first | rfl | simp; done)
@[simp] theorem alert_up_blocks (s : State) (code : Nat) (fs : List Fl) : (s.alert code fs).up.blocks = s.up.blocks := by
  unfold State.alert
  first | rfl | (repeat' split) <;> (first | rfl | simp; done) | dsimp only; (repeat' split) <;> (first | rfl | simp; done)

@[simp] theorem postTo_now (s : State) (f code : Nat) (part : Option Nat) (fs : List Fl) : (s.postTo f code part fs).now = s.now := by
  unfold State.postTo
  first | rfl | (repeat' split) <;> (first | rfl | simp; done) | dsimp only; (repeat' split) <;> (first | rfl | simp; done)
@[simp] theorem postTo_draws (s : State) (f code : Nat) (part : Option Nat) (fs : List Fl) : (s.postTo f code part fs).draws = s.draws := by
  unfold State.postTo
  first | rfl | (repeat' split) <;> (first | rfl | simp; done) | dsimp only; (repeat' split) <;> (first | rfl | simp; done)
@[simp] theorem postTo_tiles (s : State) (f code : Nat) (part : Option Nat) (fs : List Fl) : (s.postTo f code part fs).tiles = s.tiles := by
  unfold State.postTo
  first | rfl | (repeat' split) <;> (first | rfl | simp; done) | dsimp only; (repeat' split) <;> (first | rfl | simp; done)
@[simp] theorem postTo_seats (s : State) (f code : Nat) (part : Option Nat) (fs : List Fl) : (s.postTo f code part fs).seats = s.seats := by
  unfold State.postTo
  first | rfl | (repeat' split) <;> (first | rfl | simp; done) | dsimp only; (repeat' split) <;> (first | rfl | simp; done)
@[simp] theorem postTo_board (s : State) (f code : Nat) (part : Option Nat) (fs : List Fl) : (s.postTo f code part fs).board = s.board := by
  unfold State.postTo
  first | rfl | (repeat' split) <;> (first | rfl | simp; done) | dsimp only; (repeat' split) <;> (first | rfl | simp; done)
@[simp] theorem postTo_net (s : State) (f code : Nat) (part : Option Nat) (fs : List Fl) : (s.postTo f code part fs).net = s.net := by
  unfold State.postTo
  first | rfl | (repeat' split) <;> (first | rfl | simp; done) | dsimp only; (repeat' split) <;> (first | rfl | simp; done)
@[simp] theorem postTo_parts (s : State) (f code : Nat) (part : Option Nat) (fs : List Fl) : (s.postTo f code part fs).parts = s.parts := by
  unfold State.postTo
  first | rfl | (repeat' split) <;> (first | rfl | simp; done) | dsimp only; (repeat' split) <;> (first | rfl | simp; done)
@[simp] theorem postTo_hbm (s : State) (f code : Nat) (part : Option Nat) (fs : List Fl) : (s.postTo f code part fs).hbm = s.hbm := by
  unfold State.postTo
  first | rfl | (repeat' split) <;> (first | rfl | simp; done) | dsimp only; (repeat' split) <;> (first | rfl | simp; done)
@[simp] theorem postTo_locker (s : State) (f code : Nat) (part : Option Nat) (fs : List Fl) : (s.postTo f code part fs).locker = s.locker := by
  unfold State.postTo
  first | rfl | (repeat' split) <;> (first | rfl | simp; done) | dsimp only; (repeat' split) <;> (first | rfl | simp; done)
@[simp] theorem postTo_ports (s : State) (f code : Nat) (part : Option Nat) (fs : List Fl) : (s.postTo f code part fs).ports = s.ports := by
  unfold State.postTo
  first | rfl | (repeat' split) <;> (first | rfl | simp; done) | dsimp only; (repeat' split) <;> (first | rfl | simp; done)
@[simp] theorem postTo_cmds (s : State) (f code : Nat) (part : Option Nat) (fs : List Fl) : (s.postTo f code part fs).cmds = s.cmds := by
  unfold State.postTo
  first | rfl | (repeat' split) <;> (first | rfl | simp; done) | dsimp only; (repeat' split) <;> (first | rfl | simp; done)
@[simp] theorem postTo_faults (s : State) (f code : Nat) (part : Option Nat) (fs : List Fl) : (s.postTo f code part fs).faults = s.faults := by
  unfold State.postTo
  first | rfl | (repeat' split) <;> (first | rfl | simp; done) | dsimp only; (repeat' split) <;> (first | rfl | simp; done)
@[simp] theorem postTo_power (s : State) (f code : Nat) (part : Option Nat) (fs : List Fl) : (s.postTo f code part fs).power = s.power := by
  unfold State.postTo
  first | rfl | (repeat' split) <;> (first | rfl | simp; done) | dsimp only; (repeat' split) <;> (first | rfl | simp; done)
@[simp] theorem postTo_sec (s : State) (f code : Nat) (part : Option Nat) (fs : List Fl) : (s.postTo f code part fs).sec = s.sec := by
  unfold State.postTo
  first | rfl | (repeat' split) <;> (first | rfl | simp; done) | dsimp only; (repeat' split) <;> (first | rfl | simp; done)
@[simp] theorem postTo_up (s : State) (f code : Nat) (part : Option Nat) (fs : List Fl) : (s.postTo f code part fs).up = s.up := by
  unfold State.postTo
  first | rfl | (repeat' split) <;> (first | rfl | simp; done) | dsimp only; (repeat' split) <;> (first | rfl | simp; done)
@[simp] theorem postTo_pending (s : State) (f code : Nat) (part : Option Nat) (fs : List Fl) : (s.postTo f code part fs).pending = s.pending := by
  unfold State.postTo
  first | rfl | (repeat' split) <;> (first | rfl | simp; done) | dsimp only; (repeat' split) <;> (first | rfl | simp; done)

@[simp] theorem sendEvent_now (s : State) (f code : Nat) (part : Option Nat) (fs : List Fl) : (s.sendEvent f code part fs).now = s.now := by
  unfold State.sendEvent
  first | rfl | (repeat' split) <;> (first | rfl | simp; done) | dsimp only; (repeat' split) <;> (first | rfl | simp; done)
@[simp] theorem sendEvent_draws (s : State) (f code : Nat) (part : Option Nat) (fs : List Fl) : (s.sendEvent f code part fs).draws = s.draws := by
  unfold State.sendEvent
  first | rfl | (repeat' split) <;> (first | rfl | simp; done) | dsimp only; (repeat' split) <;> (first | rfl | simp; done)
@[simp] theorem sendEvent_tiles (s : State) (f code : Nat) (part : Option Nat) (fs : List Fl) : (s.sendEvent f code part fs).tiles = s.tiles := by
  unfold State.sendEvent
  first | rfl | (repeat' split) <;> (first | rfl | simp; done) | dsimp only; (repeat' split) <;> (first | rfl | simp; done)
@[simp] theorem sendEvent_seats (s : State) (f code : Nat) (part : Option Nat) (fs : List Fl) : (s.sendEvent f code part fs).seats = s.seats := by
  unfold State.sendEvent
  first | rfl | (repeat' split) <;> (first | rfl | simp; done) | dsimp only; (repeat' split) <;> (first | rfl | simp; done)
@[simp] theorem sendEvent_board (s : State) (f code : Nat) (part : Option Nat) (fs : List Fl) : (s.sendEvent f code part fs).board = s.board := by
  unfold State.sendEvent
  first | rfl | (repeat' split) <;> (first | rfl | simp; done) | dsimp only; (repeat' split) <;> (first | rfl | simp; done)
@[simp] theorem sendEvent_net (s : State) (f code : Nat) (part : Option Nat) (fs : List Fl) : (s.sendEvent f code part fs).net = s.net := by
  unfold State.sendEvent
  first | rfl | (repeat' split) <;> (first | rfl | simp; done) | dsimp only; (repeat' split) <;> (first | rfl | simp; done)
@[simp] theorem sendEvent_parts (s : State) (f code : Nat) (part : Option Nat) (fs : List Fl) : (s.sendEvent f code part fs).parts = s.parts := by
  unfold State.sendEvent
  first | rfl | (repeat' split) <;> (first | rfl | simp; done) | dsimp only; (repeat' split) <;> (first | rfl | simp; done)
@[simp] theorem sendEvent_hbm (s : State) (f code : Nat) (part : Option Nat) (fs : List Fl) : (s.sendEvent f code part fs).hbm = s.hbm := by
  unfold State.sendEvent
  first | rfl | (repeat' split) <;> (first | rfl | simp; done) | dsimp only; (repeat' split) <;> (first | rfl | simp; done)
@[simp] theorem sendEvent_locker (s : State) (f code : Nat) (part : Option Nat) (fs : List Fl) : (s.sendEvent f code part fs).locker = s.locker := by
  unfold State.sendEvent
  first | rfl | (repeat' split) <;> (first | rfl | simp; done) | dsimp only; (repeat' split) <;> (first | rfl | simp; done)
@[simp] theorem sendEvent_ports (s : State) (f code : Nat) (part : Option Nat) (fs : List Fl) : (s.sendEvent f code part fs).ports = s.ports := by
  unfold State.sendEvent
  first | rfl | (repeat' split) <;> (first | rfl | simp; done) | dsimp only; (repeat' split) <;> (first | rfl | simp; done)
@[simp] theorem sendEvent_cmds (s : State) (f code : Nat) (part : Option Nat) (fs : List Fl) : (s.sendEvent f code part fs).cmds = s.cmds := by
  unfold State.sendEvent
  first | rfl | (repeat' split) <;> (first | rfl | simp; done) | dsimp only; (repeat' split) <;> (first | rfl | simp; done)
@[simp] theorem sendEvent_faults (s : State) (f code : Nat) (part : Option Nat) (fs : List Fl) : (s.sendEvent f code part fs).faults = s.faults := by
  unfold State.sendEvent
  first | rfl | (repeat' split) <;> (first | rfl | simp; done) | dsimp only; (repeat' split) <;> (first | rfl | simp; done)
@[simp] theorem sendEvent_power (s : State) (f code : Nat) (part : Option Nat) (fs : List Fl) : (s.sendEvent f code part fs).power = s.power := by
  unfold State.sendEvent
  first | rfl | (repeat' split) <;> (first | rfl | simp; done) | dsimp only; (repeat' split) <;> (first | rfl | simp; done)
@[simp] theorem sendEvent_sec (s : State) (f code : Nat) (part : Option Nat) (fs : List Fl) : (s.sendEvent f code part fs).sec = s.sec := by
  unfold State.sendEvent
  first | rfl | (repeat' split) <;> (first | rfl | simp; done) | dsimp only; (repeat' split) <;> (first | rfl | simp; done)
@[simp] theorem sendEvent_pending (s : State) (f code : Nat) (part : Option Nat) (fs : List Fl) : (s.sendEvent f code part fs).pending = s.pending := by
  unfold State.sendEvent
  first | rfl | (repeat' split) <;> (first | rfl | simp; done) | dsimp only; (repeat' split) <;> (first | rfl | simp; done)
@[simp] theorem sendEvent_up_ready (s : State) (f code : Nat) (part : Option Nat) (fs : List Fl) : (s.sendEvent f code part fs).up.ready = s.up.ready := by
  unfold State.sendEvent
  first | rfl | (repeat' split) <;> (first | rfl | simp; done) | dsimp only; (repeat' split) <;> (first | rfl | simp; done)
@[simp] theorem sendEvent_up_blocks (s : State) (f code : Nat) (part : Option Nat) (fs : List Fl) : (s.sendEvent f code part fs).up.blocks = s.up.blocks := by
  unfold State.sendEvent
  first | rfl | (repeat' split) <;> (first | rfl | simp; done) | dsimp only; (repeat' split) <;> (first | rfl | simp; done)

@[simp] theorem partEvent_now (s : State) (p code : Nat) (fs : List Fl) : (s.partEvent p code fs).now = s.now := by
  unfold State.partEvent
  first | rfl | (repeat' split) <;> (first | rfl | simp; done) | dsimp only; (repeat' split) <;> (first | rfl | simp; done)
@[simp] theorem partEvent_draws (s : State) (p code : Nat) (fs : List Fl) : (s.partEvent p code fs).draws = s.draws := by
  unfold State.partEvent
  first | rfl | (repeat' split) <;> (first | rfl | simp; done) | dsimp only; (repeat' split) <;> (first | rfl | simp; done)
@[simp] theorem partEvent_tiles (s : State) (p code : Nat) (fs : List Fl) : (s.partEvent p code fs).tiles = s.tiles := by
  unfold State.partEvent
  first | rfl | (repeat' split) <;> (first | rfl | simp; done) | dsimp only; (repeat' split) <;> (first | rfl | simp; done)
@[simp] theorem partEvent_seats (s : State) (p code : Nat) (fs : List Fl) : (s.partEvent p code fs).seats = s.seats := by
  unfold State.partEvent
  first | rfl | (repeat' split) <;> (first | rfl | simp; done) | dsimp only; (repeat' split) <;> (first | rfl | simp; done)
@[simp] theorem partEvent_board (s : State) (p code : Nat) (fs : List Fl) : (s.partEvent p code fs).board = s.board := by
  unfold State.partEvent
  first | rfl | (repeat' split) <;> (first | rfl | simp; done) | dsimp only; (repeat' split) <;> (first | rfl | simp; done)
@[simp] theorem partEvent_net (s : State) (p code : Nat) (fs : List Fl) : (s.partEvent p code fs).net = s.net := by
  unfold State.partEvent
  first | rfl | (repeat' split) <;> (first | rfl | simp; done) | dsimp only; (repeat' split) <;> (first | rfl | simp; done)
@[simp] theorem partEvent_parts (s : State) (p code : Nat) (fs : List Fl) : (s.partEvent p code fs).parts = s.parts := by
  unfold State.partEvent
  first | rfl | (repeat' split) <;> (first | rfl | simp; done) | dsimp only; (repeat' split) <;> (first | rfl | simp; done)
@[simp] theorem partEvent_hbm (s : State) (p code : Nat) (fs : List Fl) : (s.partEvent p code fs).hbm = s.hbm := by
  unfold State.partEvent
  first | rfl | (repeat' split) <;> (first | rfl | simp; done) | dsimp only; (repeat' split) <;> (first | rfl | simp; done)
@[simp] theorem partEvent_locker (s : State) (p code : Nat) (fs : List Fl) : (s.partEvent p code fs).locker = s.locker := by
  unfold State.partEvent
  first | rfl | (repeat' split) <;> (first | rfl | simp; done) | dsimp only; (repeat' split) <;> (first | rfl | simp; done)
@[simp] theorem partEvent_ports (s : State) (p code : Nat) (fs : List Fl) : (s.partEvent p code fs).ports = s.ports := by
  unfold State.partEvent
  first | rfl | (repeat' split) <;> (first | rfl | simp; done) | dsimp only; (repeat' split) <;> (first | rfl | simp; done)
@[simp] theorem partEvent_cmds (s : State) (p code : Nat) (fs : List Fl) : (s.partEvent p code fs).cmds = s.cmds := by
  unfold State.partEvent
  first | rfl | (repeat' split) <;> (first | rfl | simp; done) | dsimp only; (repeat' split) <;> (first | rfl | simp; done)
@[simp] theorem partEvent_faults (s : State) (p code : Nat) (fs : List Fl) : (s.partEvent p code fs).faults = s.faults := by
  unfold State.partEvent
  first | rfl | (repeat' split) <;> (first | rfl | simp; done) | dsimp only; (repeat' split) <;> (first | rfl | simp; done)
@[simp] theorem partEvent_power (s : State) (p code : Nat) (fs : List Fl) : (s.partEvent p code fs).power = s.power := by
  unfold State.partEvent
  first | rfl | (repeat' split) <;> (first | rfl | simp; done) | dsimp only; (repeat' split) <;> (first | rfl | simp; done)
@[simp] theorem partEvent_sec (s : State) (p code : Nat) (fs : List Fl) : (s.partEvent p code fs).sec = s.sec := by
  unfold State.partEvent
  first | rfl | (repeat' split) <;> (first | rfl | simp; done) | dsimp only; (repeat' split) <;> (first | rfl | simp; done)
@[simp] theorem partEvent_pending (s : State) (p code : Nat) (fs : List Fl) : (s.partEvent p code fs).pending = s.pending := by
  unfold State.partEvent
  first | rfl | (repeat' split) <;> (first | rfl | simp; done) | dsimp only; (repeat' split) <;> (first | rfl | simp; done)
@[simp] theorem partEvent_up_ready (s : State) (p code : Nat) (fs : List Fl) : (s.partEvent p code fs).up.ready = s.up.ready := by
  unfold State.partEvent
  first | rfl | (repeat' split) <;> (first | rfl | simp; done) | dsimp only; (repeat' split) <;> (first | rfl | simp; done)
@[simp] theorem partEvent_up_blocks (s : State) (p code : Nat) (fs : List Fl) : (s.partEvent p code fs).up.blocks = s.up.blocks := by
  unfold State.partEvent
  first | rfl | (repeat' split) <;> (first | rfl | simp; done) | dsimp only; (repeat' split) <;> (first | rfl | simp; done)

@[simp] theorem modEvent_now (s : State) (code : Nat) (fs : List Fl) : (s.modEvent code fs).now = s.now := by
  unfold State.modEvent
  first | rfl | (repeat' split) <;> (first | rfl | simp; done) | dsimp only; (repeat' split) <;> (first | rfl | simp; done)
@[simp] theorem modEvent_draws (s : State) (code : Nat) (fs : List Fl) : (s.modEvent code fs).draws = s.draws := by
  unfold State.modEvent
  first | rfl | (repeat' split) <;> (first | rfl | simp; done) | dsimp only; (repeat' split) <;> (first | rfl | simp; done)
@[simp] theorem modEvent_tiles (s : State) (code : Nat) (fs : List Fl) : (s.modEvent code fs).tiles = s.tiles := by
  unfold State.modEvent
  first | rfl | (repeat' split) <;> (first | rfl | simp; done) | dsimp only; (repeat' split) <;> (first | rfl | simp; done)
@[simp] theorem modEvent_seats (s : State) (code : Nat) (fs : List Fl) : (s.modEvent code fs).seats = s.seats := by
  unfold State.modEvent
  first | rfl | (repeat' split) <;> (first | rfl | simp; done) | dsimp only; (repeat' split) <;> (first | rfl | simp; done)
@[simp] theorem modEvent_board (s : State) (code : Nat) (fs : List Fl) : (s.modEvent code fs).board = s.board := by
  unfold State.modEvent
  first | rfl | (repeat' split) <;> (first | rfl | simp; done) | dsimp only; (repeat' split) <;> (first | rfl | simp; done)
@[simp] theorem modEvent_net (s : State) (code : Nat) (fs : List Fl) : (s.modEvent code fs).net = s.net := by
  unfold State.modEvent
  first | rfl | (repeat' split) <;> (first | rfl | simp; done) | dsimp only; (repeat' split) <;> (first | rfl | simp; done)
@[simp] theorem modEvent_parts (s : State) (code : Nat) (fs : List Fl) : (s.modEvent code fs).parts = s.parts := by
  unfold State.modEvent
  first | rfl | (repeat' split) <;> (first | rfl | simp; done) | dsimp only; (repeat' split) <;> (first | rfl | simp; done)
@[simp] theorem modEvent_hbm (s : State) (code : Nat) (fs : List Fl) : (s.modEvent code fs).hbm = s.hbm := by
  unfold State.modEvent
  first | rfl | (repeat' split) <;> (first | rfl | simp; done) | dsimp only; (repeat' split) <;> (first | rfl | simp; done)
@[simp] theorem modEvent_locker (s : State) (code : Nat) (fs : List Fl) : (s.modEvent code fs).locker = s.locker := by
  unfold State.modEvent
  first | rfl | (repeat' split) <;> (first | rfl | simp; done) | dsimp only; (repeat' split) <;> (first | rfl | simp; done)
@[simp] theorem modEvent_ports (s : State) (code : Nat) (fs : List Fl) : (s.modEvent code fs).ports = s.ports := by
  unfold State.modEvent
  first | rfl | (repeat' split) <;> (first | rfl | simp; done) | dsimp only; (repeat' split) <;> (first | rfl | simp; done)
@[simp] theorem modEvent_cmds (s : State) (code : Nat) (fs : List Fl) : (s.modEvent code fs).cmds = s.cmds := by
  unfold State.modEvent
  first | rfl | (repeat' split) <;> (first | rfl | simp; done) | dsimp only; (repeat' split) <;> (first | rfl | simp; done)
@[simp] theorem modEvent_faults (s : State) (code : Nat) (fs : List Fl) : (s.modEvent code fs).faults = s.faults := by
  unfold State.modEvent
  first | rfl | (repeat' split) <;> (first | rfl | simp; done) | dsimp only; (repeat' split) <;> (first | rfl | simp; done)
@[simp] theorem modEvent_power (s : State) (code : Nat) (fs : List Fl) : (s.modEvent code fs).power = s.power := by
  unfold State.modEvent
  first | rfl | (repeat' split) <;> (first | rfl | simp; done) | dsimp only; (repeat' split) <;> (first | rfl | simp; done)
@[simp] theorem modEvent_sec (s : State) (code : Nat) (fs : List Fl) : (s.modEvent code fs).sec = s.sec := by
  unfold State.modEvent
  first | rfl | (repeat' split) <;> (first | rfl | simp; done) | dsimp only; (repeat' split) <;> (first | rfl | simp; done)
@[simp] theorem modEvent_pending (s : State) (code : Nat) (fs : List Fl) : (s.modEvent code fs).pending = s.pending := by
  unfold State.modEvent
  first | rfl | (repeat' split) <;> (first | rfl | simp; done) | dsimp only; (repeat' split) <;> (first | rfl | simp; done)
@[simp] theorem modEvent_up_ready (s : State) (code : Nat) (fs : List Fl) : (s.modEvent code fs).up.ready = s.up.ready := by
  unfold State.modEvent
  first | rfl | (repeat' split) <;> (first | rfl | simp; done) | dsimp only; (repeat' split) <;> (first | rfl | simp; done)
@[simp] theorem modEvent_up_blocks (s : State) (code : Nat) (fs : List Fl) : (s.modEvent code fs).up.blocks = s.up.blocks := by
  unfold State.modEvent
  first | rfl | (repeat' split) <;> (first | rfl | simp; done) | dsimp only; (repeat' split) <;> (first | rfl | simp; done)

@[simp] theorem bothEvent_now (s : State) (p : Option Nat) (code : Nat) (fs : List Fl) : (s.bothEvent p code fs).now = s.now := by
  unfold State.bothEvent
  first | rfl | (repeat' split) <;> (first | rfl | simp; done) | dsimp only; (repeat' split) <;> (first | rfl | simp; done)
@[simp] theorem bothEvent_draws (s : State) (p : Option Nat) (code : Nat) (fs : List Fl) : (s.bothEvent p code fs).draws = s.draws := by
  unfold State.bothEvent
  first | rfl | (repeat' split) <;> (first | rfl | simp; done) | dsimp only; (repeat' split) <;> (first | rfl | simp; done)
@[simp] theorem bothEvent_tiles (s : State) (p : Option Nat) (code : Nat) (fs : List Fl) : (s.bothEvent p code fs).tiles = s.tiles := by
  unfold State.bothEvent
  first | rfl | (repeat' split) <;> (first | rfl | simp; done) | dsimp only; (repeat' split) <;> (first | rfl | simp; done)
@[simp] theorem bothEvent_seats (s : State) (p : Option Nat) (code : Nat) (fs : List Fl) : (s.bothEvent p code fs).seats = s.seats := by
  unfold State.bothEvent
  first | rfl | (repeat' split) <;> (first | rfl | simp; done) | dsimp only; (repeat' split) <;> (first | rfl | simp; done)
@[simp] theorem bothEvent_board (s : State) (p : Option Nat) (code : Nat) (fs : List Fl) : (s.bothEvent p code fs).board = s.board := by
  unfold State.bothEvent
  first | rfl | (repeat' split) <;> (first | rfl | simp; done) | dsimp only; (repeat' split) <;> (first | rfl | simp; done)
@[simp] theorem bothEvent_net (s : State) (p : Option Nat) (code : Nat) (fs : List Fl) : (s.bothEvent p code fs).net = s.net := by
  unfold State.bothEvent
  first | rfl | (repeat' split) <;> (first | rfl | simp; done) | dsimp only; (repeat' split) <;> (first | rfl | simp; done)
@[simp] theorem bothEvent_parts (s : State) (p : Option Nat) (code : Nat) (fs : List Fl) : (s.bothEvent p code fs).parts = s.parts := by
  unfold State.bothEvent
  first | rfl | (repeat' split) <;> (first | rfl | simp; done) | dsimp only; (repeat' split) <;> (first | rfl | simp; done)
@[simp] theorem bothEvent_hbm (s : State) (p : Option Nat) (code : Nat) (fs : List Fl) : (s.bothEvent p code fs).hbm = s.hbm := by
  unfold State.bothEvent
  first | rfl | (repeat' split) <;> (first | rfl | simp; done) | dsimp only; (repeat' split) <;> (first | rfl | simp; done)
@[simp] theorem bothEvent_locker (s : State) (p : Option Nat) (code : Nat) (fs : List Fl) : (s.bothEvent p code fs).locker = s.locker := by
  unfold State.bothEvent
  first | rfl | (repeat' split) <;> (first | rfl | simp; done) | dsimp only; (repeat' split) <;> (first | rfl | simp; done)
@[simp] theorem bothEvent_ports (s : State) (p : Option Nat) (code : Nat) (fs : List Fl) : (s.bothEvent p code fs).ports = s.ports := by
  unfold State.bothEvent
  first | rfl | (repeat' split) <;> (first | rfl | simp; done) | dsimp only; (repeat' split) <;> (first | rfl | simp; done)
@[simp] theorem bothEvent_cmds (s : State) (p : Option Nat) (code : Nat) (fs : List Fl) : (s.bothEvent p code fs).cmds = s.cmds := by
  unfold State.bothEvent
  first | rfl | (repeat' split) <;> (first | rfl | simp; done) | dsimp only; (repeat' split) <;> (first | rfl | simp; done)
@[simp] theorem bothEvent_faults (s : State) (p : Option Nat) (code : Nat) (fs : List Fl) : (s.bothEvent p code fs).faults = s.faults := by
  unfold State.bothEvent
  first | rfl | (repeat' split) <;> (first | rfl | simp; done) | dsimp only; (repeat' split) <;> (first | rfl | simp; done)
@[simp] theorem bothEvent_power (s : State) (p : Option Nat) (code : Nat) (fs : List Fl) : (s.bothEvent p code fs).power = s.power := by
  unfold State.bothEvent
  first | rfl | (repeat' split) <;> (first | rfl | simp; done) | dsimp only; (repeat' split) <;> (first | rfl | simp; done)
@[simp] theorem bothEvent_sec (s : State) (p : Option Nat) (code : Nat) (fs : List Fl) : (s.bothEvent p code fs).sec = s.sec := by
  unfold State.bothEvent
  first | rfl | (repeat' split) <;> (first | rfl | simp; done) | dsimp only; (repeat' split) <;> (first | rfl | simp; done)
@[simp] theorem bothEvent_pending (s : State) (p : Option Nat) (code : Nat) (fs : List Fl) : (s.bothEvent p code fs).pending = s.pending := by
  unfold State.bothEvent
  first | rfl | (repeat' split) <;> (first | rfl | simp; done) | dsimp only; (repeat' split) <;> (first | rfl | simp; done)
@[simp] theorem bothEvent_up_ready (s : State) (p : Option Nat) (code : Nat) (fs : List Fl) : (s.bothEvent p code fs).up.ready = s.up.ready := by
  unfold State.bothEvent
  first | rfl | (repeat' split) <;> (first | rfl | simp; done) | dsimp only; (repeat' split) <;> (first | rfl | simp; done)
@[simp] theorem bothEvent_up_blocks (s : State) (p : Option Nat) (code : Nat) (fs : List Fl) : (s.bothEvent p code fs).up.blocks = s.up.blocks := by
  unfold State.bothEvent
  first | rfl | (repeat' split) <;> (first | rfl | simp; done) | dsimp only; (repeat' split) <;> (first | rfl | simp; done)

@[simp] theorem partLog_now (s : State) (p kind ltile : Nat) (fs : List Fl) : (s.partLog p kind ltile fs).now = s.now := by
  unfold State.partLog
  first | rfl | (repeat' split) <;> (first | rfl | simp; done) | dsimp only; (repeat' split) <;> (first | rfl | simp; done)
@[simp] theorem partLog_draws (s : State) (p kind ltile : Nat) (fs : List Fl) : (s.partLog p kind ltile fs).draws = s.draws := by
  unfold State.partLog
  first | rfl | (repeat' split) <;> (first | rfl | simp; done) | dsimp only; (repeat' split) <;> (first | rfl | simp; done)
@[simp] theorem partLog_tiles (s : State) (p kind ltile : Nat) (fs : List Fl) : (s.partLog p kind ltile fs).tiles = s.tiles := by
  unfold State.partLog
  first | rfl | (repeat' split) <;> (first | rfl | simp; done) | dsimp only; (repeat' split) <;> (first | rfl | simp; done)
@[simp] theorem partLog_seats (s : State) (p kind ltile : Nat) (fs : List Fl) : (s.partLog p kind ltile fs).seats = s.seats := by
  unfold State.partLog
  first | rfl | (repeat' split) <;> (first | rfl | simp; done) | dsimp only; (repeat' split) <;> (first | rfl | simp; done)
@[simp] theorem partLog_board (s : State) (p kind ltile : Nat) (fs : List Fl) : (s.partLog p kind ltile fs).board = s.board := by
  unfold State.partLog
  first | rfl | (repeat' split) <;> (first | rfl | simp; done) | dsimp only; (repeat' split) <;> (first | rfl | simp; done)
@[simp] theorem partLog_net (s : State) (p kind ltile : Nat) (fs : List Fl) : (s.partLog p kind ltile fs).net = s.net := by
  unfold State.partLog
  first | rfl | (repeat' split) <;> (first | rfl | simp; done) | dsimp only; (repeat' split) <;> (first | rfl | simp; done)
@[simp] theorem partLog_hbm (s : State) (p kind ltile : Nat) (fs : List Fl) : (s.partLog p kind ltile fs).hbm = s.hbm := by
  unfold State.partLog
  first | rfl | (repeat' split) <;> (first | rfl | simp; done) | dsimp only; (repeat' split) <;> (first | rfl | simp; done)
@[simp] theorem partLog_locker (s : State) (p kind ltile : Nat) (fs : List Fl) : (s.partLog p kind ltile fs).locker = s.locker := by
  unfold State.partLog
  first | rfl | (repeat' split) <;> (first | rfl | simp; done) | dsimp only; (repeat' split) <;> (first | rfl | simp; done)
@[simp] theorem partLog_ports (s : State) (p kind ltile : Nat) (fs : List Fl) : (s.partLog p kind ltile fs).ports = s.ports := by
  unfold State.partLog
  first | rfl | (repeat' split) <;> (first | rfl | simp; done) | dsimp only; (repeat' split) <;> (first | rfl | simp; done)
@[simp] theorem partLog_fns (s : State) (p kind ltile : Nat) (fs : List Fl) : (s.partLog p kind ltile fs).fns = s.fns := by
  unfold State.partLog
  first | rfl | (repeat' split) <;> (first | rfl | simp; done) | dsimp only; (repeat' split) <;> (first | rfl | simp; done)
@[simp] theorem partLog_cmds (s : State) (p kind ltile : Nat) (fs : List Fl) : (s.partLog p kind ltile fs).cmds = s.cmds := by
  unfold State.partLog
  first | rfl | (repeat' split) <;> (first | rfl | simp; done) | dsimp only; (repeat' split) <;> (first | rfl | simp; done)
@[simp] theorem partLog_host (s : State) (p kind ltile : Nat) (fs : List Fl) : (s.partLog p kind ltile fs).host = s.host := by
  unfold State.partLog
  first | rfl | (repeat' split) <;> (first | rfl | simp; done) | dsimp only; (repeat' split) <;> (first | rfl | simp; done)
@[simp] theorem partLog_faults (s : State) (p kind ltile : Nat) (fs : List Fl) : (s.partLog p kind ltile fs).faults = s.faults := by
  unfold State.partLog
  first | rfl | (repeat' split) <;> (first | rfl | simp; done) | dsimp only; (repeat' split) <;> (first | rfl | simp; done)
@[simp] theorem partLog_power (s : State) (p kind ltile : Nat) (fs : List Fl) : (s.partLog p kind ltile fs).power = s.power := by
  unfold State.partLog
  first | rfl | (repeat' split) <;> (first | rfl | simp; done) | dsimp only; (repeat' split) <;> (first | rfl | simp; done)
@[simp] theorem partLog_sec (s : State) (p kind ltile : Nat) (fs : List Fl) : (s.partLog p kind ltile fs).sec = s.sec := by
  unfold State.partLog
  first | rfl | (repeat' split) <;> (first | rfl | simp; done) | dsimp only; (repeat' split) <;> (first | rfl | simp; done)
@[simp] theorem partLog_up (s : State) (p kind ltile : Nat) (fs : List Fl) : (s.partLog p kind ltile fs).up = s.up := by
  unfold State.partLog
  first | rfl | (repeat' split) <;> (first | rfl | simp; done) | dsimp only; (repeat' split) <;> (first | rfl | simp; done)
@[simp] theorem partLog_pending (s : State) (p kind ltile : Nat) (fs : List Fl) : (s.partLog p kind ltile fs).pending = s.pending := by
  unfold State.partLog
  first | rfl | (repeat' split) <;> (first | rfl | simp; done) | dsimp only; (repeat' split) <;> (first | rfl | simp; done)

@[simp] theorem modLog_now (s : State) (kind ltile part : Nat) (fs : List Fl) : (s.modLog kind ltile part fs).now = s.now := by
  unfold State.modLog
  first | rfl | (repeat' split) <;> (first | rfl | simp; done) | dsimp only; (repeat' split) <;> (first | rfl | simp; done)
@[simp] theorem modLog_draws (s : State) (kind ltile part : Nat) (fs : List Fl) : (s.modLog kind ltile part fs).draws = s.draws := by
  unfold State.modLog
  first | rfl | (repeat' split) <;> (first | rfl | simp; done) | dsimp only; (repeat' split) <;> (first | rfl | simp; done)
@[simp] theorem modLog_tiles (s : State) (kind ltile part : Nat) (fs : List Fl) : (s.modLog kind ltile part fs).tiles = s.tiles := by
  unfold State.modLog
  first | rfl | (repeat' split) <;> (first | rfl | simp; done) | dsimp only; (repeat' split) <;> (first | rfl | simp; done)
@[simp] theorem modLog_seats (s : State) (kind ltile part : Nat) (fs : List Fl) : (s.modLog kind ltile part fs).seats = s.seats := by
  unfold State.modLog
  first | rfl | (repeat' split) <;> (first | rfl | simp; done) | dsimp only; (repeat' split) <;> (first | rfl | simp; done)
@[simp] theorem modLog_board (s : State) (kind ltile part : Nat) (fs : List Fl) : (s.modLog kind ltile part fs).board = s.board := by
  unfold State.modLog
  first | rfl | (repeat' split) <;> (first | rfl | simp; done) | dsimp only; (repeat' split) <;> (first | rfl | simp; done)
@[simp] theorem modLog_net (s : State) (kind ltile part : Nat) (fs : List Fl) : (s.modLog kind ltile part fs).net = s.net := by
  unfold State.modLog
  first | rfl | (repeat' split) <;> (first | rfl | simp; done) | dsimp only; (repeat' split) <;> (first | rfl | simp; done)
@[simp] theorem modLog_parts (s : State) (kind ltile part : Nat) (fs : List Fl) : (s.modLog kind ltile part fs).parts = s.parts := by
  unfold State.modLog
  first | rfl | (repeat' split) <;> (first | rfl | simp; done) | dsimp only; (repeat' split) <;> (first | rfl | simp; done)
@[simp] theorem modLog_hbm (s : State) (kind ltile part : Nat) (fs : List Fl) : (s.modLog kind ltile part fs).hbm = s.hbm := by
  unfold State.modLog
  first | rfl | (repeat' split) <;> (first | rfl | simp; done) | dsimp only; (repeat' split) <;> (first | rfl | simp; done)
@[simp] theorem modLog_locker (s : State) (kind ltile part : Nat) (fs : List Fl) : (s.modLog kind ltile part fs).locker = s.locker := by
  unfold State.modLog
  first | rfl | (repeat' split) <;> (first | rfl | simp; done) | dsimp only; (repeat' split) <;> (first | rfl | simp; done)
@[simp] theorem modLog_ports (s : State) (kind ltile part : Nat) (fs : List Fl) : (s.modLog kind ltile part fs).ports = s.ports := by
  unfold State.modLog
  first | rfl | (repeat' split) <;> (first | rfl | simp; done) | dsimp only; (repeat' split) <;> (first | rfl | simp; done)
@[simp] theorem modLog_fns (s : State) (kind ltile part : Nat) (fs : List Fl) : (s.modLog kind ltile part fs).fns = s.fns := by
  unfold State.modLog
  first | rfl | (repeat' split) <;> (first | rfl | simp; done) | dsimp only; (repeat' split) <;> (first | rfl | simp; done)
@[simp] theorem modLog_cmds (s : State) (kind ltile part : Nat) (fs : List Fl) : (s.modLog kind ltile part fs).cmds = s.cmds := by
  unfold State.modLog
  first | rfl | (repeat' split) <;> (first | rfl | simp; done) | dsimp only; (repeat' split) <;> (first | rfl | simp; done)
@[simp] theorem modLog_host (s : State) (kind ltile part : Nat) (fs : List Fl) : (s.modLog kind ltile part fs).host = s.host := by
  unfold State.modLog
  first | rfl | (repeat' split) <;> (first | rfl | simp; done) | dsimp only; (repeat' split) <;> (first | rfl | simp; done)
@[simp] theorem modLog_power (s : State) (kind ltile part : Nat) (fs : List Fl) : (s.modLog kind ltile part fs).power = s.power := by
  unfold State.modLog
  first | rfl | (repeat' split) <;> (first | rfl | simp; done) | dsimp only; (repeat' split) <;> (first | rfl | simp; done)
@[simp] theorem modLog_sec (s : State) (kind ltile part : Nat) (fs : List Fl) : (s.modLog kind ltile part fs).sec = s.sec := by
  unfold State.modLog
  first | rfl | (repeat' split) <;> (first | rfl | simp; done) | dsimp only; (repeat' split) <;> (first | rfl | simp; done)
@[simp] theorem modLog_up (s : State) (kind ltile part : Nat) (fs : List Fl) : (s.modLog kind ltile part fs).up = s.up := by
  unfold State.modLog
  first | rfl | (repeat' split) <;> (first | rfl | simp; done) | dsimp only; (repeat' split) <;> (first | rfl | simp; done)
@[simp] theorem modLog_pending (s : State) (kind ltile part : Nat) (fs : List Fl) : (s.modLog kind ltile part fs).pending = s.pending := by
  unfold State.modLog
  first | rfl | (repeat' split) <;> (first | rfl | simp; done) | dsimp only; (repeat' split) <;> (first | rfl | simp; done)

@[simp] theorem finish_now (s : State) (c : Cmd) (status : Nat) (result : List Word) (detail : Nat) : (s.finish c status result detail).now = s.now := by
  unfold State.finish
  first | rfl | (repeat' split) <;> (first | rfl | simp; done) | dsimp only; (repeat' split) <;> (first | rfl | simp; done)
@[simp] theorem finish_draws (s : State) (c : Cmd) (status : Nat) (result : List Word) (detail : Nat) : (s.finish c status result detail).draws = s.draws := by
  unfold State.finish
  first | rfl | (repeat' split) <;> (first | rfl | simp; done) | dsimp only; (repeat' split) <;> (first | rfl | simp; done)
@[simp] theorem finish_tiles (s : State) (c : Cmd) (status : Nat) (result : List Word) (detail : Nat) : (s.finish c status result detail).tiles = s.tiles := by
  unfold State.finish
  first | rfl | (repeat' split) <;> (first | rfl | simp; done) | dsimp only; (repeat' split) <;> (first | rfl | simp; done)
@[simp] theorem finish_seats (s : State) (c : Cmd) (status : Nat) (result : List Word) (detail : Nat) : (s.finish c status result detail).seats = s.seats := by
  unfold State.finish
  first | rfl | (repeat' split) <;> (first | rfl | simp; done) | dsimp only; (repeat' split) <;> (first | rfl | simp; done)
@[simp] theorem finish_board (s : State) (c : Cmd) (status : Nat) (result : List Word) (detail : Nat) : (s.finish c status result detail).board = s.board := by
  unfold State.finish
  first | rfl | (repeat' split) <;> (first | rfl | simp; done) | dsimp only; (repeat' split) <;> (first | rfl | simp; done)
@[simp] theorem finish_net (s : State) (c : Cmd) (status : Nat) (result : List Word) (detail : Nat) : (s.finish c status result detail).net = s.net := by
  unfold State.finish
  first | rfl | (repeat' split) <;> (first | rfl | simp; done) | dsimp only; (repeat' split) <;> (first | rfl | simp; done)
@[simp] theorem finish_parts (s : State) (c : Cmd) (status : Nat) (result : List Word) (detail : Nat) : (s.finish c status result detail).parts = s.parts := by
  unfold State.finish
  first | rfl | (repeat' split) <;> (first | rfl | simp; done) | dsimp only; (repeat' split) <;> (first | rfl | simp; done)
@[simp] theorem finish_hbm (s : State) (c : Cmd) (status : Nat) (result : List Word) (detail : Nat) : (s.finish c status result detail).hbm = s.hbm := by
  unfold State.finish
  first | rfl | (repeat' split) <;> (first | rfl | simp; done) | dsimp only; (repeat' split) <;> (first | rfl | simp; done)
@[simp] theorem finish_locker (s : State) (c : Cmd) (status : Nat) (result : List Word) (detail : Nat) : (s.finish c status result detail).locker = s.locker := by
  unfold State.finish
  first | rfl | (repeat' split) <;> (first | rfl | simp; done) | dsimp only; (repeat' split) <;> (first | rfl | simp; done)
@[simp] theorem finish_ports (s : State) (c : Cmd) (status : Nat) (result : List Word) (detail : Nat) : (s.finish c status result detail).ports = s.ports := by
  unfold State.finish
  first | rfl | (repeat' split) <;> (first | rfl | simp; done) | dsimp only; (repeat' split) <;> (first | rfl | simp; done)
@[simp] theorem finish_host (s : State) (c : Cmd) (status : Nat) (result : List Word) (detail : Nat) : (s.finish c status result detail).host = s.host := by
  unfold State.finish
  first | rfl | (repeat' split) <;> (first | rfl | simp; done) | dsimp only; (repeat' split) <;> (first | rfl | simp; done)
@[simp] theorem finish_faults (s : State) (c : Cmd) (status : Nat) (result : List Word) (detail : Nat) : (s.finish c status result detail).faults = s.faults := by
  unfold State.finish
  first | rfl | (repeat' split) <;> (first | rfl | simp; done) | dsimp only; (repeat' split) <;> (first | rfl | simp; done)
@[simp] theorem finish_power (s : State) (c : Cmd) (status : Nat) (result : List Word) (detail : Nat) : (s.finish c status result detail).power = s.power := by
  unfold State.finish
  first | rfl | (repeat' split) <;> (first | rfl | simp; done) | dsimp only; (repeat' split) <;> (first | rfl | simp; done)
@[simp] theorem finish_sec (s : State) (c : Cmd) (status : Nat) (result : List Word) (detail : Nat) : (s.finish c status result detail).sec = s.sec := by
  unfold State.finish
  first | rfl | (repeat' split) <;> (first | rfl | simp; done) | dsimp only; (repeat' split) <;> (first | rfl | simp; done)
@[simp] theorem finish_up (s : State) (c : Cmd) (status : Nat) (result : List Word) (detail : Nat) : (s.finish c status result detail).up = s.up := by
  unfold State.finish
  first | rfl | (repeat' split) <;> (first | rfl | simp; done) | dsimp only; (repeat' split) <;> (first | rfl | simp; done)
@[simp] theorem finish_pending (s : State) (c : Cmd) (status : Nat) (result : List Word) (detail : Nat) : (s.finish c status result detail).pending = s.pending := by
  unfold State.finish
  first | rfl | (repeat' split) <;> (first | rfl | simp; done) | dsimp only; (repeat' split) <;> (first | rfl | simp; done)

@[simp] theorem setCmd_now (s : State) (c d : Cmd) : (s.setCmd c d).now = s.now := by
  unfold State.setCmd
  first | rfl | (repeat' split) <;> (first | rfl | simp; done) | dsimp only; (repeat' split) <;> (first | rfl | simp; done)
@[simp] theorem setCmd_draws (s : State) (c d : Cmd) : (s.setCmd c d).draws = s.draws := by
  unfold State.setCmd
  first | rfl | (repeat' split) <;> (first | rfl | simp; done) | dsimp only; (repeat' split) <;> (first | rfl | simp; done)
@[simp] theorem setCmd_tiles (s : State) (c d : Cmd) : (s.setCmd c d).tiles = s.tiles := by
  unfold State.setCmd
  first | rfl | (repeat' split) <;> (first | rfl | simp; done) | dsimp only; (repeat' split) <;> (first | rfl | simp; done)
@[simp] theorem setCmd_seats (s : State) (c d : Cmd) : (s.setCmd c d).seats = s.seats := by
  unfold State.setCmd
  first | rfl | (repeat' split) <;> (first | rfl | simp; done) | dsimp only; (repeat' split) <;> (first | rfl | simp; done)
@[simp] theorem setCmd_board (s : State) (c d : Cmd) : (s.setCmd c d).board = s.board := by
  unfold State.setCmd
  first | rfl | (repeat' split) <;> (first | rfl | simp; done) | dsimp only; (repeat' split) <;> (first | rfl | simp; done)
@[simp] theorem setCmd_net (s : State) (c d : Cmd) : (s.setCmd c d).net = s.net := by
  unfold State.setCmd
  first | rfl | (repeat' split) <;> (first | rfl | simp; done) | dsimp only; (repeat' split) <;> (first | rfl | simp; done)
@[simp] theorem setCmd_parts (s : State) (c d : Cmd) : (s.setCmd c d).parts = s.parts := by
  unfold State.setCmd
  first | rfl | (repeat' split) <;> (first | rfl | simp; done) | dsimp only; (repeat' split) <;> (first | rfl | simp; done)
@[simp] theorem setCmd_hbm (s : State) (c d : Cmd) : (s.setCmd c d).hbm = s.hbm := by
  unfold State.setCmd
  first | rfl | (repeat' split) <;> (first | rfl | simp; done) | dsimp only; (repeat' split) <;> (first | rfl | simp; done)
@[simp] theorem setCmd_locker (s : State) (c d : Cmd) : (s.setCmd c d).locker = s.locker := by
  unfold State.setCmd
  first | rfl | (repeat' split) <;> (first | rfl | simp; done) | dsimp only; (repeat' split) <;> (first | rfl | simp; done)
@[simp] theorem setCmd_ports (s : State) (c d : Cmd) : (s.setCmd c d).ports = s.ports := by
  unfold State.setCmd
  first | rfl | (repeat' split) <;> (first | rfl | simp; done) | dsimp only; (repeat' split) <;> (first | rfl | simp; done)
@[simp] theorem setCmd_fns (s : State) (c d : Cmd) : (s.setCmd c d).fns = s.fns := by
  unfold State.setCmd
  first | rfl | (repeat' split) <;> (first | rfl | simp; done) | dsimp only; (repeat' split) <;> (first | rfl | simp; done)
@[simp] theorem setCmd_host (s : State) (c d : Cmd) : (s.setCmd c d).host = s.host := by
  unfold State.setCmd
  first | rfl | (repeat' split) <;> (first | rfl | simp; done) | dsimp only; (repeat' split) <;> (first | rfl | simp; done)
@[simp] theorem setCmd_faults (s : State) (c d : Cmd) : (s.setCmd c d).faults = s.faults := by
  unfold State.setCmd
  first | rfl | (repeat' split) <;> (first | rfl | simp; done) | dsimp only; (repeat' split) <;> (first | rfl | simp; done)
@[simp] theorem setCmd_power (s : State) (c d : Cmd) : (s.setCmd c d).power = s.power := by
  unfold State.setCmd
  first | rfl | (repeat' split) <;> (first | rfl | simp; done) | dsimp only; (repeat' split) <;> (first | rfl | simp; done)
@[simp] theorem setCmd_sec (s : State) (c d : Cmd) : (s.setCmd c d).sec = s.sec := by
  unfold State.setCmd
  first | rfl | (repeat' split) <;> (first | rfl | simp; done) | dsimp only; (repeat' split) <;> (first | rfl | simp; done)
@[simp] theorem setCmd_up (s : State) (c d : Cmd) : (s.setCmd c d).up = s.up := by
  unfold State.setCmd
  first | rfl | (repeat' split) <;> (first | rfl | simp; done) | dsimp only; (repeat' split) <;> (first | rfl | simp; done)
@[simp] theorem setCmd_pending (s : State) (c d : Cmd) : (s.setCmd c d).pending = s.pending := by
  unfold State.setCmd
  first | rfl | (repeat' split) <;> (first | rfl | simp; done) | dsimp only; (repeat' split) <;> (first | rfl | simp; done)

@[simp] theorem setGrade_now (s : State) (cls unit : Nat) (g : Grade) : (s.setGrade cls unit g).now = s.now := by
  unfold State.setGrade
  first | rfl | (repeat' split) <;> (first | rfl | simp; done) | dsimp only; (repeat' split) <;> (first | rfl | simp; done)
@[simp] theorem setGrade_draws (s : State) (cls unit : Nat) (g : Grade) : (s.setGrade cls unit g).draws = s.draws := by
  unfold State.setGrade
  first | rfl | (repeat' split) <;> (first | rfl | simp; done) | dsimp only; (repeat' split) <;> (first | rfl | simp; done)
@[simp] theorem setGrade_tiles (s : State) (cls unit : Nat) (g : Grade) : (s.setGrade cls unit g).tiles = s.tiles := by
  unfold State.setGrade
  first | rfl | (repeat' split) <;> (first | rfl | simp; done) | dsimp only; (repeat' split) <;> (first | rfl | simp; done)
@[simp] theorem setGrade_seats (s : State) (cls unit : Nat) (g : Grade) : (s.setGrade cls unit g).seats = s.seats := by
  unfold State.setGrade
  first | rfl | (repeat' split) <;> (first | rfl | simp; done) | dsimp only; (repeat' split) <;> (first | rfl | simp; done)
@[simp] theorem setGrade_board (s : State) (cls unit : Nat) (g : Grade) : (s.setGrade cls unit g).board = s.board := by
  unfold State.setGrade
  first | rfl | (repeat' split) <;> (first | rfl | simp; done) | dsimp only; (repeat' split) <;> (first | rfl | simp; done)
@[simp] theorem setGrade_net (s : State) (cls unit : Nat) (g : Grade) : (s.setGrade cls unit g).net = s.net := by
  unfold State.setGrade
  first | rfl | (repeat' split) <;> (first | rfl | simp; done) | dsimp only; (repeat' split) <;> (first | rfl | simp; done)
@[simp] theorem setGrade_parts (s : State) (cls unit : Nat) (g : Grade) : (s.setGrade cls unit g).parts = s.parts := by
  unfold State.setGrade
  first | rfl | (repeat' split) <;> (first | rfl | simp; done) | dsimp only; (repeat' split) <;> (first | rfl | simp; done)
@[simp] theorem setGrade_hbm (s : State) (cls unit : Nat) (g : Grade) : (s.setGrade cls unit g).hbm = s.hbm := by
  unfold State.setGrade
  first | rfl | (repeat' split) <;> (first | rfl | simp; done) | dsimp only; (repeat' split) <;> (first | rfl | simp; done)
@[simp] theorem setGrade_locker (s : State) (cls unit : Nat) (g : Grade) : (s.setGrade cls unit g).locker = s.locker := by
  unfold State.setGrade
  first | rfl | (repeat' split) <;> (first | rfl | simp; done) | dsimp only; (repeat' split) <;> (first | rfl | simp; done)
@[simp] theorem setGrade_ports (s : State) (cls unit : Nat) (g : Grade) : (s.setGrade cls unit g).ports = s.ports := by
  unfold State.setGrade
  first | rfl | (repeat' split) <;> (first | rfl | simp; done) | dsimp only; (repeat' split) <;> (first | rfl | simp; done)
@[simp] theorem setGrade_fns (s : State) (cls unit : Nat) (g : Grade) : (s.setGrade cls unit g).fns = s.fns := by
  unfold State.setGrade
  first | rfl | (repeat' split) <;> (first | rfl | simp; done) | dsimp only; (repeat' split) <;> (first | rfl | simp; done)
@[simp] theorem setGrade_cmds (s : State) (cls unit : Nat) (g : Grade) : (s.setGrade cls unit g).cmds = s.cmds := by
  unfold State.setGrade
  first | rfl | (repeat' split) <;> (first | rfl | simp; done) | dsimp only; (repeat' split) <;> (first | rfl | simp; done)
@[simp] theorem setGrade_host (s : State) (cls unit : Nat) (g : Grade) : (s.setGrade cls unit g).host = s.host := by
  unfold State.setGrade
  first | rfl | (repeat' split) <;> (first | rfl | simp; done) | dsimp only; (repeat' split) <;> (first | rfl | simp; done)
@[simp] theorem setGrade_power (s : State) (cls unit : Nat) (g : Grade) : (s.setGrade cls unit g).power = s.power := by
  unfold State.setGrade
  first | rfl | (repeat' split) <;> (first | rfl | simp; done) | dsimp only; (repeat' split) <;> (first | rfl | simp; done)
@[simp] theorem setGrade_sec (s : State) (cls unit : Nat) (g : Grade) : (s.setGrade cls unit g).sec = s.sec := by
  unfold State.setGrade
  first | rfl | (repeat' split) <;> (first | rfl | simp; done) | dsimp only; (repeat' split) <;> (first | rfl | simp; done)
@[simp] theorem setGrade_up (s : State) (cls unit : Nat) (g : Grade) : (s.setGrade cls unit g).up = s.up := by
  unfold State.setGrade
  first | rfl | (repeat' split) <;> (first | rfl | simp; done) | dsimp only; (repeat' split) <;> (first | rfl | simp; done)
@[simp] theorem setGrade_pending (s : State) (cls unit : Nat) (g : Grade) : (s.setGrade cls unit g).pending = s.pending := by
  unfold State.setGrade
  first | rfl | (repeat' split) <;> (first | rfl | simp; done) | dsimp only; (repeat' split) <;> (first | rfl | simp; done)

@[simp] theorem modGrade_now (s : State) (cls unit : Nat) (f : Grade → Grade) : (s.modGrade cls unit f).now = s.now := by
  unfold State.modGrade
  first | rfl | (repeat' split) <;> (first | rfl | simp; done) | dsimp only; (repeat' split) <;> (first | rfl | simp; done)
@[simp] theorem modGrade_draws (s : State) (cls unit : Nat) (f : Grade → Grade) : (s.modGrade cls unit f).draws = s.draws := by
  unfold State.modGrade
  first | rfl | (repeat' split) <;> (first | rfl | simp; done) | dsimp only; (repeat' split) <;> (first | rfl | simp; done)
@[simp] theorem modGrade_tiles (s : State) (cls unit : Nat) (f : Grade → Grade) : (s.modGrade cls unit f).tiles = s.tiles := by
  unfold State.modGrade
  first | rfl | (repeat' split) <;> (first | rfl | simp; done) | dsimp only; (repeat' split) <;> (first | rfl | simp; done)
@[simp] theorem modGrade_seats (s : State) (cls unit : Nat) (f : Grade → Grade) : (s.modGrade cls unit f).seats = s.seats := by
  unfold State.modGrade
  first | rfl | (repeat' split) <;> (first | rfl | simp; done) | dsimp only; (repeat' split) <;> (first | rfl | simp; done)
@[simp] theorem modGrade_board (s : State) (cls unit : Nat) (f : Grade → Grade) : (s.modGrade cls unit f).board = s.board := by
  unfold State.modGrade
  first | rfl | (repeat' split) <;> (first | rfl | simp; done) | dsimp only; (repeat' split) <;> (first | rfl | simp; done)
@[simp] theorem modGrade_net (s : State) (cls unit : Nat) (f : Grade → Grade) : (s.modGrade cls unit f).net = s.net := by
  unfold State.modGrade
  first | rfl | (repeat' split) <;> (first | rfl | simp; done) | dsimp only; (repeat' split) <;> (first | rfl | simp; done)
@[simp] theorem modGrade_parts (s : State) (cls unit : Nat) (f : Grade → Grade) : (s.modGrade cls unit f).parts = s.parts := by
  unfold State.modGrade
  first | rfl | (repeat' split) <;> (first | rfl | simp; done) | dsimp only; (repeat' split) <;> (first | rfl | simp; done)
@[simp] theorem modGrade_hbm (s : State) (cls unit : Nat) (f : Grade → Grade) : (s.modGrade cls unit f).hbm = s.hbm := by
  unfold State.modGrade
  first | rfl | (repeat' split) <;> (first | rfl | simp; done) | dsimp only; (repeat' split) <;> (first | rfl | simp; done)
@[simp] theorem modGrade_locker (s : State) (cls unit : Nat) (f : Grade → Grade) : (s.modGrade cls unit f).locker = s.locker := by
  unfold State.modGrade
  first | rfl | (repeat' split) <;> (first | rfl | simp; done) | dsimp only; (repeat' split) <;> (first | rfl | simp; done)
@[simp] theorem modGrade_ports (s : State) (cls unit : Nat) (f : Grade → Grade) : (s.modGrade cls unit f).ports = s.ports := by
  unfold State.modGrade
  first | rfl | (repeat' split) <;> (first | rfl | simp; done) | dsimp only; (repeat' split) <;> (first | rfl | simp; done)
@[simp] theorem modGrade_fns (s : State) (cls unit : Nat) (f : Grade → Grade) : (s.modGrade cls unit f).fns = s.fns := by
  unfold State.modGrade
  first | rfl | (repeat' split) <;> (first | rfl | simp; done) | dsimp only; (repeat' split) <;> (first | rfl | simp; done)
@[simp] theorem modGrade_cmds (s : State) (cls unit : Nat) (f : Grade → Grade) : (s.modGrade cls unit f).cmds = s.cmds := by
  unfold State.modGrade
  first | rfl | (repeat' split) <;> (first | rfl | simp; done) | dsimp only; (repeat' split) <;> (first | rfl | simp; done)
@[simp] theorem modGrade_host (s : State) (cls unit : Nat) (f : Grade → Grade) : (s.modGrade cls unit f).host = s.host := by
  unfold State.modGrade
  first | rfl | (repeat' split) <;> (first | rfl | simp; done) | dsimp only; (repeat' split) <;> (first | rfl | simp; done)
@[simp] theorem modGrade_power (s : State) (cls unit : Nat) (f : Grade → Grade) : (s.modGrade cls unit f).power = s.power := by
  unfold State.modGrade
  first | rfl | (repeat' split) <;> (first | rfl | simp; done) | dsimp only; (repeat' split) <;> (first | rfl | simp; done)
@[simp] theorem modGrade_sec (s : State) (cls unit : Nat) (f : Grade → Grade) : (s.modGrade cls unit f).sec = s.sec := by
  unfold State.modGrade
  first | rfl | (repeat' split) <;> (first | rfl | simp; done) | dsimp only; (repeat' split) <;> (first | rfl | simp; done)
@[simp] theorem modGrade_up (s : State) (cls unit : Nat) (f : Grade → Grade) : (s.modGrade cls unit f).up = s.up := by
  unfold State.modGrade
  first | rfl | (repeat' split) <;> (first | rfl | simp; done) | dsimp only; (repeat' split) <;> (first | rfl | simp; done)
@[simp] theorem modGrade_pending (s : State) (cls unit : Nat) (f : Grade → Grade) : (s.modGrade cls unit f).pending = s.pending := by
  unfold State.modGrade
  first | rfl | (repeat' split) <;> (first | rfl | simp; done) | dsimp only; (repeat' split) <;> (first | rfl | simp; done)

@[simp] theorem flashGrade_now (s : State) (cls unit : Nat) : (s.flashGrade cls unit).now = s.now := by
  unfold State.flashGrade
  first | rfl | (repeat' split) <;> (first | rfl | simp; done) | dsimp only; (repeat' split) <;> (first | rfl | simp; done)
@[simp] theorem flashGrade_draws (s : State) (cls unit : Nat) : (s.flashGrade cls unit).draws = s.draws := by
  unfold State.flashGrade
  first | rfl | (repeat' split) <;> (first | rfl | simp; done) | dsimp only; (repeat' split) <;> (first | rfl | simp; done)
@[simp] theorem flashGrade_tiles (s : State) (cls unit : Nat) : (s.flashGrade cls unit).tiles = s.tiles := by
  unfold State.flashGrade
  first | rfl | (repeat' split) <;> (first | rfl | simp; done) | dsimp only; (repeat' split) <;> (first | rfl | simp; done)
@[simp] theorem flashGrade_seats (s : State) (cls unit : Nat) : (s.flashGrade cls unit).seats = s.seats := by
  unfold State.flashGrade
  first | rfl | (repeat' split) <;> (first | rfl | simp; done) | dsimp only; (repeat' split) <;> (first | rfl | simp; done)
@[simp] theorem flashGrade_board (s : State) (cls unit : Nat) : (s.flashGrade cls unit).board = s.board := by
  unfold State.flashGrade
  first | rfl | (repeat' split) <;> (first | rfl | simp; done) | dsimp only; (repeat' split) <;> (first | rfl | simp; done)
@[simp] theorem flashGrade_net (s : State) (cls unit : Nat) : (s.flashGrade cls unit).net = s.net := by
  unfold State.flashGrade
  first | rfl | (repeat' split) <;> (first | rfl | simp; done) | dsimp only; (repeat' split) <;> (first | rfl | simp; done)
@[simp] theorem flashGrade_parts (s : State) (cls unit : Nat) : (s.flashGrade cls unit).parts = s.parts := by
  unfold State.flashGrade
  first | rfl | (repeat' split) <;> (first | rfl | simp; done) | dsimp only; (repeat' split) <;> (first | rfl | simp; done)
@[simp] theorem flashGrade_hbm (s : State) (cls unit : Nat) : (s.flashGrade cls unit).hbm = s.hbm := by
  unfold State.flashGrade
  first | rfl | (repeat' split) <;> (first | rfl | simp; done) | dsimp only; (repeat' split) <;> (first | rfl | simp; done)
@[simp] theorem flashGrade_locker (s : State) (cls unit : Nat) : (s.flashGrade cls unit).locker = s.locker := by
  unfold State.flashGrade
  first | rfl | (repeat' split) <;> (first | rfl | simp; done) | dsimp only; (repeat' split) <;> (first | rfl | simp; done)
@[simp] theorem flashGrade_ports (s : State) (cls unit : Nat) : (s.flashGrade cls unit).ports = s.ports := by
  unfold State.flashGrade
  first | rfl | (repeat' split) <;> (first | rfl | simp; done) | dsimp only; (repeat' split) <;> (first | rfl | simp; done)
@[simp] theorem flashGrade_fns (s : State) (cls unit : Nat) : (s.flashGrade cls unit).fns = s.fns := by
  unfold State.flashGrade
  first | rfl | (repeat' split) <;> (first | rfl | simp; done) | dsimp only; (repeat' split) <;> (first | rfl | simp; done)
@[simp] theorem flashGrade_cmds (s : State) (cls unit : Nat) : (s.flashGrade cls unit).cmds = s.cmds := by
  unfold State.flashGrade
  first | rfl | (repeat' split) <;> (first | rfl | simp; done) | dsimp only; (repeat' split) <;> (first | rfl | simp; done)
@[simp] theorem flashGrade_host (s : State) (cls unit : Nat) : (s.flashGrade cls unit).host = s.host := by
  unfold State.flashGrade
  first | rfl | (repeat' split) <;> (first | rfl | simp; done) | dsimp only; (repeat' split) <;> (first | rfl | simp; done)
@[simp] theorem flashGrade_power (s : State) (cls unit : Nat) : (s.flashGrade cls unit).power = s.power := by
  unfold State.flashGrade
  first | rfl | (repeat' split) <;> (first | rfl | simp; done) | dsimp only; (repeat' split) <;> (first | rfl | simp; done)
@[simp] theorem flashGrade_sec (s : State) (cls unit : Nat) : (s.flashGrade cls unit).sec = s.sec := by
  unfold State.flashGrade
  first | rfl | (repeat' split) <;> (first | rfl | simp; done) | dsimp only; (repeat' split) <;> (first | rfl | simp; done)
@[simp] theorem flashGrade_up (s : State) (cls unit : Nat) : (s.flashGrade cls unit).up = s.up := by
  unfold State.flashGrade
  first | rfl | (repeat' split) <;> (first | rfl | simp; done) | dsimp only; (repeat' split) <;> (first | rfl | simp; done)
@[simp] theorem flashGrade_pending (s : State) (cls unit : Nat) : (s.flashGrade cls unit).pending = s.pending := by
  unfold State.flashGrade
  first | rfl | (repeat' split) <;> (first | rfl | simp; done) | dsimp only; (repeat' split) <;> (first | rfl | simp; done)

@[simp] theorem retired_now (s : State) (cls unit left : Nat) : (s.retired cls unit left).now = s.now := by
  unfold State.retired
  first | rfl | (repeat' split) <;> (first | rfl | simp; done) | dsimp only; (repeat' split) <;> (first | rfl | simp; done)
@[simp] theorem retired_draws (s : State) (cls unit left : Nat) : (s.retired cls unit left).draws = s.draws := by
  unfold State.retired
  first | rfl | (repeat' split) <;> (first | rfl | simp; done) | dsimp only; (repeat' split) <;> (first | rfl | simp; done)
@[simp] theorem retired_tiles (s : State) (cls unit left : Nat) : (s.retired cls unit left).tiles = s.tiles := by
  unfold State.retired
  first | rfl | (repeat' split) <;> (first | rfl | simp; done) | dsimp only; (repeat' split) <;> (first | rfl | simp; done)
@[simp] theorem retired_seats (s : State) (cls unit left : Nat) : (s.retired cls unit left).seats = s.seats := by
  unfold State.retired
  first | rfl | (repeat' split) <;> (first | rfl | simp; done) | dsimp only; (repeat' split) <;> (first | rfl | simp; done)
@[simp] theorem retired_board (s : State) (cls unit left : Nat) : (s.retired cls unit left).board = s.board := by
  unfold State.retired
  first | rfl | (repeat' split) <;> (first | rfl | simp; done) | dsimp only; (repeat' split) <;> (first | rfl | simp; done)
@[simp] theorem retired_net (s : State) (cls unit left : Nat) : (s.retired cls unit left).net = s.net := by
  unfold State.retired
  first | rfl | (repeat' split) <;> (first | rfl | simp; done) | dsimp only; (repeat' split) <;> (first | rfl | simp; done)
@[simp] theorem retired_parts (s : State) (cls unit left : Nat) : (s.retired cls unit left).parts = s.parts := by
  unfold State.retired
  first | rfl | (repeat' split) <;> (first | rfl | simp; done) | dsimp only; (repeat' split) <;> (first | rfl | simp; done)
@[simp] theorem retired_hbm (s : State) (cls unit left : Nat) : (s.retired cls unit left).hbm = s.hbm := by
  unfold State.retired
  first | rfl | (repeat' split) <;> (first | rfl | simp; done) | dsimp only; (repeat' split) <;> (first | rfl | simp; done)
@[simp] theorem retired_locker (s : State) (cls unit left : Nat) : (s.retired cls unit left).locker = s.locker := by
  unfold State.retired
  first | rfl | (repeat' split) <;> (first | rfl | simp; done) | dsimp only; (repeat' split) <;> (first | rfl | simp; done)
@[simp] theorem retired_ports (s : State) (cls unit left : Nat) : (s.retired cls unit left).ports = s.ports := by
  unfold State.retired
  first | rfl | (repeat' split) <;> (first | rfl | simp; done) | dsimp only; (repeat' split) <;> (first | rfl | simp; done)
@[simp] theorem retired_cmds (s : State) (cls unit left : Nat) : (s.retired cls unit left).cmds = s.cmds := by
  unfold State.retired
  first | rfl | (repeat' split) <;> (first | rfl | simp; done) | dsimp only; (repeat' split) <;> (first | rfl | simp; done)
@[simp] theorem retired_power (s : State) (cls unit left : Nat) : (s.retired cls unit left).power = s.power := by
  unfold State.retired
  first | rfl | (repeat' split) <;> (first | rfl | simp; done) | dsimp only; (repeat' split) <;> (first | rfl | simp; done)
@[simp] theorem retired_sec (s : State) (cls unit left : Nat) : (s.retired cls unit left).sec = s.sec := by
  unfold State.retired
  first | rfl | (repeat' split) <;> (first | rfl | simp; done) | dsimp only; (repeat' split) <;> (first | rfl | simp; done)
@[simp] theorem retired_pending (s : State) (cls unit left : Nat) : (s.retired cls unit left).pending = s.pending := by
  unfold State.retired
  first | rfl | (repeat' split) <;> (first | rfl | simp; done) | dsimp only; (repeat' split) <;> (first | rfl | simp; done)
@[simp] theorem retired_up_ready (s : State) (cls unit left : Nat) : (s.retired cls unit left).up.ready = s.up.ready := by
  unfold State.retired
  first | rfl | (repeat' split) <;> (first | rfl | simp; done) | dsimp only; (repeat' split) <;> (first | rfl | simp; done)
@[simp] theorem retired_up_blocks (s : State) (cls unit left : Nat) : (s.retired cls unit left).up.blocks = s.up.blocks := by
  unfold State.retired
  first | rfl | (repeat' split) <;> (first | rfl | simp; done) | dsimp only; (repeat' split) <;> (first | rfl | simp; done)

@[simp] theorem channelEvent_now (s : State) (p : Option Nat) (slot c state : Nat) : (s.channelEvent p slot c state).now = s.now := by
  unfold State.channelEvent
  first | rfl | (repeat' split) <;> (first | rfl | simp; done) | dsimp only; (repeat' split) <;> (first | rfl | simp; done)
@[simp] theorem channelEvent_draws (s : State) (p : Option Nat) (slot c state : Nat) : (s.channelEvent p slot c state).draws = s.draws := by
  unfold State.channelEvent
  first | rfl | (repeat' split) <;> (first | rfl | simp; done) | dsimp only; (repeat' split) <;> (first | rfl | simp; done)
@[simp] theorem channelEvent_tiles (s : State) (p : Option Nat) (slot c state : Nat) : (s.channelEvent p slot c state).tiles = s.tiles := by
  unfold State.channelEvent
  first | rfl | (repeat' split) <;> (first | rfl | simp; done) | dsimp only; (repeat' split) <;> (first | rfl | simp; done)
@[simp] theorem channelEvent_seats (s : State) (p : Option Nat) (slot c state : Nat) : (s.channelEvent p slot c state).seats = s.seats := by
  unfold State.channelEvent
  first | rfl | (repeat' split) <;> (first | rfl | simp; done) | dsimp only; (repeat' split) <;> (first | rfl | simp; done)
@[simp] theorem channelEvent_board (s : State) (p : Option Nat) (slot c state : Nat) : (s.channelEvent p slot c state).board = s.board := by
  unfold State.channelEvent
  first | rfl | (repeat' split) <;> (first | rfl | simp; done) | dsimp only; (repeat' split) <;> (first | rfl | simp; done)
@[simp] theorem channelEvent_net (s : State) (p : Option Nat) (slot c state : Nat) : (s.channelEvent p slot c state).net = s.net := by
  unfold State.channelEvent
  first | rfl | (repeat' split) <;> (first | rfl | simp; done) | dsimp only; (repeat' split) <;> (first | rfl | simp; done)
@[simp] theorem channelEvent_parts (s : State) (p : Option Nat) (slot c state : Nat) : (s.channelEvent p slot c state).parts = s.parts := by
  unfold State.channelEvent
  first | rfl | (repeat' split) <;> (first | rfl | simp; done) | dsimp only; (repeat' split) <;> (first | rfl | simp; done)
@[simp] theorem channelEvent_hbm (s : State) (p : Option Nat) (slot c state : Nat) : (s.channelEvent p slot c state).hbm = s.hbm := by
  unfold State.channelEvent
  first | rfl | (repeat' split) <;> (first | rfl | simp; done) | dsimp only; (repeat' split) <;> (first | rfl | simp; done)
@[simp] theorem channelEvent_locker (s : State) (p : Option Nat) (slot c state : Nat) : (s.channelEvent p slot c state).locker = s.locker := by
  unfold State.channelEvent
  first | rfl | (repeat' split) <;> (first | rfl | simp; done) | dsimp only; (repeat' split) <;> (first | rfl | simp; done)
@[simp] theorem channelEvent_ports (s : State) (p : Option Nat) (slot c state : Nat) : (s.channelEvent p slot c state).ports = s.ports := by
  unfold State.channelEvent
  first | rfl | (repeat' split) <;> (first | rfl | simp; done) | dsimp only; (repeat' split) <;> (first | rfl | simp; done)
@[simp] theorem channelEvent_cmds (s : State) (p : Option Nat) (slot c state : Nat) : (s.channelEvent p slot c state).cmds = s.cmds := by
  unfold State.channelEvent
  first | rfl | (repeat' split) <;> (first | rfl | simp; done) | dsimp only; (repeat' split) <;> (first | rfl | simp; done)
@[simp] theorem channelEvent_faults (s : State) (p : Option Nat) (slot c state : Nat) : (s.channelEvent p slot c state).faults = s.faults := by
  unfold State.channelEvent
  first | rfl | (repeat' split) <;> (first | rfl | simp; done) | dsimp only; (repeat' split) <;> (first | rfl | simp; done)
@[simp] theorem channelEvent_power (s : State) (p : Option Nat) (slot c state : Nat) : (s.channelEvent p slot c state).power = s.power := by
  unfold State.channelEvent
  first | rfl | (repeat' split) <;> (first | rfl | simp; done) | dsimp only; (repeat' split) <;> (first | rfl | simp; done)
@[simp] theorem channelEvent_sec (s : State) (p : Option Nat) (slot c state : Nat) : (s.channelEvent p slot c state).sec = s.sec := by
  unfold State.channelEvent
  first | rfl | (repeat' split) <;> (first | rfl | simp; done) | dsimp only; (repeat' split) <;> (first | rfl | simp; done)
@[simp] theorem channelEvent_pending (s : State) (p : Option Nat) (slot c state : Nat) : (s.channelEvent p slot c state).pending = s.pending := by
  unfold State.channelEvent
  first | rfl | (repeat' split) <;> (first | rfl | simp; done) | dsimp only; (repeat' split) <;> (first | rfl | simp; done)
@[simp] theorem channelEvent_up_ready (s : State) (p : Option Nat) (slot c state : Nat) : (s.channelEvent p slot c state).up.ready = s.up.ready := by
  unfold State.channelEvent
  first | rfl | (repeat' split) <;> (first | rfl | simp; done) | dsimp only; (repeat' split) <;> (first | rfl | simp; done)
@[simp] theorem channelEvent_up_blocks (s : State) (p : Option Nat) (slot c state : Nat) : (s.channelEvent p slot c state).up.blocks = s.up.blocks := by
  unfold State.channelEvent
  first | rfl | (repeat' split) <;> (first | rfl | simp; done) | dsimp only; (repeat' split) <;> (first | rfl | simp; done)

@[simp] theorem setSlot_now (s : State) (p k : Nat) (st : SlotState) : (s.setSlot p k st).now = s.now := by
  unfold State.setSlot
  first | rfl | (repeat' split) <;> (first | rfl | simp; done) | dsimp only; (repeat' split) <;> (first | rfl | simp; done)
@[simp] theorem setSlot_draws (s : State) (p k : Nat) (st : SlotState) : (s.setSlot p k st).draws = s.draws := by
  unfold State.setSlot
  first | rfl | (repeat' split) <;> (first | rfl | simp; done) | dsimp only; (repeat' split) <;> (first | rfl | simp; done)
@[simp] theorem setSlot_tiles (s : State) (p k : Nat) (st : SlotState) : (s.setSlot p k st).tiles = s.tiles := by
  unfold State.setSlot
  first | rfl | (repeat' split) <;> (first | rfl | simp; done) | dsimp only; (repeat' split) <;> (first | rfl | simp; done)
@[simp] theorem setSlot_seats (s : State) (p k : Nat) (st : SlotState) : (s.setSlot p k st).seats = s.seats := by
  unfold State.setSlot
  first | rfl | (repeat' split) <;> (first | rfl | simp; done) | dsimp only; (repeat' split) <;> (first | rfl | simp; done)
@[simp] theorem setSlot_board (s : State) (p k : Nat) (st : SlotState) : (s.setSlot p k st).board = s.board := by
  unfold State.setSlot
  first | rfl | (repeat' split) <;> (first | rfl | simp; done) | dsimp only; (repeat' split) <;> (first | rfl | simp; done)
@[simp] theorem setSlot_net (s : State) (p k : Nat) (st : SlotState) : (s.setSlot p k st).net = s.net := by
  unfold State.setSlot
  first | rfl | (repeat' split) <;> (first | rfl | simp; done) | dsimp only; (repeat' split) <;> (first | rfl | simp; done)
@[simp] theorem setSlot_hbm (s : State) (p k : Nat) (st : SlotState) : (s.setSlot p k st).hbm = s.hbm := by
  unfold State.setSlot
  first | rfl | (repeat' split) <;> (first | rfl | simp; done) | dsimp only; (repeat' split) <;> (first | rfl | simp; done)
@[simp] theorem setSlot_locker (s : State) (p k : Nat) (st : SlotState) : (s.setSlot p k st).locker = s.locker := by
  unfold State.setSlot
  first | rfl | (repeat' split) <;> (first | rfl | simp; done) | dsimp only; (repeat' split) <;> (first | rfl | simp; done)
@[simp] theorem setSlot_ports (s : State) (p k : Nat) (st : SlotState) : (s.setSlot p k st).ports = s.ports := by
  unfold State.setSlot
  first | rfl | (repeat' split) <;> (first | rfl | simp; done) | dsimp only; (repeat' split) <;> (first | rfl | simp; done)
@[simp] theorem setSlot_fns (s : State) (p k : Nat) (st : SlotState) : (s.setSlot p k st).fns = s.fns := by
  unfold State.setSlot
  first | rfl | (repeat' split) <;> (first | rfl | simp; done) | dsimp only; (repeat' split) <;> (first | rfl | simp; done)
@[simp] theorem setSlot_cmds (s : State) (p k : Nat) (st : SlotState) : (s.setSlot p k st).cmds = s.cmds := by
  unfold State.setSlot
  first | rfl | (repeat' split) <;> (first | rfl | simp; done) | dsimp only; (repeat' split) <;> (first | rfl | simp; done)
@[simp] theorem setSlot_host (s : State) (p k : Nat) (st : SlotState) : (s.setSlot p k st).host = s.host := by
  unfold State.setSlot
  first | rfl | (repeat' split) <;> (first | rfl | simp; done) | dsimp only; (repeat' split) <;> (first | rfl | simp; done)
@[simp] theorem setSlot_faults (s : State) (p k : Nat) (st : SlotState) : (s.setSlot p k st).faults = s.faults := by
  unfold State.setSlot
  first | rfl | (repeat' split) <;> (first | rfl | simp; done) | dsimp only; (repeat' split) <;> (first | rfl | simp; done)
@[simp] theorem setSlot_power (s : State) (p k : Nat) (st : SlotState) : (s.setSlot p k st).power = s.power := by
  unfold State.setSlot
  first | rfl | (repeat' split) <;> (first | rfl | simp; done) | dsimp only; (repeat' split) <;> (first | rfl | simp; done)
@[simp] theorem setSlot_sec (s : State) (p k : Nat) (st : SlotState) : (s.setSlot p k st).sec = s.sec := by
  unfold State.setSlot
  first | rfl | (repeat' split) <;> (first | rfl | simp; done) | dsimp only; (repeat' split) <;> (first | rfl | simp; done)
@[simp] theorem setSlot_up (s : State) (p k : Nat) (st : SlotState) : (s.setSlot p k st).up = s.up := by
  unfold State.setSlot
  first | rfl | (repeat' split) <;> (first | rfl | simp; done) | dsimp only; (repeat' split) <;> (first | rfl | simp; done)
@[simp] theorem setSlot_pending (s : State) (p k : Nat) (st : SlotState) : (s.setSlot p k st).pending = s.pending := by
  unfold State.setSlot
  first | rfl | (repeat' split) <;> (first | rfl | simp; done) | dsimp only; (repeat' split) <;> (first | rfl | simp; done)

@[simp] theorem retirePc_now (s : State) (c : Nat) : (s.retirePc c).now = s.now := by
  unfold State.retirePc
  first | rfl | (repeat' split) <;> (first | rfl | simp; done) | dsimp only; (repeat' split) <;> (first | rfl | simp; done)
@[simp] theorem retirePc_draws (s : State) (c : Nat) : (s.retirePc c).draws = s.draws := by
  unfold State.retirePc
  first | rfl | (repeat' split) <;> (first | rfl | simp; done) | dsimp only; (repeat' split) <;> (first | rfl | simp; done)
@[simp] theorem retirePc_tiles (s : State) (c : Nat) : (s.retirePc c).tiles = s.tiles := by
  unfold State.retirePc
  first | rfl | (repeat' split) <;> (first | rfl | simp; done) | dsimp only; (repeat' split) <;> (first | rfl | simp; done)
@[simp] theorem retirePc_seats (s : State) (c : Nat) : (s.retirePc c).seats = s.seats := by
  unfold State.retirePc
  first | rfl | (repeat' split) <;> (first | rfl | simp; done) | dsimp only; (repeat' split) <;> (first | rfl | simp; done)
@[simp] theorem retirePc_board (s : State) (c : Nat) : (s.retirePc c).board = s.board := by
  unfold State.retirePc
  first | rfl | (repeat' split) <;> (first | rfl | simp; done) | dsimp only; (repeat' split) <;> (first | rfl | simp; done)
@[simp] theorem retirePc_net (s : State) (c : Nat) : (s.retirePc c).net = s.net := by
  unfold State.retirePc
  first | rfl | (repeat' split) <;> (first | rfl | simp; done) | dsimp only; (repeat' split) <;> (first | rfl | simp; done)
@[simp] theorem retirePc_parts (s : State) (c : Nat) : (s.retirePc c).parts = s.parts := by
  unfold State.retirePc
  first | rfl | (repeat' split) <;> (first | rfl | simp; done) | dsimp only; (repeat' split) <;> (first | rfl | simp; done)
@[simp] theorem retirePc_locker (s : State) (c : Nat) : (s.retirePc c).locker = s.locker := by
  unfold State.retirePc
  first | rfl | (repeat' split) <;> (first | rfl | simp; done) | dsimp only; (repeat' split) <;> (first | rfl | simp; done)
@[simp] theorem retirePc_ports (s : State) (c : Nat) : (s.retirePc c).ports = s.ports := by
  unfold State.retirePc
  first | rfl | (repeat' split) <;> (first | rfl | simp; done) | dsimp only; (repeat' split) <;> (first | rfl | simp; done)
@[simp] theorem retirePc_cmds (s : State) (c : Nat) : (s.retirePc c).cmds = s.cmds := by
  unfold State.retirePc
  first | rfl | (repeat' split) <;> (first | rfl | simp; done) | dsimp only; (repeat' split) <;> (first | rfl | simp; done)
@[simp] theorem retirePc_power (s : State) (c : Nat) : (s.retirePc c).power = s.power := by
  unfold State.retirePc
  first | rfl | (repeat' split) <;> (first | rfl | simp; done) | dsimp only; (repeat' split) <;> (first | rfl | simp; done)
@[simp] theorem retirePc_sec (s : State) (c : Nat) : (s.retirePc c).sec = s.sec := by
  unfold State.retirePc
  first | rfl | (repeat' split) <;> (first | rfl | simp; done) | dsimp only; (repeat' split) <;> (first | rfl | simp; done)
@[simp] theorem retirePc_pending (s : State) (c : Nat) : (s.retirePc c).pending = s.pending := by
  unfold State.retirePc
  first | rfl | (repeat' split) <;> (first | rfl | simp; done) | dsimp only; (repeat' split) <;> (first | rfl | simp; done)
@[simp] theorem retirePc_up_ready (s : State) (c : Nat) : (s.retirePc c).up.ready = s.up.ready := by
  unfold State.retirePc
  first | rfl | (repeat' split) <;> (first | rfl | simp; done) | dsimp only; (repeat' split) <;> (first | rfl | simp; done)
@[simp] theorem retirePc_up_blocks (s : State) (c : Nat) : (s.retirePc c).up.blocks = s.up.blocks := by
  unfold State.retirePc
  first | rfl | (repeat' split) <;> (first | rfl | simp; done) | dsimp only; (repeat' split) <;> (first | rfl | simp; done)

@[simp] theorem retireSlot_now (s : State) (p k : Nat) : (s.retireSlot p k).now = s.now := by
  unfold State.retireSlot
  first | rfl | (repeat' split) <;> (first | rfl | simp; done) | dsimp only; (repeat' split) <;> (first | rfl | simp; done)
@[simp] theorem retireSlot_draws (s : State) (p k : Nat) : (s.retireSlot p k).draws = s.draws := by
  unfold State.retireSlot
  first | rfl | (repeat' split) <;> (first | rfl | simp; done) | dsimp only; (repeat' split) <;> (first | rfl | simp; done)
@[simp] theorem retireSlot_tiles (s : State) (p k : Nat) : (s.retireSlot p k).tiles = s.tiles := by
  unfold State.retireSlot
  first | rfl | (repeat' split) <;> (first | rfl | simp; done) | dsimp only; (repeat' split) <;> (first | rfl | simp; done)
@[simp] theorem retireSlot_seats (s : State) (p k : Nat) : (s.retireSlot p k).seats = s.seats := by
  unfold State.retireSlot
  first | rfl | (repeat' split) <;> (first | rfl | simp; done) | dsimp only; (repeat' split) <;> (first | rfl | simp; done)
@[simp] theorem retireSlot_board (s : State) (p k : Nat) : (s.retireSlot p k).board = s.board := by
  unfold State.retireSlot
  first | rfl | (repeat' split) <;> (first | rfl | simp; done) | dsimp only; (repeat' split) <;> (first | rfl | simp; done)
@[simp] theorem retireSlot_net (s : State) (p k : Nat) : (s.retireSlot p k).net = s.net := by
  unfold State.retireSlot
  first | rfl | (repeat' split) <;> (first | rfl | simp; done) | dsimp only; (repeat' split) <;> (first | rfl | simp; done)
@[simp] theorem retireSlot_locker (s : State) (p k : Nat) : (s.retireSlot p k).locker = s.locker := by
  unfold State.retireSlot
  first | rfl | (repeat' split) <;> (first | rfl | simp; done) | dsimp only; (repeat' split) <;> (first | rfl | simp; done)
@[simp] theorem retireSlot_ports (s : State) (p k : Nat) : (s.retireSlot p k).ports = s.ports := by
  unfold State.retireSlot
  first | rfl | (repeat' split) <;> (first | rfl | simp; done) | dsimp only; (repeat' split) <;> (first | rfl | simp; done)
@[simp] theorem retireSlot_cmds (s : State) (p k : Nat) : (s.retireSlot p k).cmds = s.cmds := by
  unfold State.retireSlot
  first | rfl | (repeat' split) <;> (first | rfl | simp; done) | dsimp only; (repeat' split) <;> (first | rfl | simp; done)
@[simp] theorem retireSlot_power (s : State) (p k : Nat) : (s.retireSlot p k).power = s.power := by
  unfold State.retireSlot
  first | rfl | (repeat' split) <;> (first | rfl | simp; done) | dsimp only; (repeat' split) <;> (first | rfl | simp; done)
@[simp] theorem retireSlot_sec (s : State) (p k : Nat) : (s.retireSlot p k).sec = s.sec := by
  unfold State.retireSlot
  first | rfl | (repeat' split) <;> (first | rfl | simp; done) | dsimp only; (repeat' split) <;> (first | rfl | simp; done)
@[simp] theorem retireSlot_pending (s : State) (p k : Nat) : (s.retireSlot p k).pending = s.pending := by
  unfold State.retireSlot
  first | rfl | (repeat' split) <;> (first | rfl | simp; done) | dsimp only; (repeat' split) <;> (first | rfl | simp; done)
@[simp] theorem retireSlot_up_ready (s : State) (p k : Nat) : (s.retireSlot p k).up.ready = s.up.ready := by
  unfold State.retireSlot
  first | rfl | (repeat' split) <;> (first | rfl | simp; done) | dsimp only; (repeat' split) <;> (first | rfl | simp; done)
@[simp] theorem retireSlot_up_blocks (s : State) (p k : Nat) : (s.retireSlot p k).up.blocks = s.up.blocks := by
  unfold State.retireSlot
  first | rfl | (repeat' split) <;> (first | rfl | simp; done) | dsimp only; (repeat' split) <;> (first | rfl | simp; done)

@[simp] theorem condemnPc_now (s : State) (c : Nat) : (s.condemnPc c).now = s.now := by
  unfold State.condemnPc
  first | rfl | (repeat' split) <;> (first | rfl | simp; done) | dsimp only; (repeat' split) <;> (first | rfl | simp; done)
@[simp] theorem condemnPc_draws (s : State) (c : Nat) : (s.condemnPc c).draws = s.draws := by
  unfold State.condemnPc
  first | rfl | (repeat' split) <;> (first | rfl | simp; done) | dsimp only; (repeat' split) <;> (first | rfl | simp; done)
@[simp] theorem condemnPc_tiles (s : State) (c : Nat) : (s.condemnPc c).tiles = s.tiles := by
  unfold State.condemnPc
  first | rfl | (repeat' split) <;> (first | rfl | simp; done) | dsimp only; (repeat' split) <;> (first | rfl | simp; done)
@[simp] theorem condemnPc_seats (s : State) (c : Nat) : (s.condemnPc c).seats = s.seats := by
  unfold State.condemnPc
  first | rfl | (repeat' split) <;> (first | rfl | simp; done) | dsimp only; (repeat' split) <;> (first | rfl | simp; done)
@[simp] theorem condemnPc_board (s : State) (c : Nat) : (s.condemnPc c).board = s.board := by
  unfold State.condemnPc
  first | rfl | (repeat' split) <;> (first | rfl | simp; done) | dsimp only; (repeat' split) <;> (first | rfl | simp; done)
@[simp] theorem condemnPc_net (s : State) (c : Nat) : (s.condemnPc c).net = s.net := by
  unfold State.condemnPc
  first | rfl | (repeat' split) <;> (first | rfl | simp; done) | dsimp only; (repeat' split) <;> (first | rfl | simp; done)
@[simp] theorem condemnPc_locker (s : State) (c : Nat) : (s.condemnPc c).locker = s.locker := by
  unfold State.condemnPc
  first | rfl | (repeat' split) <;> (first | rfl | simp; done) | dsimp only; (repeat' split) <;> (first | rfl | simp; done)
@[simp] theorem condemnPc_ports (s : State) (c : Nat) : (s.condemnPc c).ports = s.ports := by
  unfold State.condemnPc
  first | rfl | (repeat' split) <;> (first | rfl | simp; done) | dsimp only; (repeat' split) <;> (first | rfl | simp; done)
@[simp] theorem condemnPc_cmds (s : State) (c : Nat) : (s.condemnPc c).cmds = s.cmds := by
  unfold State.condemnPc
  first | rfl | (repeat' split) <;> (first | rfl | simp; done) | dsimp only; (repeat' split) <;> (first | rfl | simp; done)
@[simp] theorem condemnPc_power (s : State) (c : Nat) : (s.condemnPc c).power = s.power := by
  unfold State.condemnPc
  first | rfl | (repeat' split) <;> (first | rfl | simp; done) | dsimp only; (repeat' split) <;> (first | rfl | simp; done)
@[simp] theorem condemnPc_sec (s : State) (c : Nat) : (s.condemnPc c).sec = s.sec := by
  unfold State.condemnPc
  first | rfl | (repeat' split) <;> (first | rfl | simp; done) | dsimp only; (repeat' split) <;> (first | rfl | simp; done)
@[simp] theorem condemnPc_pending (s : State) (c : Nat) : (s.condemnPc c).pending = s.pending := by
  unfold State.condemnPc
  first | rfl | (repeat' split) <;> (first | rfl | simp; done) | dsimp only; (repeat' split) <;> (first | rfl | simp; done)
@[simp] theorem condemnPc_up_ready (s : State) (c : Nat) : (s.condemnPc c).up.ready = s.up.ready := by
  unfold State.condemnPc
  first | rfl | (repeat' split) <;> (first | rfl | simp; done) | dsimp only; (repeat' split) <;> (first | rfl | simp; done)
@[simp] theorem condemnPc_up_blocks (s : State) (c : Nat) : (s.condemnPc c).up.blocks = s.up.blocks := by
  unfold State.condemnPc
  first | rfl | (repeat' split) <;> (first | rfl | simp; done) | dsimp only; (repeat' split) <;> (first | rfl | simp; done)

@[simp] theorem condemnSite_now (s : State) (x : Nat) : (s.condemnSite x).now = s.now := by
  unfold State.condemnSite
  first | rfl | (repeat' split) <;> (first | rfl | simp; done) | dsimp only; (repeat' split) <;> (first | rfl | simp; done)
@[simp] theorem condemnSite_draws (s : State) (x : Nat) : (s.condemnSite x).draws = s.draws := by
  unfold State.condemnSite
  first | rfl | (repeat' split) <;> (first | rfl | simp; done) | dsimp only; (repeat' split) <;> (first | rfl | simp; done)
@[simp] theorem condemnSite_tiles (s : State) (x : Nat) : (s.condemnSite x).tiles = s.tiles := by
  unfold State.condemnSite
  first | rfl | (repeat' split) <;> (first | rfl | simp; done) | dsimp only; (repeat' split) <;> (first | rfl | simp; done)
@[simp] theorem condemnSite_board (s : State) (x : Nat) : (s.condemnSite x).board = s.board := by
  unfold State.condemnSite
  first | rfl | (repeat' split) <;> (first | rfl | simp; done) | dsimp only; (repeat' split) <;> (first | rfl | simp; done)
@[simp] theorem condemnSite_net (s : State) (x : Nat) : (s.condemnSite x).net = s.net := by
  unfold State.condemnSite
  first | rfl | (repeat' split) <;> (first | rfl | simp; done) | dsimp only; (repeat' split) <;> (first | rfl | simp; done)
@[simp] theorem condemnSite_parts (s : State) (x : Nat) : (s.condemnSite x).parts = s.parts := by
  unfold State.condemnSite
  first | rfl | (repeat' split) <;> (first | rfl | simp; done) | dsimp only; (repeat' split) <;> (first | rfl | simp; done)
@[simp] theorem condemnSite_hbm (s : State) (x : Nat) : (s.condemnSite x).hbm = s.hbm := by
  unfold State.condemnSite
  first | rfl | (repeat' split) <;> (first | rfl | simp; done) | dsimp only; (repeat' split) <;> (first | rfl | simp; done)
@[simp] theorem condemnSite_locker (s : State) (x : Nat) : (s.condemnSite x).locker = s.locker := by
  unfold State.condemnSite
  first | rfl | (repeat' split) <;> (first | rfl | simp; done) | dsimp only; (repeat' split) <;> (first | rfl | simp; done)
@[simp] theorem condemnSite_ports (s : State) (x : Nat) : (s.condemnSite x).ports = s.ports := by
  unfold State.condemnSite
  first | rfl | (repeat' split) <;> (first | rfl | simp; done) | dsimp only; (repeat' split) <;> (first | rfl | simp; done)
@[simp] theorem condemnSite_cmds (s : State) (x : Nat) : (s.condemnSite x).cmds = s.cmds := by
  unfold State.condemnSite
  first | rfl | (repeat' split) <;> (first | rfl | simp; done) | dsimp only; (repeat' split) <;> (first | rfl | simp; done)
@[simp] theorem condemnSite_power (s : State) (x : Nat) : (s.condemnSite x).power = s.power := by
  unfold State.condemnSite
  first | rfl | (repeat' split) <;> (first | rfl | simp; done) | dsimp only; (repeat' split) <;> (first | rfl | simp; done)
@[simp] theorem condemnSite_sec (s : State) (x : Nat) : (s.condemnSite x).sec = s.sec := by
  unfold State.condemnSite
  first | rfl | (repeat' split) <;> (first | rfl | simp; done) | dsimp only; (repeat' split) <;> (first | rfl | simp; done)
@[simp] theorem condemnSite_pending (s : State) (x : Nat) : (s.condemnSite x).pending = s.pending := by
  unfold State.condemnSite
  first | rfl | (repeat' split) <;> (first | rfl | simp; done) | dsimp only; (repeat' split) <;> (first | rfl | simp; done)
@[simp] theorem condemnSite_up_ready (s : State) (x : Nat) : (s.condemnSite x).up.ready = s.up.ready := by
  unfold State.condemnSite
  first | rfl | (repeat' split) <;> (first | rfl | simp; done) | dsimp only; (repeat' split) <;> (first | rfl | simp; done)
@[simp] theorem condemnSite_up_blocks (s : State) (x : Nat) : (s.condemnSite x).up.blocks = s.up.blocks := by
  unfold State.condemnSite
  first | rfl | (repeat' split) <;> (first | rfl | simp; done) | dsimp only; (repeat' split) <;> (first | rfl | simp; done)

@[simp] theorem permanent_now (s : State) (cls unit : Nat) : (s.permanent cls unit).now = s.now := by
  unfold State.permanent
  first | rfl | (repeat' split) <;> (first | rfl | simp; done) | dsimp only; (repeat' split) <;> (first | rfl | simp; done)
@[simp] theorem permanent_draws (s : State) (cls unit : Nat) : (s.permanent cls unit).draws = s.draws := by
  unfold State.permanent
  first | rfl | (repeat' split) <;> (first | rfl | simp; done) | dsimp only; (repeat' split) <;> (first | rfl | simp; done)
@[simp] theorem permanent_tiles (s : State) (cls unit : Nat) : (s.permanent cls unit).tiles = s.tiles := by
  unfold State.permanent
  first | rfl | (repeat' split) <;> (first | rfl | simp; done) | dsimp only; (repeat' split) <;> (first | rfl | simp; done)
@[simp] theorem permanent_seats (s : State) (cls unit : Nat) : (s.permanent cls unit).seats = s.seats := by
  unfold State.permanent
  first | rfl | (repeat' split) <;> (first | rfl | simp; done) | dsimp only; (repeat' split) <;> (first | rfl | simp; done)
@[simp] theorem permanent_board (s : State) (cls unit : Nat) : (s.permanent cls unit).board = s.board := by
  unfold State.permanent
  first | rfl | (repeat' split) <;> (first | rfl | simp; done) | dsimp only; (repeat' split) <;> (first | rfl | simp; done)
@[simp] theorem permanent_net (s : State) (cls unit : Nat) : (s.permanent cls unit).net = s.net := by
  unfold State.permanent
  first | rfl | (repeat' split) <;> (first | rfl | simp; done) | dsimp only; (repeat' split) <;> (first | rfl | simp; done)
@[simp] theorem permanent_parts (s : State) (cls unit : Nat) : (s.permanent cls unit).parts = s.parts := by
  unfold State.permanent
  first | rfl | (repeat' split) <;> (first | rfl | simp; done) | dsimp only; (repeat' split) <;> (first | rfl | simp; done)
@[simp] theorem permanent_hbm (s : State) (cls unit : Nat) : (s.permanent cls unit).hbm = s.hbm := by
  unfold State.permanent
  first | rfl | (repeat' split) <;> (first | rfl | simp; done) | dsimp only; (repeat' split) <;> (first | rfl | simp; done)
@[simp] theorem permanent_locker (s : State) (cls unit : Nat) : (s.permanent cls unit).locker = s.locker := by
  unfold State.permanent
  first | rfl | (repeat' split) <;> (first | rfl | simp; done) | dsimp only; (repeat' split) <;> (first | rfl | simp; done)
@[simp] theorem permanent_ports (s : State) (cls unit : Nat) : (s.permanent cls unit).ports = s.ports := by
  unfold State.permanent
  first | rfl | (repeat' split) <;> (first | rfl | simp; done) | dsimp only; (repeat' split) <;> (first | rfl | simp; done)
@[simp] theorem permanent_cmds (s : State) (cls unit : Nat) : (s.permanent cls unit).cmds = s.cmds := by
  unfold State.permanent
  first | rfl | (repeat' split) <;> (first | rfl | simp; done) | dsimp only; (repeat' split) <;> (first | rfl | simp; done)
@[simp] theorem permanent_power (s : State) (cls unit : Nat) : (s.permanent cls unit).power = s.power := by
  unfold State.permanent
  first | rfl | (repeat' split) <;> (first | rfl | simp; done) | dsimp only; (repeat' split) <;> (first | rfl | simp; done)
@[simp] theorem permanent_sec (s : State) (cls unit : Nat) : (s.permanent cls unit).sec = s.sec := by
  unfold State.permanent
  first | rfl | (repeat' split) <;> (first | rfl | simp; done) | dsimp only; (repeat' split) <;> (first | rfl | simp; done)
@[simp] theorem permanent_pending (s : State) (cls unit : Nat) : (s.permanent cls unit).pending = s.pending := by
  unfold State.permanent
  first | rfl | (repeat' split) <;> (first | rfl | simp; done) | dsimp only; (repeat' split) <;> (first | rfl | simp; done)
@[simp] theorem permanent_up_ready (s : State) (cls unit : Nat) : (s.permanent cls unit).up.ready = s.up.ready := by
  unfold State.permanent
  first | rfl | (repeat' split) <;> (first | rfl | simp; done) | dsimp only; (repeat' split) <;> (first | rfl | simp; done)
@[simp] theorem permanent_up_blocks (s : State) (cls unit : Nat) : (s.permanent cls unit).up.blocks = s.up.blocks := by
  unfold State.permanent
  first | rfl | (repeat' split) <;> (first | rfl | simp; done) | dsimp only; (repeat' split) <;> (first | rfl | simp; done)

@[simp] theorem condemn_now (s : State) (cls unit : Nat) : (s.condemn cls unit).now = s.now := by
  unfold State.condemn
  first | rfl | (repeat' split) <;> (first | rfl | simp; done) | dsimp only; (repeat' split) <;> (first | rfl | simp; done)
@[simp] theorem condemn_draws (s : State) (cls unit : Nat) : (s.condemn cls unit).draws = s.draws := by
  unfold State.condemn
  first | rfl | (repeat' split) <;> (first | rfl | simp; done) | dsimp only; (repeat' split) <;> (first | rfl | simp; done)
@[simp] theorem condemn_tiles (s : State) (cls unit : Nat) : (s.condemn cls unit).tiles = s.tiles := by
  unfold State.condemn
  first | rfl | (repeat' split) <;> (first | rfl | simp; done) | dsimp only; (repeat' split) <;> (first | rfl | simp; done)
@[simp] theorem condemn_board (s : State) (cls unit : Nat) : (s.condemn cls unit).board = s.board := by
  unfold State.condemn
  first | rfl | (repeat' split) <;> (first | rfl | simp; done) | dsimp only; (repeat' split) <;> (first | rfl | simp; done)
@[simp] theorem condemn_net (s : State) (cls unit : Nat) : (s.condemn cls unit).net = s.net := by
  unfold State.condemn
  first | rfl | (repeat' split) <;> (first | rfl | simp; done) | dsimp only; (repeat' split) <;> (first | rfl | simp; done)
@[simp] theorem condemn_locker (s : State) (cls unit : Nat) : (s.condemn cls unit).locker = s.locker := by
  unfold State.condemn
  first | rfl | (repeat' split) <;> (first | rfl | simp; done) | dsimp only; (repeat' split) <;> (first | rfl | simp; done)
@[simp] theorem condemn_cmds (s : State) (cls unit : Nat) : (s.condemn cls unit).cmds = s.cmds := by
  unfold State.condemn
  first | rfl | (repeat' split) <;> (first | rfl | simp; done) | dsimp only; (repeat' split) <;> (first | rfl | simp; done)
@[simp] theorem condemn_power (s : State) (cls unit : Nat) : (s.condemn cls unit).power = s.power := by
  unfold State.condemn
  first | rfl | (repeat' split) <;> (first | rfl | simp; done) | dsimp only; (repeat' split) <;> (first | rfl | simp; done)
@[simp] theorem condemn_sec (s : State) (cls unit : Nat) : (s.condemn cls unit).sec = s.sec := by
  unfold State.condemn
  first | rfl | (repeat' split) <;> (first | rfl | simp; done) | dsimp only; (repeat' split) <;> (first | rfl | simp; done)
@[simp] theorem condemn_pending (s : State) (cls unit : Nat) : (s.condemn cls unit).pending = s.pending := by
  unfold State.condemn
  first | rfl | (repeat' split) <;> (first | rfl | simp; done) | dsimp only; (repeat' split) <;> (first | rfl | simp; done)
@[simp] theorem condemn_up_ready (s : State) (cls unit : Nat) : (s.condemn cls unit).up.ready = s.up.ready := by
  unfold State.condemn
  first | rfl | (repeat' split) <;> (first | rfl | simp; done) | dsimp only; (repeat' split) <;> (first | rfl | simp; done)
@[simp] theorem condemn_up_blocks (s : State) (cls unit : Nat) : (s.condemn cls unit).up.blocks = s.up.blocks := by
  unfold State.condemn
  first | rfl | (repeat' split) <;> (first | rfl | simp; done) | dsimp only; (repeat' split) <;> (first | rfl | simp; done)

@[simp] theorem countGrade_now (s : State) (cls unit addr : Nat) (proctor : Bool) : (s.countGrade cls unit addr proctor).now = s.now := by
  unfold State.countGrade
  first | rfl | (repeat' split) <;> (first | rfl | simp; done) | dsimp only; (repeat' split) <;> (first | rfl | simp; done)
@[simp] theorem countGrade_draws (s : State) (cls unit addr : Nat) (proctor : Bool) : (s.countGrade cls unit addr proctor).draws = s.draws := by
  unfold State.countGrade
  first | rfl | (repeat' split) <;> (first | rfl | simp; done) | dsimp only; (repeat' split) <;> (first | rfl | simp; done)
@[simp] theorem countGrade_tiles (s : State) (cls unit addr : Nat) (proctor : Bool) : (s.countGrade cls unit addr proctor).tiles = s.tiles := by
  unfold State.countGrade
  first | rfl | (repeat' split) <;> (first | rfl | simp; done) | dsimp only; (repeat' split) <;> (first | rfl | simp; done)
@[simp] theorem countGrade_board (s : State) (cls unit addr : Nat) (proctor : Bool) : (s.countGrade cls unit addr proctor).board = s.board := by
  unfold State.countGrade
  first | rfl | (repeat' split) <;> (first | rfl | simp; done) | dsimp only; (repeat' split) <;> (first | rfl | simp; done)
@[simp] theorem countGrade_net (s : State) (cls unit addr : Nat) (proctor : Bool) : (s.countGrade cls unit addr proctor).net = s.net := by
  unfold State.countGrade
  first | rfl | (repeat' split) <;> (first | rfl | simp; done) | dsimp only; (repeat' split) <;> (first | rfl | simp; done)
@[simp] theorem countGrade_locker (s : State) (cls unit addr : Nat) (proctor : Bool) : (s.countGrade cls unit addr proctor).locker = s.locker := by
  unfold State.countGrade
  first | rfl | (repeat' split) <;> (first | rfl | simp; done) | dsimp only; (repeat' split) <;> (first | rfl | simp; done)
@[simp] theorem countGrade_cmds (s : State) (cls unit addr : Nat) (proctor : Bool) : (s.countGrade cls unit addr proctor).cmds = s.cmds := by
  unfold State.countGrade
  first | rfl | (repeat' split) <;> (first | rfl | simp; done) | dsimp only; (repeat' split) <;> (first | rfl | simp; done)
@[simp] theorem countGrade_power (s : State) (cls unit addr : Nat) (proctor : Bool) : (s.countGrade cls unit addr proctor).power = s.power := by
  unfold State.countGrade
  first | rfl | (repeat' split) <;> (first | rfl | simp; done) | dsimp only; (repeat' split) <;> (first | rfl | simp; done)
@[simp] theorem countGrade_sec (s : State) (cls unit addr : Nat) (proctor : Bool) : (s.countGrade cls unit addr proctor).sec = s.sec := by
  unfold State.countGrade
  first | rfl | (repeat' split) <;> (first | rfl | simp; done) | dsimp only; (repeat' split) <;> (first | rfl | simp; done)
@[simp] theorem countGrade_pending (s : State) (cls unit addr : Nat) (proctor : Bool) : (s.countGrade cls unit addr proctor).pending = s.pending := by
  unfold State.countGrade
  first | rfl | (repeat' split) <;> (first | rfl | simp; done) | dsimp only; (repeat' split) <;> (first | rfl | simp; done)
@[simp] theorem countGrade_up_ready (s : State) (cls unit addr : Nat) (proctor : Bool) : (s.countGrade cls unit addr proctor).up.ready = s.up.ready := by
  unfold State.countGrade
  first | rfl | (repeat' split) <;> (first | rfl | simp; done) | dsimp only; (repeat' split) <;> (first | rfl | simp; done)
@[simp] theorem countGrade_up_blocks (s : State) (cls unit addr : Nat) (proctor : Bool) : (s.countGrade cls unit addr proctor).up.blocks = s.up.blocks := by
  unfold State.countGrade
  first | rfl | (repeat' split) <;> (first | rfl | simp; done) | dsimp only; (repeat' split) <;> (first | rfl | simp; done)

@[simp] theorem noteGrade_now (s : State) (cls unit : Nat) : (s.noteGrade cls unit).now = s.now := by
  unfold State.noteGrade
  first | rfl | (repeat' split) <;> (first | rfl | simp; done) | dsimp only; (repeat' split) <;> (first | rfl | simp; done)
@[simp] theorem noteGrade_draws (s : State) (cls unit : Nat) : (s.noteGrade cls unit).draws = s.draws := by
  unfold State.noteGrade
  first | rfl | (repeat' split) <;> (first | rfl | simp; done) | dsimp only; (repeat' split) <;> (first | rfl | simp; done)
@[simp] theorem noteGrade_tiles (s : State) (cls unit : Nat) : (s.noteGrade cls unit).tiles = s.tiles := by
  unfold State.noteGrade
  first | rfl | (repeat' split) <;> (first | rfl | simp; done) | dsimp only; (repeat' split) <;> (first | rfl | simp; done)
@[simp] theorem noteGrade_seats (s : State) (cls unit : Nat) : (s.noteGrade cls unit).seats = s.seats := by
  unfold State.noteGrade
  first | rfl | (repeat' split) <;> (first | rfl | simp; done) | dsimp only; (repeat' split) <;> (first | rfl | simp; done)
@[simp] theorem noteGrade_board (s : State) (cls unit : Nat) : (s.noteGrade cls unit).board = s.board := by
  unfold State.noteGrade
  first | rfl | (repeat' split) <;> (first | rfl | simp; done) | dsimp only; (repeat' split) <;> (first | rfl | simp; done)
@[simp] theorem noteGrade_net (s : State) (cls unit : Nat) : (s.noteGrade cls unit).net = s.net := by
  unfold State.noteGrade
  first | rfl | (repeat' split) <;> (first | rfl | simp; done) | dsimp only; (repeat' split) <;> (first | rfl | simp; done)
@[simp] theorem noteGrade_parts (s : State) (cls unit : Nat) : (s.noteGrade cls unit).parts = s.parts := by
  unfold State.noteGrade
  first | rfl | (repeat' split) <;> (first | rfl | simp; done) | dsimp only; (repeat' split) <;> (first | rfl | simp; done)
@[simp] theorem noteGrade_hbm (s : State) (cls unit : Nat) : (s.noteGrade cls unit).hbm = s.hbm := by
  unfold State.noteGrade
  first | rfl | (repeat' split) <;> (first | rfl | simp; done) | dsimp only; (repeat' split) <;> (first | rfl | simp; done)
@[simp] theorem noteGrade_locker (s : State) (cls unit : Nat) : (s.noteGrade cls unit).locker = s.locker := by
  unfold State.noteGrade
  first | rfl | (repeat' split) <;> (first | rfl | simp; done) | dsimp only; (repeat' split) <;> (first | rfl | simp; done)
@[simp] theorem noteGrade_ports (s : State) (cls unit : Nat) : (s.noteGrade cls unit).ports = s.ports := by
  unfold State.noteGrade
  first | rfl | (repeat' split) <;> (first | rfl | simp; done) | dsimp only; (repeat' split) <;> (first | rfl | simp; done)
@[simp] theorem noteGrade_fns (s : State) (cls unit : Nat) : (s.noteGrade cls unit).fns = s.fns := by
  unfold State.noteGrade
  first | rfl | (repeat' split) <;> (first | rfl | simp; done) | dsimp only; (repeat' split) <;> (first | rfl | simp; done)
@[simp] theorem noteGrade_cmds (s : State) (cls unit : Nat) : (s.noteGrade cls unit).cmds = s.cmds := by
  unfold State.noteGrade
  first | rfl | (repeat' split) <;> (first | rfl | simp; done) | dsimp only; (repeat' split) <;> (first | rfl | simp; done)
@[simp] theorem noteGrade_host (s : State) (cls unit : Nat) : (s.noteGrade cls unit).host = s.host := by
  unfold State.noteGrade
  first | rfl | (repeat' split) <;> (first | rfl | simp; done) | dsimp only; (repeat' split) <;> (first | rfl | simp; done)
@[simp] theorem noteGrade_power (s : State) (cls unit : Nat) : (s.noteGrade cls unit).power = s.power := by
  unfold State.noteGrade
  first | rfl | (repeat' split) <;> (first | rfl | simp; done) | dsimp only; (repeat' split) <;> (first | rfl | simp; done)
@[simp] theorem noteGrade_sec (s : State) (cls unit : Nat) : (s.noteGrade cls unit).sec = s.sec := by
  unfold State.noteGrade
  first | rfl | (repeat' split) <;> (first | rfl | simp; done) | dsimp only; (repeat' split) <;> (first | rfl | simp; done)
@[simp] theorem noteGrade_up (s : State) (cls unit : Nat) : (s.noteGrade cls unit).up = s.up := by
  unfold State.noteGrade
  first | rfl | (repeat' split) <;> (first | rfl | simp; done) | dsimp only; (repeat' split) <;> (first | rfl | simp; done)
@[simp] theorem noteGrade_pending (s : State) (cls unit : Nat) : (s.noteGrade cls unit).pending = s.pending := by
  unfold State.noteGrade
  first | rfl | (repeat' split) <;> (first | rfl | simp; done) | dsimp only; (repeat' split) <;> (first | rfl | simp; done)

@[simp] theorem correctGrade_now (s : State) (cls unit n : Nat) : (s.correctGrade cls unit n).now = s.now := by
  unfold State.correctGrade
  first | rfl | (repeat' split) <;> (first | rfl | simp; done) | dsimp only; (repeat' split) <;> (first | rfl | simp; done)
@[simp] theorem correctGrade_draws (s : State) (cls unit n : Nat) : (s.correctGrade cls unit n).draws = s.draws := by
  unfold State.correctGrade
  first | rfl | (repeat' split) <;> (first | rfl | simp; done) | dsimp only; (repeat' split) <;> (first | rfl | simp; done)
@[simp] theorem correctGrade_tiles (s : State) (cls unit n : Nat) : (s.correctGrade cls unit n).tiles = s.tiles := by
  unfold State.correctGrade
  first | rfl | (repeat' split) <;> (first | rfl | simp; done) | dsimp only; (repeat' split) <;> (first | rfl | simp; done)
@[simp] theorem correctGrade_seats (s : State) (cls unit n : Nat) : (s.correctGrade cls unit n).seats = s.seats := by
  unfold State.correctGrade
  first | rfl | (repeat' split) <;> (first | rfl | simp; done) | dsimp only; (repeat' split) <;> (first | rfl | simp; done)
@[simp] theorem correctGrade_board (s : State) (cls unit n : Nat) : (s.correctGrade cls unit n).board = s.board := by
  unfold State.correctGrade
  first | rfl | (repeat' split) <;> (first | rfl | simp; done) | dsimp only; (repeat' split) <;> (first | rfl | simp; done)
@[simp] theorem correctGrade_net (s : State) (cls unit n : Nat) : (s.correctGrade cls unit n).net = s.net := by
  unfold State.correctGrade
  first | rfl | (repeat' split) <;> (first | rfl | simp; done) | dsimp only; (repeat' split) <;> (first | rfl | simp; done)
@[simp] theorem correctGrade_parts (s : State) (cls unit n : Nat) : (s.correctGrade cls unit n).parts = s.parts := by
  unfold State.correctGrade
  first | rfl | (repeat' split) <;> (first | rfl | simp; done) | dsimp only; (repeat' split) <;> (first | rfl | simp; done)
@[simp] theorem correctGrade_hbm (s : State) (cls unit n : Nat) : (s.correctGrade cls unit n).hbm = s.hbm := by
  unfold State.correctGrade
  first | rfl | (repeat' split) <;> (first | rfl | simp; done) | dsimp only; (repeat' split) <;> (first | rfl | simp; done)
@[simp] theorem correctGrade_locker (s : State) (cls unit n : Nat) : (s.correctGrade cls unit n).locker = s.locker := by
  unfold State.correctGrade
  first | rfl | (repeat' split) <;> (first | rfl | simp; done) | dsimp only; (repeat' split) <;> (first | rfl | simp; done)
@[simp] theorem correctGrade_ports (s : State) (cls unit n : Nat) : (s.correctGrade cls unit n).ports = s.ports := by
  unfold State.correctGrade
  first | rfl | (repeat' split) <;> (first | rfl | simp; done) | dsimp only; (repeat' split) <;> (first | rfl | simp; done)
@[simp] theorem correctGrade_fns (s : State) (cls unit n : Nat) : (s.correctGrade cls unit n).fns = s.fns := by
  unfold State.correctGrade
  first | rfl | (repeat' split) <;> (first | rfl | simp; done) | dsimp only; (repeat' split) <;> (first | rfl | simp; done)
@[simp] theorem correctGrade_cmds (s : State) (cls unit n : Nat) : (s.correctGrade cls unit n).cmds = s.cmds := by
  unfold State.correctGrade
  first | rfl | (repeat' split) <;> (first | rfl | simp; done) | dsimp only; (repeat' split) <;> (first | rfl | simp; done)
@[simp] theorem correctGrade_host (s : State) (cls unit n : Nat) : (s.correctGrade cls unit n).host = s.host := by
  unfold State.correctGrade
  first | rfl | (repeat' split) <;> (first | rfl | simp; done) | dsimp only; (repeat' split) <;> (first | rfl | simp; done)
@[simp] theorem correctGrade_power (s : State) (cls unit n : Nat) : (s.correctGrade cls unit n).power = s.power := by
  unfold State.correctGrade
  first | rfl | (repeat' split) <;> (first | rfl | simp; done) | dsimp only; (repeat' split) <;> (first | rfl | simp; done)
@[simp] theorem correctGrade_sec (s : State) (cls unit n : Nat) : (s.correctGrade cls unit n).sec = s.sec := by
  unfold State.correctGrade
  first | rfl | (repeat' split) <;> (first | rfl | simp; done) | dsimp only; (repeat' split) <;> (first | rfl | simp; done)
@[simp] theorem correctGrade_up (s : State) (cls unit n : Nat) : (s.correctGrade cls unit n).up = s.up := by
  unfold State.correctGrade
  first | rfl | (repeat' split) <;> (first | rfl | simp; done) | dsimp only; (repeat' split) <;> (first | rfl | simp; done)
@[simp] theorem correctGrade_pending (s : State) (cls unit n : Nat) : (s.correctGrade cls unit n).pending = s.pending := by
  unfold State.correctGrade
  first | rfl | (repeat' split) <;> (first | rfl | simp; done) | dsimp only; (repeat' split) <;> (first | rfl | simp; done)

@[simp] theorem correctWord_now (s : State) (unit addr : Nat) : (s.correctWord unit addr).now = s.now := by
  unfold State.correctWord
  first | rfl | (repeat' split) <;> (first | rfl | simp; done) | dsimp only; (repeat' split) <;> (first | rfl | simp; done)
@[simp] theorem correctWord_draws (s : State) (unit addr : Nat) : (s.correctWord unit addr).draws = s.draws := by
  unfold State.correctWord
  first | rfl | (repeat' split) <;> (first | rfl | simp; done) | dsimp only; (repeat' split) <;> (first | rfl | simp; done)
@[simp] theorem correctWord_tiles (s : State) (unit addr : Nat) : (s.correctWord unit addr).tiles = s.tiles := by
  unfold State.correctWord
  first | rfl | (repeat' split) <;> (first | rfl | simp; done) | dsimp only; (repeat' split) <;> (first | rfl | simp; done)
@[simp] theorem correctWord_board (s : State) (unit addr : Nat) : (s.correctWord unit addr).board = s.board := by
  unfold State.correctWord
  first | rfl | (repeat' split) <;> (first | rfl | simp; done) | dsimp only; (repeat' split) <;> (first | rfl | simp; done)
@[simp] theorem correctWord_net (s : State) (unit addr : Nat) : (s.correctWord unit addr).net = s.net := by
  unfold State.correctWord
  first | rfl | (repeat' split) <;> (first | rfl | simp; done) | dsimp only; (repeat' split) <;> (first | rfl | simp; done)
@[simp] theorem correctWord_locker (s : State) (unit addr : Nat) : (s.correctWord unit addr).locker = s.locker := by
  unfold State.correctWord
  first | rfl | (repeat' split) <;> (first | rfl | simp; done) | dsimp only; (repeat' split) <;> (first | rfl | simp; done)
@[simp] theorem correctWord_cmds (s : State) (unit addr : Nat) : (s.correctWord unit addr).cmds = s.cmds := by
  unfold State.correctWord
  first | rfl | (repeat' split) <;> (first | rfl | simp; done) | dsimp only; (repeat' split) <;> (first | rfl | simp; done)
@[simp] theorem correctWord_power (s : State) (unit addr : Nat) : (s.correctWord unit addr).power = s.power := by
  unfold State.correctWord
  first | rfl | (repeat' split) <;> (first | rfl | simp; done) | dsimp only; (repeat' split) <;> (first | rfl | simp; done)
@[simp] theorem correctWord_sec (s : State) (unit addr : Nat) : (s.correctWord unit addr).sec = s.sec := by
  unfold State.correctWord
  first | rfl | (repeat' split) <;> (first | rfl | simp; done) | dsimp only; (repeat' split) <;> (first | rfl | simp; done)
@[simp] theorem correctWord_pending (s : State) (unit addr : Nat) : (s.correctWord unit addr).pending = s.pending := by
  unfold State.correctWord
  first | rfl | (repeat' split) <;> (first | rfl | simp; done) | dsimp only; (repeat' split) <;> (first | rfl | simp; done)
@[simp] theorem correctWord_up_ready (s : State) (unit addr : Nat) : (s.correctWord unit addr).up.ready = s.up.ready := by
  unfold State.correctWord
  first | rfl | (repeat' split) <;> (first | rfl | simp; done) | dsimp only; (repeat' split) <;> (first | rfl | simp; done)
@[simp] theorem correctWord_up_blocks (s : State) (unit addr : Nat) : (s.correctWord unit addr).up.blocks = s.up.blocks := by
  unfold State.correctWord
  first | rfl | (repeat' split) <;> (first | rfl | simp; done) | dsimp only; (repeat' split) <;> (first | rfl | simp; done)

@[simp] theorem gradeWords_now (s : State) (x : Nat) : (s.gradeWords x).now = s.now := by
  unfold State.gradeWords
  dsimp only
  split
  · rfl
  · exact (foldl_keeps (fun s : State => s.now) _ (fun _ _ => by simp) _ _).trans ((foldl_keeps (fun s : State => s.now) _ (fun _ _ => by simp) _ _).trans (by simp))
@[simp] theorem gradeWords_draws (s : State) (x : Nat) : (s.gradeWords x).draws = s.draws := by
  unfold State.gradeWords
  dsimp only
  split
  · rfl
  · exact (foldl_keeps (fun s : State => s.draws) _ (fun _ _ => by simp) _ _).trans ((foldl_keeps (fun s : State => s.draws) _ (fun _ _ => by simp) _ _).trans (by simp))
@[simp] theorem gradeWords_board (s : State) (x : Nat) : (s.gradeWords x).board = s.board := by
  unfold State.gradeWords
  dsimp only
  split
  · rfl
  · exact (foldl_keeps (fun s : State => s.board) _ (fun _ _ => by simp) _ _).trans ((foldl_keeps (fun s : State => s.board) _ (fun _ _ => by simp) _ _).trans (by simp))
@[simp] theorem gradeWords_net (s : State) (x : Nat) : (s.gradeWords x).net = s.net := by
  unfold State.gradeWords
  dsimp only
  split
  · rfl
  · exact (foldl_keeps (fun s : State => s.net) _ (fun _ _ => by simp) _ _).trans ((foldl_keeps (fun s : State => s.net) _ (fun _ _ => by simp) _ _).trans (by simp))
@[simp] theorem gradeWords_locker (s : State) (x : Nat) : (s.gradeWords x).locker = s.locker := by
  unfold State.gradeWords
  dsimp only
  split
  · rfl
  · exact (foldl_keeps (fun s : State => s.locker) _ (fun _ _ => by simp) _ _).trans ((foldl_keeps (fun s : State => s.locker) _ (fun _ _ => by simp) _ _).trans (by simp))
@[simp] theorem gradeWords_cmds (s : State) (x : Nat) : (s.gradeWords x).cmds = s.cmds := by
  unfold State.gradeWords
  dsimp only
  split
  · rfl
  · exact (foldl_keeps (fun s : State => s.cmds) _ (fun _ _ => by simp) _ _).trans ((foldl_keeps (fun s : State => s.cmds) _ (fun _ _ => by simp) _ _).trans (by simp))
@[simp] theorem gradeWords_power (s : State) (x : Nat) : (s.gradeWords x).power = s.power := by
  unfold State.gradeWords
  dsimp only
  split
  · rfl
  · exact (foldl_keeps (fun s : State => s.power) _ (fun _ _ => by simp) _ _).trans ((foldl_keeps (fun s : State => s.power) _ (fun _ _ => by simp) _ _).trans (by simp))
@[simp] theorem gradeWords_sec (s : State) (x : Nat) : (s.gradeWords x).sec = s.sec := by
  unfold State.gradeWords
  dsimp only
  split
  · rfl
  · exact (foldl_keeps (fun s : State => s.sec) _ (fun _ _ => by simp) _ _).trans ((foldl_keeps (fun s : State => s.sec) _ (fun _ _ => by simp) _ _).trans (by simp))
@[simp] theorem gradeWords_pending (s : State) (x : Nat) : (s.gradeWords x).pending = s.pending := by
  unfold State.gradeWords
  dsimp only
  split
  · rfl
  · exact (foldl_keeps (fun s : State => s.pending) _ (fun _ _ => by simp) _ _).trans ((foldl_keeps (fun s : State => s.pending) _ (fun _ _ => by simp) _ _).trans (by simp))
@[simp] theorem gradeWords_up_ready (s : State) (x : Nat) : (s.gradeWords x).up.ready = s.up.ready := by
  unfold State.gradeWords
  dsimp only
  split
  · rfl
  · exact (foldl_keeps (fun s : State => s.up.ready) _ (fun _ _ => by simp) _ _).trans ((foldl_keeps (fun s : State => s.up.ready) _ (fun _ _ => by simp) _ _).trans (by simp))
@[simp] theorem gradeWords_up_blocks (s : State) (x : Nat) : (s.gradeWords x).up.blocks = s.up.blocks := by
  unfold State.gradeWords
  dsimp only
  split
  · rfl
  · exact (foldl_keeps (fun s : State => s.up.blocks) _ (fun _ _ => by simp) _ _).trans ((foldl_keeps (fun s : State => s.up.blocks) _ (fun _ _ => by simp) _ _).trans (by simp))

@[simp] theorem recordD_now (s : State) (p cls unit addr : Nat) : (s.recordD p cls unit addr).now = s.now := by
  unfold State.recordD
  first | rfl | (repeat' split) <;> (first | rfl | simp; done) | dsimp only; (repeat' split) <;> (first | rfl | simp; done)
@[simp] theorem recordD_draws (s : State) (p cls unit addr : Nat) : (s.recordD p cls unit addr).draws = s.draws := by
  unfold State.recordD
  first | rfl | (repeat' split) <;> (first | rfl | simp; done) | dsimp only; (repeat' split) <;> (first | rfl | simp; done)
@[simp] theorem recordD_tiles (s : State) (p cls unit addr : Nat) : (s.recordD p cls unit addr).tiles = s.tiles := by
  unfold State.recordD
  first | rfl | (repeat' split) <;> (first | rfl | simp; done) | dsimp only; (repeat' split) <;> (first | rfl | simp; done)
@[simp] theorem recordD_board (s : State) (p cls unit addr : Nat) : (s.recordD p cls unit addr).board = s.board := by
  unfold State.recordD
  first | rfl | (repeat' split) <;> (first | rfl | simp; done) | dsimp only; (repeat' split) <;> (first | rfl | simp; done)
@[simp] theorem recordD_net (s : State) (p cls unit addr : Nat) : (s.recordD p cls unit addr).net = s.net := by
  unfold State.recordD
  first | rfl | (repeat' split) <;> (first | rfl | simp; done) | dsimp only; (repeat' split) <;> (first | rfl | simp; done)
@[simp] theorem recordD_locker (s : State) (p cls unit addr : Nat) : (s.recordD p cls unit addr).locker = s.locker := by
  unfold State.recordD
  first | rfl | (repeat' split) <;> (first | rfl | simp; done) | dsimp only; (repeat' split) <;> (first | rfl | simp; done)
@[simp] theorem recordD_cmds (s : State) (p cls unit addr : Nat) : (s.recordD p cls unit addr).cmds = s.cmds := by
  unfold State.recordD
  first | rfl | (repeat' split) <;> (first | rfl | simp; done) | dsimp only; (repeat' split) <;> (first | rfl | simp; done)
@[simp] theorem recordD_power (s : State) (p cls unit addr : Nat) : (s.recordD p cls unit addr).power = s.power := by
  unfold State.recordD
  first | rfl | (repeat' split) <;> (first | rfl | simp; done) | dsimp only; (repeat' split) <;> (first | rfl | simp; done)
@[simp] theorem recordD_sec (s : State) (p cls unit addr : Nat) : (s.recordD p cls unit addr).sec = s.sec := by
  unfold State.recordD
  first | rfl | (repeat' split) <;> (first | rfl | simp; done) | dsimp only; (repeat' split) <;> (first | rfl | simp; done)
@[simp] theorem recordD_pending (s : State) (p cls unit addr : Nat) : (s.recordD p cls unit addr).pending = s.pending := by
  unfold State.recordD
  first | rfl | (repeat' split) <;> (first | rfl | simp; done) | dsimp only; (repeat' split) <;> (first | rfl | simp; done)
@[simp] theorem recordD_up_ready (s : State) (p cls unit addr : Nat) : (s.recordD p cls unit addr).up.ready = s.up.ready := by
  unfold State.recordD
  first | rfl | (repeat' split) <;> (first | rfl | simp; done) | dsimp only; (repeat' split) <;> (first | rfl | simp; done)
@[simp] theorem recordD_up_blocks (s : State) (p cls unit addr : Nat) : (s.recordD p cls unit addr).up.blocks = s.up.blocks := by
  unfold State.recordD
  first | rfl | (repeat' split) <;> (first | rfl | simp; done) | dsimp only; (repeat' split) <;> (first | rfl | simp; done)

@[simp] theorem classD_now (s : State) (p : Option Nat) (cls unit addr : Nat) : (s.classD p cls unit addr).now = s.now := by
  unfold State.classD
  first | rfl | (repeat' split) <;> (first | rfl | simp; done) | dsimp only; (repeat' split) <;> (first | rfl | simp; done)
@[simp] theorem classD_draws (s : State) (p : Option Nat) (cls unit addr : Nat) : (s.classD p cls unit addr).draws = s.draws := by
  unfold State.classD
  first | rfl | (repeat' split) <;> (first | rfl | simp; done) | dsimp only; (repeat' split) <;> (first | rfl | simp; done)
@[simp] theorem classD_tiles (s : State) (p : Option Nat) (cls unit addr : Nat) : (s.classD p cls unit addr).tiles = s.tiles := by
  unfold State.classD
  first | rfl | (repeat' split) <;> (first | rfl | simp; done) | dsimp only; (repeat' split) <;> (first | rfl | simp; done)
@[simp] theorem classD_board (s : State) (p : Option Nat) (cls unit addr : Nat) : (s.classD p cls unit addr).board = s.board := by
  unfold State.classD
  first | rfl | (repeat' split) <;> (first | rfl | simp; done) | dsimp only; (repeat' split) <;> (first | rfl | simp; done)
@[simp] theorem classD_net (s : State) (p : Option Nat) (cls unit addr : Nat) : (s.classD p cls unit addr).net = s.net := by
  unfold State.classD
  first | rfl | (repeat' split) <;> (first | rfl | simp; done) | dsimp only; (repeat' split) <;> (first | rfl | simp; done)
@[simp] theorem classD_locker (s : State) (p : Option Nat) (cls unit addr : Nat) : (s.classD p cls unit addr).locker = s.locker := by
  unfold State.classD
  first | rfl | (repeat' split) <;> (first | rfl | simp; done) | dsimp only; (repeat' split) <;> (first | rfl | simp; done)
@[simp] theorem classD_cmds (s : State) (p : Option Nat) (cls unit addr : Nat) : (s.classD p cls unit addr).cmds = s.cmds := by
  unfold State.classD
  first | rfl | (repeat' split) <;> (first | rfl | simp; done) | dsimp only; (repeat' split) <;> (first | rfl | simp; done)
@[simp] theorem classD_power (s : State) (p : Option Nat) (cls unit addr : Nat) : (s.classD p cls unit addr).power = s.power := by
  unfold State.classD
  first | rfl | (repeat' split) <;> (first | rfl | simp; done) | dsimp only; (repeat' split) <;> (first | rfl | simp; done)
@[simp] theorem classD_sec (s : State) (p : Option Nat) (cls unit addr : Nat) : (s.classD p cls unit addr).sec = s.sec := by
  unfold State.classD
  first | rfl | (repeat' split) <;> (first | rfl | simp; done) | dsimp only; (repeat' split) <;> (first | rfl | simp; done)
@[simp] theorem classD_pending (s : State) (p : Option Nat) (cls unit addr : Nat) : (s.classD p cls unit addr).pending = s.pending := by
  unfold State.classD
  first | rfl | (repeat' split) <;> (first | rfl | simp; done) | dsimp only; (repeat' split) <;> (first | rfl | simp; done)
@[simp] theorem classD_up_ready (s : State) (p : Option Nat) (cls unit addr : Nat) : (s.classD p cls unit addr).up.ready = s.up.ready := by
  unfold State.classD
  first | rfl | (repeat' split) <;> (first | rfl | simp; done) | dsimp only; (repeat' split) <;> (first | rfl | simp; done)
@[simp] theorem classD_up_blocks (s : State) (p : Option Nat) (cls unit addr : Nat) : (s.classD p cls unit addr).up.blocks = s.up.blocks := by
  unfold State.classD
  first | rfl | (repeat' split) <;> (first | rfl | simp; done) | dsimp only; (repeat' split) <;> (first | rfl | simp; done)

@[simp] theorem inject_now (s : State) (k : Packet) : (s.inject k).now = s.now := by
  unfold State.inject
  first | rfl | (repeat' split) <;> (first | rfl | simp; done) | dsimp only; (repeat' split) <;> (first | rfl | simp; done)
@[simp] theorem inject_draws (s : State) (k : Packet) : (s.inject k).draws = s.draws := by
  unfold State.inject
  first | rfl | (repeat' split) <;> (first | rfl | simp; done) | dsimp only; (repeat' split) <;> (first | rfl | simp; done)
@[simp] theorem inject_tiles (s : State) (k : Packet) : (s.inject k).tiles = s.tiles := by
  unfold State.inject
  first | rfl | (repeat' split) <;> (first | rfl | simp; done) | dsimp only; (repeat' split) <;> (first | rfl | simp; done)
@[simp] theorem inject_seats (s : State) (k : Packet) : (s.inject k).seats = s.seats := by
  unfold State.inject
  first | rfl | (repeat' split) <;> (first | rfl | simp; done) | dsimp only; (repeat' split) <;> (first | rfl | simp; done)
@[simp] theorem inject_board (s : State) (k : Packet) : (s.inject k).board = s.board := by
  unfold State.inject
  first | rfl | (repeat' split) <;> (first | rfl | simp; done) | dsimp only; (repeat' split) <;> (first | rfl | simp; done)
@[simp] theorem inject_parts (s : State) (k : Packet) : (s.inject k).parts = s.parts := by
  unfold State.inject
  first | rfl | (repeat' split) <;> (first | rfl | simp; done) | dsimp only; (repeat' split) <;> (first | rfl | simp; done)
@[simp] theorem inject_hbm (s : State) (k : Packet) : (s.inject k).hbm = s.hbm := by
  unfold State.inject
  first | rfl | (repeat' split) <;> (first | rfl | simp; done) | dsimp only; (repeat' split) <;> (first | rfl | simp; done)
@[simp] theorem inject_locker (s : State) (k : Packet) : (s.inject k).locker = s.locker := by
  unfold State.inject
  first | rfl | (repeat' split) <;> (first | rfl | simp; done) | dsimp only; (repeat' split) <;> (first | rfl | simp; done)
@[simp] theorem inject_ports (s : State) (k : Packet) : (s.inject k).ports = s.ports := by
  unfold State.inject
  first | rfl | (repeat' split) <;> (first | rfl | simp; done) | dsimp only; (repeat' split) <;> (first | rfl | simp; done)
@[simp] theorem inject_fns (s : State) (k : Packet) : (s.inject k).fns = s.fns := by
  unfold State.inject
  first | rfl | (repeat' split) <;> (first | rfl | simp; done) | dsimp only; (repeat' split) <;> (first | rfl | simp; done)
@[simp] theorem inject_cmds (s : State) (k : Packet) : (s.inject k).cmds = s.cmds := by
  unfold State.inject
  first | rfl | (repeat' split) <;> (first | rfl | simp; done) | dsimp only; (repeat' split) <;> (first | rfl | simp; done)
@[simp] theorem inject_host (s : State) (k : Packet) : (s.inject k).host = s.host := by
  unfold State.inject
  first | rfl | (repeat' split) <;> (first | rfl | simp; done) | dsimp only; (repeat' split) <;> (first | rfl | simp; done)
@[simp] theorem inject_faults (s : State) (k : Packet) : (s.inject k).faults = s.faults := by
  unfold State.inject
  first | rfl | (repeat' split) <;> (first | rfl | simp; done) | dsimp only; (repeat' split) <;> (first | rfl | simp; done)
@[simp] theorem inject_power (s : State) (k : Packet) : (s.inject k).power = s.power := by
  unfold State.inject
  first | rfl | (repeat' split) <;> (first | rfl | simp; done) | dsimp only; (repeat' split) <;> (first | rfl | simp; done)
@[simp] theorem inject_sec (s : State) (k : Packet) : (s.inject k).sec = s.sec := by
  unfold State.inject
  first | rfl | (repeat' split) <;> (first | rfl | simp; done) | dsimp only; (repeat' split) <;> (first | rfl | simp; done)
@[simp] theorem inject_up (s : State) (k : Packet) : (s.inject k).up = s.up := by
  unfold State.inject
  first | rfl | (repeat' split) <;> (first | rfl | simp; done) | dsimp only; (repeat' split) <;> (first | rfl | simp; done)
@[simp] theorem inject_pending (s : State) (k : Packet) : (s.inject k).pending = s.pending := by
  unfold State.inject
  first | rfl | (repeat' split) <;> (first | rfl | simp; done) | dsimp only; (repeat' split) <;> (first | rfl | simp; done)

@[simp] theorem refuseWrite_now (s : State) (src : Place) (p : Nat) (w : WriteBody) (dtile reason : Nat) : (s.refuseWrite src p w dtile reason).now = s.now := by
  unfold State.refuseWrite
  first | rfl | (repeat' split) <;> (first | rfl | simp; done) | dsimp only; (repeat' split) <;> (first | rfl | simp; done)
@[simp] theorem refuseWrite_draws (s : State) (src : Place) (p : Nat) (w : WriteBody) (dtile reason : Nat) : (s.refuseWrite src p w dtile reason).draws = s.draws := by
  unfold State.refuseWrite
  first | rfl | (repeat' split) <;> (first | rfl | simp; done) | dsimp only; (repeat' split) <;> (first | rfl | simp; done)
@[simp] theorem refuseWrite_tiles (s : State) (src : Place) (p : Nat) (w : WriteBody) (dtile reason : Nat) : (s.refuseWrite src p w dtile reason).tiles = s.tiles := by
  unfold State.refuseWrite
  first | rfl | (repeat' split) <;> (first | rfl | simp; done) | dsimp only; (repeat' split) <;> (first | rfl | simp; done)
@[simp] theorem refuseWrite_seats (s : State) (src : Place) (p : Nat) (w : WriteBody) (dtile reason : Nat) : (s.refuseWrite src p w dtile reason).seats = s.seats := by
  unfold State.refuseWrite
  first | rfl | (repeat' split) <;> (first | rfl | simp; done) | dsimp only; (repeat' split) <;> (first | rfl | simp; done)
@[simp] theorem refuseWrite_board (s : State) (src : Place) (p : Nat) (w : WriteBody) (dtile reason : Nat) : (s.refuseWrite src p w dtile reason).board = s.board := by
  unfold State.refuseWrite
  first | rfl | (repeat' split) <;> (first | rfl | simp; done) | dsimp only; (repeat' split) <;> (first | rfl | simp; done)
@[simp] theorem refuseWrite_parts (s : State) (src : Place) (p : Nat) (w : WriteBody) (dtile reason : Nat) : (s.refuseWrite src p w dtile reason).parts = s.parts := by
  unfold State.refuseWrite
  first | rfl | (repeat' split) <;> (first | rfl | simp; done) | dsimp only; (repeat' split) <;> (first | rfl | simp; done)
@[simp] theorem refuseWrite_hbm (s : State) (src : Place) (p : Nat) (w : WriteBody) (dtile reason : Nat) : (s.refuseWrite src p w dtile reason).hbm = s.hbm := by
  unfold State.refuseWrite
  first | rfl | (repeat' split) <;> (first | rfl | simp; done) | dsimp only; (repeat' split) <;> (first | rfl | simp; done)
@[simp] theorem refuseWrite_locker (s : State) (src : Place) (p : Nat) (w : WriteBody) (dtile reason : Nat) : (s.refuseWrite src p w dtile reason).locker = s.locker := by
  unfold State.refuseWrite
  first | rfl | (repeat' split) <;> (first | rfl | simp; done) | dsimp only; (repeat' split) <;> (first | rfl | simp; done)
@[simp] theorem refuseWrite_ports (s : State) (src : Place) (p : Nat) (w : WriteBody) (dtile reason : Nat) : (s.refuseWrite src p w dtile reason).ports = s.ports := by
  unfold State.refuseWrite
  first | rfl | (repeat' split) <;> (first | rfl | simp; done) | dsimp only; (repeat' split) <;> (first | rfl | simp; done)
@[simp] theorem refuseWrite_fns (s : State) (src : Place) (p : Nat) (w : WriteBody) (dtile reason : Nat) : (s.refuseWrite src p w dtile reason).fns = s.fns := by
  unfold State.refuseWrite
  first | rfl | (repeat' split) <;> (first | rfl | simp; done) | dsimp only; (repeat' split) <;> (first | rfl | simp; done)
@[simp] theorem refuseWrite_cmds (s : State) (src : Place) (p : Nat) (w : WriteBody) (dtile reason : Nat) : (s.refuseWrite src p w dtile reason).cmds = s.cmds := by
  unfold State.refuseWrite
  first | rfl | (repeat' split) <;> (first | rfl | simp; done) | dsimp only; (repeat' split) <;> (first | rfl | simp; done)
@[simp] theorem refuseWrite_host (s : State) (src : Place) (p : Nat) (w : WriteBody) (dtile reason : Nat) : (s.refuseWrite src p w dtile reason).host = s.host := by
  unfold State.refuseWrite
  first | rfl | (repeat' split) <;> (first | rfl | simp; done) | dsimp only; (repeat' split) <;> (first | rfl | simp; done)
@[simp] theorem refuseWrite_faults (s : State) (src : Place) (p : Nat) (w : WriteBody) (dtile reason : Nat) : (s.refuseWrite src p w dtile reason).faults = s.faults := by
  unfold State.refuseWrite
  first | rfl | (repeat' split) <;> (first | rfl | simp; done) | dsimp only; (repeat' split) <;> (first | rfl | simp; done)
@[simp] theorem refuseWrite_power (s : State) (src : Place) (p : Nat) (w : WriteBody) (dtile reason : Nat) : (s.refuseWrite src p w dtile reason).power = s.power := by
  unfold State.refuseWrite
  first | rfl | (repeat' split) <;> (first | rfl | simp; done) | dsimp only; (repeat' split) <;> (first | rfl | simp; done)
@[simp] theorem refuseWrite_sec (s : State) (src : Place) (p : Nat) (w : WriteBody) (dtile reason : Nat) : (s.refuseWrite src p w dtile reason).sec = s.sec := by
  unfold State.refuseWrite
  first | rfl | (repeat' split) <;> (first | rfl | simp; done) | dsimp only; (repeat' split) <;> (first | rfl | simp; done)
@[simp] theorem refuseWrite_up (s : State) (src : Place) (p : Nat) (w : WriteBody) (dtile reason : Nat) : (s.refuseWrite src p w dtile reason).up = s.up := by
  unfold State.refuseWrite
  first | rfl | (repeat' split) <;> (first | rfl | simp; done) | dsimp only; (repeat' split) <;> (first | rfl | simp; done)
@[simp] theorem refuseWrite_pending (s : State) (src : Place) (p : Nat) (w : WriteBody) (dtile reason : Nat) : (s.refuseWrite src p w dtile reason).pending = s.pending := by
  unfold State.refuseWrite
  first | rfl | (repeat' split) <;> (first | rfl | simp; done) | dsimp only; (repeat' split) <;> (first | rfl | simp; done)

@[simp] theorem portCtx_now (s : State) (p k : Nat) (c : Ctx) : (s.portCtx p k c).now = s.now := by
  unfold State.portCtx
  first | rfl | (repeat' split) <;> (first | rfl | simp; done) | dsimp only; (repeat' split) <;> (first | rfl | simp; done)
@[simp] theorem portCtx_draws (s : State) (p k : Nat) (c : Ctx) : (s.portCtx p k c).draws = s.draws := by
  unfold State.portCtx
  first | rfl | (repeat' split) <;> (first | rfl | simp; done) | dsimp only; (repeat' split) <;> (first | rfl | simp; done)
@[simp] theorem portCtx_tiles (s : State) (p k : Nat) (c : Ctx) : (s.portCtx p k c).tiles = s.tiles := by
  unfold State.portCtx
  first | rfl | (repeat' split) <;> (first | rfl | simp; done) | dsimp only; (repeat' split) <;> (first | rfl | simp; done)
@[simp] theorem portCtx_seats (s : State) (p k : Nat) (c : Ctx) : (s.portCtx p k c).seats = s.seats := by
  unfold State.portCtx
  first | rfl | (repeat' split) <;> (first | rfl | simp; done) | dsimp only; (repeat' split) <;> (first | rfl | simp; done)
@[simp] theorem portCtx_board (s : State) (p k : Nat) (c : Ctx) : (s.portCtx p k c).board = s.board := by
  unfold State.portCtx
  first | rfl | (repeat' split) <;> (first | rfl | simp; done) | dsimp only; (repeat' split) <;> (first | rfl | simp; done)
@[simp] theorem portCtx_parts (s : State) (p k : Nat) (c : Ctx) : (s.portCtx p k c).parts = s.parts := by
  unfold State.portCtx
  first | rfl | (repeat' split) <;> (first | rfl | simp; done) | dsimp only; (repeat' split) <;> (first | rfl | simp; done)
@[simp] theorem portCtx_hbm (s : State) (p k : Nat) (c : Ctx) : (s.portCtx p k c).hbm = s.hbm := by
  unfold State.portCtx
  first | rfl | (repeat' split) <;> (first | rfl | simp; done) | dsimp only; (repeat' split) <;> (first | rfl | simp; done)
@[simp] theorem portCtx_locker (s : State) (p k : Nat) (c : Ctx) : (s.portCtx p k c).locker = s.locker := by
  unfold State.portCtx
  first | rfl | (repeat' split) <;> (first | rfl | simp; done) | dsimp only; (repeat' split) <;> (first | rfl | simp; done)
@[simp] theorem portCtx_fns (s : State) (p k : Nat) (c : Ctx) : (s.portCtx p k c).fns = s.fns := by
  unfold State.portCtx
  first | rfl | (repeat' split) <;> (first | rfl | simp; done) | dsimp only; (repeat' split) <;> (first | rfl | simp; done)
@[simp] theorem portCtx_cmds (s : State) (p k : Nat) (c : Ctx) : (s.portCtx p k c).cmds = s.cmds := by
  unfold State.portCtx
  first | rfl | (repeat' split) <;> (first | rfl | simp; done) | dsimp only; (repeat' split) <;> (first | rfl | simp; done)
@[simp] theorem portCtx_host (s : State) (p k : Nat) (c : Ctx) : (s.portCtx p k c).host = s.host := by
  unfold State.portCtx
  first | rfl | (repeat' split) <;> (first | rfl | simp; done) | dsimp only; (repeat' split) <;> (first | rfl | simp; done)
@[simp] theorem portCtx_faults (s : State) (p k : Nat) (c : Ctx) : (s.portCtx p k c).faults = s.faults := by
  unfold State.portCtx
  first | rfl | (repeat' split) <;> (first | rfl | simp; done) | dsimp only; (repeat' split) <;> (first | rfl | simp; done)
@[simp] theorem portCtx_power (s : State) (p k : Nat) (c : Ctx) : (s.portCtx p k c).power = s.power := by
  unfold State.portCtx
  first | rfl | (repeat' split) <;> (first | rfl | simp; done) | dsimp only; (repeat' split) <;> (first | rfl | simp; done)
@[simp] theorem portCtx_sec (s : State) (p k : Nat) (c : Ctx) : (s.portCtx p k c).sec = s.sec := by
  unfold State.portCtx
  first | rfl | (repeat' split) <;> (first | rfl | simp; done) | dsimp only; (repeat' split) <;> (first | rfl | simp; done)
@[simp] theorem portCtx_up (s : State) (p k : Nat) (c : Ctx) : (s.portCtx p k c).up = s.up := by
  unfold State.portCtx
  first | rfl | (repeat' split) <;> (first | rfl | simp; done) | dsimp only; (repeat' split) <;> (first | rfl | simp; done)
@[simp] theorem portCtx_pending (s : State) (p k : Nat) (c : Ctx) : (s.portCtx p k c).pending = s.pending := by
  unfold State.portCtx
  first | rfl | (repeat' split) <;> (first | rfl | simp; done) | dsimp only; (repeat' split) <;> (first | rfl | simp; done)

@[simp] theorem portCell_now (s : State) (k : Nat) (c : Ctl) : (s.portCell k c).now = s.now := by
  unfold State.portCell
  first | rfl | (repeat' split) <;> (first | rfl | simp; done) | dsimp only; (repeat' split) <;> (first | rfl | simp; done)
@[simp] theorem portCell_draws (s : State) (k : Nat) (c : Ctl) : (s.portCell k c).draws = s.draws := by
  unfold State.portCell
  first | rfl | (repeat' split) <;> (first | rfl | simp; done) | dsimp only; (repeat' split) <;> (first | rfl | simp; done)
@[simp] theorem portCell_tiles (s : State) (k : Nat) (c : Ctl) : (s.portCell k c).tiles = s.tiles := by
  unfold State.portCell
  first | rfl | (repeat' split) <;> (first | rfl | simp; done) | dsimp only; (repeat' split) <;> (first | rfl | simp; done)
@[simp] theorem portCell_seats (s : State) (k : Nat) (c : Ctl) : (s.portCell k c).seats = s.seats := by
  unfold State.portCell
  first | rfl | (repeat' split) <;> (first | rfl | simp; done) | dsimp only; (repeat' split) <;> (first | rfl | simp; done)
@[simp] theorem portCell_board (s : State) (k : Nat) (c : Ctl) : (s.portCell k c).board = s.board := by
  unfold State.portCell
  first | rfl | (repeat' split) <;> (first | rfl | simp; done) | dsimp only; (repeat' split) <;> (first | rfl | simp; done)
@[simp] theorem portCell_net (s : State) (k : Nat) (c : Ctl) : (s.portCell k c).net = s.net := by
  unfold State.portCell
  first | rfl | (repeat' split) <;> (first | rfl | simp; done) | dsimp only; (repeat' split) <;> (first | rfl | simp; done)
@[simp] theorem portCell_parts (s : State) (k : Nat) (c : Ctl) : (s.portCell k c).parts = s.parts := by
  unfold State.portCell
  first | rfl | (repeat' split) <;> (first | rfl | simp; done) | dsimp only; (repeat' split) <;> (first | rfl | simp; done)
@[simp] theorem portCell_hbm (s : State) (k : Nat) (c : Ctl) : (s.portCell k c).hbm = s.hbm := by
  unfold State.portCell
  first | rfl | (repeat' split) <;> (first | rfl | simp; done) | dsimp only; (repeat' split) <;> (first | rfl | simp; done)
@[simp] theorem portCell_locker (s : State) (k : Nat) (c : Ctl) : (s.portCell k c).locker = s.locker := by
  unfold State.portCell
  first | rfl | (repeat' split) <;> (first | rfl | simp; done) | dsimp only; (repeat' split) <;> (first | rfl | simp; done)
@[simp] theorem portCell_fns (s : State) (k : Nat) (c : Ctl) : (s.portCell k c).fns = s.fns := by
  unfold State.portCell
  first | rfl | (repeat' split) <;> (first | rfl | simp; done) | dsimp only; (repeat' split) <;> (first | rfl | simp; done)
@[simp] theorem portCell_cmds (s : State) (k : Nat) (c : Ctl) : (s.portCell k c).cmds = s.cmds := by
  unfold State.portCell
  first | rfl | (repeat' split) <;> (first | rfl | simp; done) | dsimp only; (repeat' split) <;> (first | rfl | simp; done)
@[simp] theorem portCell_host (s : State) (k : Nat) (c : Ctl) : (s.portCell k c).host = s.host := by
  unfold State.portCell
  first | rfl | (repeat' split) <;> (first | rfl | simp; done) | dsimp only; (repeat' split) <;> (first | rfl | simp; done)
@[simp] theorem portCell_faults (s : State) (k : Nat) (c : Ctl) : (s.portCell k c).faults = s.faults := by
  unfold State.portCell
  first | rfl | (repeat' split) <;> (first | rfl | simp; done) | dsimp only; (repeat' split) <;> (first | rfl | simp; done)
@[simp] theorem portCell_power (s : State) (k : Nat) (c : Ctl) : (s.portCell k c).power = s.power := by
  unfold State.portCell
  first | rfl | (repeat' split) <;> (first | rfl | simp; done) | dsimp only; (repeat' split) <;> (first | rfl | simp; done)
@[simp] theorem portCell_sec (s : State) (k : Nat) (c : Ctl) : (s.portCell k c).sec = s.sec := by
  unfold State.portCell
  first | rfl | (repeat' split) <;> (first | rfl | simp; done) | dsimp only; (repeat' split) <;> (first | rfl | simp; done)
@[simp] theorem portCell_up (s : State) (k : Nat) (c : Ctl) : (s.portCell k c).up = s.up := by
  unfold State.portCell
  first | rfl | (repeat' split) <;> (first | rfl | simp; done) | dsimp only; (repeat' split) <;> (first | rfl | simp; done)
@[simp] theorem portCell_pending (s : State) (k : Nat) (c : Ctl) : (s.portCell k c).pending = s.pending := by
  unfold State.portCell
  first | rfl | (repeat' split) <;> (first | rfl | simp; done) | dsimp only; (repeat' split) <;> (first | rfl | simp; done)

@[simp] theorem voidSamples_now (s : State) (void : Sample → Bool) : (s.voidSamples void).now = s.now := by
  unfold State.voidSamples
  exact foldl_keeps (fun s : State => s.now) _ (fun _ _ => by simp) _ _
@[simp] theorem voidSamples_draws (s : State) (void : Sample → Bool) : (s.voidSamples void).draws = s.draws := by
  unfold State.voidSamples
  exact foldl_keeps (fun s : State => s.draws) _ (fun _ _ => by simp) _ _
@[simp] theorem voidSamples_seats (s : State) (void : Sample → Bool) : (s.voidSamples void).seats = s.seats := by
  unfold State.voidSamples
  exact foldl_keeps (fun s : State => s.seats) _ (fun _ _ => by simp) _ _
@[simp] theorem voidSamples_board (s : State) (void : Sample → Bool) : (s.voidSamples void).board = s.board := by
  unfold State.voidSamples
  exact foldl_keeps (fun s : State => s.board) _ (fun _ _ => by simp) _ _
@[simp] theorem voidSamples_net (s : State) (void : Sample → Bool) : (s.voidSamples void).net = s.net := by
  unfold State.voidSamples
  exact foldl_keeps (fun s : State => s.net) _ (fun _ _ => by simp) _ _
@[simp] theorem voidSamples_hbm (s : State) (void : Sample → Bool) : (s.voidSamples void).hbm = s.hbm := by
  unfold State.voidSamples
  exact foldl_keeps (fun s : State => s.hbm) _ (fun _ _ => by simp) _ _
@[simp] theorem voidSamples_locker (s : State) (void : Sample → Bool) : (s.voidSamples void).locker = s.locker := by
  unfold State.voidSamples
  exact foldl_keeps (fun s : State => s.locker) _ (fun _ _ => by simp) _ _
@[simp] theorem voidSamples_ports (s : State) (void : Sample → Bool) : (s.voidSamples void).ports = s.ports := by
  unfold State.voidSamples
  exact foldl_keeps (fun s : State => s.ports) _ (fun _ _ => by simp) _ _
@[simp] theorem voidSamples_fns (s : State) (void : Sample → Bool) : (s.voidSamples void).fns = s.fns := by
  unfold State.voidSamples
  exact foldl_keeps (fun s : State => s.fns) _ (fun _ _ => by simp) _ _
@[simp] theorem voidSamples_cmds (s : State) (void : Sample → Bool) : (s.voidSamples void).cmds = s.cmds := by
  unfold State.voidSamples
  exact foldl_keeps (fun s : State => s.cmds) _ (fun _ _ => by simp) _ _
@[simp] theorem voidSamples_host (s : State) (void : Sample → Bool) : (s.voidSamples void).host = s.host := by
  unfold State.voidSamples
  exact foldl_keeps (fun s : State => s.host) _ (fun _ _ => by simp) _ _
@[simp] theorem voidSamples_power (s : State) (void : Sample → Bool) : (s.voidSamples void).power = s.power := by
  unfold State.voidSamples
  exact foldl_keeps (fun s : State => s.power) _ (fun _ _ => by simp) _ _
@[simp] theorem voidSamples_sec (s : State) (void : Sample → Bool) : (s.voidSamples void).sec = s.sec := by
  unfold State.voidSamples
  exact foldl_keeps (fun s : State => s.sec) _ (fun _ _ => by simp) _ _
@[simp] theorem voidSamples_up (s : State) (void : Sample → Bool) : (s.voidSamples void).up = s.up := by
  unfold State.voidSamples
  exact foldl_keeps (fun s : State => s.up) _ (fun _ _ => by simp) _ _
@[simp] theorem voidSamples_pending (s : State) (void : Sample → Bool) : (s.voidSamples void).pending = s.pending := by
  unfold State.voidSamples
  exact foldl_keeps (fun s : State => s.pending) _ (fun _ _ => by simp) _ _

@[simp] theorem jobEnd_now (s : State) (p : Nat) (c : EndCause) : (s.jobEnd p c).now = s.now := by
  unfold State.jobEnd
  first | rfl | (repeat' split) <;> (first | rfl | simp; done) | dsimp only; (repeat' split) <;> (first | rfl | simp; done)
@[simp] theorem jobEnd_draws (s : State) (p : Nat) (c : EndCause) : (s.jobEnd p c).draws = s.draws := by
  unfold State.jobEnd
  first | rfl | (repeat' split) <;> (first | rfl | simp; done) | dsimp only; (repeat' split) <;> (first | rfl | simp; done)
@[simp] theorem jobEnd_seats (s : State) (p : Nat) (c : EndCause) : (s.jobEnd p c).seats = s.seats := by
  unfold State.jobEnd
  first | rfl | (repeat' split) <;> (first | rfl | simp; done) | dsimp only; (repeat' split) <;> (first | rfl | simp; done)
@[simp] theorem jobEnd_board (s : State) (p : Nat) (c : EndCause) : (s.jobEnd p c).board = s.board := by
  unfold State.jobEnd
  first | rfl | (repeat' split) <;> (first | rfl | simp; done) | dsimp only; (repeat' split) <;> (first | rfl | simp; done)
@[simp] theorem jobEnd_net (s : State) (p : Nat) (c : EndCause) : (s.jobEnd p c).net = s.net := by
  unfold State.jobEnd
  first | rfl | (repeat' split) <;> (first | rfl | simp; done) | dsimp only; (repeat' split) <;> (first | rfl | simp; done)
@[simp] theorem jobEnd_hbm (s : State) (p : Nat) (c : EndCause) : (s.jobEnd p c).hbm = s.hbm := by
  unfold State.jobEnd
  first | rfl | (repeat' split) <;> (first | rfl | simp; done) | dsimp only; (repeat' split) <;> (first | rfl | simp; done)
@[simp] theorem jobEnd_locker (s : State) (p : Nat) (c : EndCause) : (s.jobEnd p c).locker = s.locker := by
  unfold State.jobEnd
  first | rfl | (repeat' split) <;> (first | rfl | simp; done) | dsimp only; (repeat' split) <;> (first | rfl | simp; done)
@[simp] theorem jobEnd_ports (s : State) (p : Nat) (c : EndCause) : (s.jobEnd p c).ports = s.ports := by
  unfold State.jobEnd
  first | rfl | (repeat' split) <;> (first | rfl | simp; done) | dsimp only; (repeat' split) <;> (first | rfl | simp; done)
@[simp] theorem jobEnd_fns (s : State) (p : Nat) (c : EndCause) : (s.jobEnd p c).fns = s.fns := by
  unfold State.jobEnd
  first | rfl | (repeat' split) <;> (first | rfl | simp; done) | dsimp only; (repeat' split) <;> (first | rfl | simp; done)
@[simp] theorem jobEnd_cmds (s : State) (p : Nat) (c : EndCause) : (s.jobEnd p c).cmds = s.cmds := by
  unfold State.jobEnd
  first | rfl | (repeat' split) <;> (first | rfl | simp; done) | dsimp only; (repeat' split) <;> (first | rfl | simp; done)
@[simp] theorem jobEnd_host (s : State) (p : Nat) (c : EndCause) : (s.jobEnd p c).host = s.host := by
  unfold State.jobEnd
  first | rfl | (repeat' split) <;> (first | rfl | simp; done) | dsimp only; (repeat' split) <;> (first | rfl | simp; done)
@[simp] theorem jobEnd_power (s : State) (p : Nat) (c : EndCause) : (s.jobEnd p c).power = s.power := by
  unfold State.jobEnd
  first | rfl | (repeat' split) <;> (first | rfl | simp; done) | dsimp only; (repeat' split) <;> (first | rfl | simp; done)
@[simp] theorem jobEnd_sec (s : State) (p : Nat) (c : EndCause) : (s.jobEnd p c).sec = s.sec := by
  unfold State.jobEnd
  first | rfl | (repeat' split) <;> (first | rfl | simp; done) | dsimp only; (repeat' split) <;> (first | rfl | simp; done)
@[simp] theorem jobEnd_up (s : State) (p : Nat) (c : EndCause) : (s.jobEnd p c).up = s.up := by
  unfold State.jobEnd
  first | rfl | (repeat' split) <;> (first | rfl | simp; done) | dsimp only; (repeat' split) <;> (first | rfl | simp; done)
@[simp] theorem jobEnd_pending (s : State) (p : Nat) (c : EndCause) : (s.jobEnd p c).pending = s.pending := by
  unfold State.jobEnd
  first | rfl | (repeat' split) <;> (first | rfl | simp; done) | dsimp only; (repeat' split) <;> (first | rfl | simp; done)

@[simp] theorem hbmGet_now (s : State) (p key a n : Nat) : (s.hbmGet p key a n).1.now = s.now := by
  unfold State.hbmGet
  dsimp only
  (repeat' split) <;> first | rfl | simp
@[simp] theorem hbmGet_draws (s : State) (p key a n : Nat) : (s.hbmGet p key a n).1.draws = s.draws := by
  unfold State.hbmGet
  dsimp only
  (repeat' split) <;> first | rfl | simp
@[simp] theorem hbmGet_tiles (s : State) (p key a n : Nat) : (s.hbmGet p key a n).1.tiles = s.tiles := by
  unfold State.hbmGet
  dsimp only
  (repeat' split) <;> first | rfl | simp
@[simp] theorem hbmGet_board (s : State) (p key a n : Nat) : (s.hbmGet p key a n).1.board = s.board := by
  unfold State.hbmGet
  dsimp only
  (repeat' split) <;> first | rfl | simp
@[simp] theorem hbmGet_net (s : State) (p key a n : Nat) : (s.hbmGet p key a n).1.net = s.net := by
  unfold State.hbmGet
  dsimp only
  (repeat' split) <;> first | rfl | simp
@[simp] theorem hbmGet_locker (s : State) (p key a n : Nat) : (s.hbmGet p key a n).1.locker = s.locker := by
  unfold State.hbmGet
  dsimp only
  (repeat' split) <;> first | rfl | simp
@[simp] theorem hbmGet_cmds (s : State) (p key a n : Nat) : (s.hbmGet p key a n).1.cmds = s.cmds := by
  unfold State.hbmGet
  dsimp only
  (repeat' split) <;> first | rfl | simp
@[simp] theorem hbmGet_power (s : State) (p key a n : Nat) : (s.hbmGet p key a n).1.power = s.power := by
  unfold State.hbmGet
  dsimp only
  (repeat' split) <;> first | rfl | simp
@[simp] theorem hbmGet_sec (s : State) (p key a n : Nat) : (s.hbmGet p key a n).1.sec = s.sec := by
  unfold State.hbmGet
  dsimp only
  (repeat' split) <;> first | rfl | simp
@[simp] theorem hbmGet_pending (s : State) (p key a n : Nat) : (s.hbmGet p key a n).1.pending = s.pending := by
  unfold State.hbmGet
  dsimp only
  (repeat' split) <;> first | rfl | simp
@[simp] theorem hbmGet_up_ready (s : State) (p key a n : Nat) : (s.hbmGet p key a n).1.up.ready = s.up.ready := by
  unfold State.hbmGet
  dsimp only
  (repeat' split) <;> first | rfl | simp
@[simp] theorem hbmGet_up_blocks (s : State) (p key a n : Nat) : (s.hbmGet p key a n).1.up.blocks = s.up.blocks := by
  unfold State.hbmGet
  dsimp only
  (repeat' split) <;> first | rfl | simp

@[simp] theorem hbmPut_now (s : State) (p key a : Nat) (bs : List Byte) : (s.hbmPut p key a bs).1.now = s.now := by
  unfold State.hbmPut
  split
  · rfl
  · split
    · rename_i h
      exact (congrArg (fun r => r.1.now) h).symm.trans (hbmGet_now s p key a 0)
    · exact hbmGet_now s p key a 0
@[simp] theorem hbmPut_draws (s : State) (p key a : Nat) (bs : List Byte) : (s.hbmPut p key a bs).1.draws = s.draws := by
  unfold State.hbmPut
  split
  · rfl
  · split
    · rename_i h
      exact (congrArg (fun r => r.1.draws) h).symm.trans (hbmGet_draws s p key a 0)
    · exact hbmGet_draws s p key a 0
@[simp] theorem hbmPut_tiles (s : State) (p key a : Nat) (bs : List Byte) : (s.hbmPut p key a bs).1.tiles = s.tiles := by
  unfold State.hbmPut
  split
  · rfl
  · split
    · rename_i h
      exact (congrArg (fun r => r.1.tiles) h).symm.trans (hbmGet_tiles s p key a 0)
    · exact hbmGet_tiles s p key a 0
@[simp] theorem hbmPut_board (s : State) (p key a : Nat) (bs : List Byte) : (s.hbmPut p key a bs).1.board = s.board := by
  unfold State.hbmPut
  split
  · rfl
  · split
    · rename_i h
      exact (congrArg (fun r => r.1.board) h).symm.trans (hbmGet_board s p key a 0)
    · exact hbmGet_board s p key a 0
@[simp] theorem hbmPut_net (s : State) (p key a : Nat) (bs : List Byte) : (s.hbmPut p key a bs).1.net = s.net := by
  unfold State.hbmPut
  split
  · rfl
  · split
    · rename_i h
      exact (congrArg (fun r => r.1.net) h).symm.trans (hbmGet_net s p key a 0)
    · exact hbmGet_net s p key a 0
@[simp] theorem hbmPut_locker (s : State) (p key a : Nat) (bs : List Byte) : (s.hbmPut p key a bs).1.locker = s.locker := by
  unfold State.hbmPut
  split
  · rfl
  · split
    · rename_i h
      exact (congrArg (fun r => r.1.locker) h).symm.trans (hbmGet_locker s p key a 0)
    · exact hbmGet_locker s p key a 0
@[simp] theorem hbmPut_cmds (s : State) (p key a : Nat) (bs : List Byte) : (s.hbmPut p key a bs).1.cmds = s.cmds := by
  unfold State.hbmPut
  split
  · rfl
  · split
    · rename_i h
      exact (congrArg (fun r => r.1.cmds) h).symm.trans (hbmGet_cmds s p key a 0)
    · exact hbmGet_cmds s p key a 0
@[simp] theorem hbmPut_power (s : State) (p key a : Nat) (bs : List Byte) : (s.hbmPut p key a bs).1.power = s.power := by
  unfold State.hbmPut
  split
  · rfl
  · split
    · rename_i h
      exact (congrArg (fun r => r.1.power) h).symm.trans (hbmGet_power s p key a 0)
    · exact hbmGet_power s p key a 0
@[simp] theorem hbmPut_sec (s : State) (p key a : Nat) (bs : List Byte) : (s.hbmPut p key a bs).1.sec = s.sec := by
  unfold State.hbmPut
  split
  · rfl
  · split
    · rename_i h
      exact (congrArg (fun r => r.1.sec) h).symm.trans (hbmGet_sec s p key a 0)
    · exact hbmGet_sec s p key a 0
@[simp] theorem hbmPut_pending (s : State) (p key a : Nat) (bs : List Byte) : (s.hbmPut p key a bs).1.pending = s.pending := by
  unfold State.hbmPut
  split
  · rfl
  · split
    · rename_i h
      exact (congrArg (fun r => r.1.pending) h).symm.trans (hbmGet_pending s p key a 0)
    · exact hbmGet_pending s p key a 0
@[simp] theorem hbmPut_up_ready (s : State) (p key a : Nat) (bs : List Byte) : (s.hbmPut p key a bs).1.up.ready = s.up.ready := by
  unfold State.hbmPut
  split
  · rfl
  · split
    · rename_i h
      exact (congrArg (fun r => r.1.up.ready) h).symm.trans (hbmGet_up_ready s p key a 0)
    · exact hbmGet_up_ready s p key a 0
@[simp] theorem hbmPut_up_blocks (s : State) (p key a : Nat) (bs : List Byte) : (s.hbmPut p key a bs).1.up.blocks = s.up.blocks := by
  unfold State.hbmPut
  split
  · rfl
  · split
    · rename_i h
      exact (congrArg (fun r => r.1.up.blocks) h).symm.trans (hbmGet_up_blocks s p key a 0)
    · exact hbmGet_up_blocks s p key a 0

@[simp] theorem readEntry_now (s : State) (p ppa : Nat) : (s.readEntry p ppa).1.now = s.now := by
  unfold State.readEntry
  dsimp only
  split
  · rfl
  · split
    · rename_i h
      exact (modPart_now _ _ _).trans ((congrArg (fun r => r.1.now) h).symm.trans (hbmGet_now s p _ _ _))
    · rename_i h
      exact (congrArg (fun r => r.1.now) h).symm.trans (hbmGet_now s p _ _ _)
    · rename_i h
      exact (congrArg (fun r => r.1.now) h).symm.trans (hbmGet_now s p _ _ _)
@[simp] theorem readEntry_draws (s : State) (p ppa : Nat) : (s.readEntry p ppa).1.draws = s.draws := by
  unfold State.readEntry
  dsimp only
  split
  · rfl
  · split
    · rename_i h
      exact (modPart_draws _ _ _).trans ((congrArg (fun r => r.1.draws) h).symm.trans (hbmGet_draws s p _ _ _))
    · rename_i h
      exact (congrArg (fun r => r.1.draws) h).symm.trans (hbmGet_draws s p _ _ _)
    · rename_i h
      exact (congrArg (fun r => r.1.draws) h).symm.trans (hbmGet_draws s p _ _ _)
@[simp] theorem readEntry_tiles (s : State) (p ppa : Nat) : (s.readEntry p ppa).1.tiles = s.tiles := by
  unfold State.readEntry
  dsimp only
  split
  · rfl
  · split
    · rename_i h
      exact (modPart_tiles _ _ _).trans ((congrArg (fun r => r.1.tiles) h).symm.trans (hbmGet_tiles s p _ _ _))
    · rename_i h
      exact (congrArg (fun r => r.1.tiles) h).symm.trans (hbmGet_tiles s p _ _ _)
    · rename_i h
      exact (congrArg (fun r => r.1.tiles) h).symm.trans (hbmGet_tiles s p _ _ _)
@[simp] theorem readEntry_board (s : State) (p ppa : Nat) : (s.readEntry p ppa).1.board = s.board := by
  unfold State.readEntry
  dsimp only
  split
  · rfl
  · split
    · rename_i h
      exact (modPart_board _ _ _).trans ((congrArg (fun r => r.1.board) h).symm.trans (hbmGet_board s p _ _ _))
    · rename_i h
      exact (congrArg (fun r => r.1.board) h).symm.trans (hbmGet_board s p _ _ _)
    · rename_i h
      exact (congrArg (fun r => r.1.board) h).symm.trans (hbmGet_board s p _ _ _)
@[simp] theorem readEntry_net (s : State) (p ppa : Nat) : (s.readEntry p ppa).1.net = s.net := by
  unfold State.readEntry
  dsimp only
  split
  · rfl
  · split
    · rename_i h
      exact (modPart_net _ _ _).trans ((congrArg (fun r => r.1.net) h).symm.trans (hbmGet_net s p _ _ _))
    · rename_i h
      exact (congrArg (fun r => r.1.net) h).symm.trans (hbmGet_net s p _ _ _)
    · rename_i h
      exact (congrArg (fun r => r.1.net) h).symm.trans (hbmGet_net s p _ _ _)
@[simp] theorem readEntry_locker (s : State) (p ppa : Nat) : (s.readEntry p ppa).1.locker = s.locker := by
  unfold State.readEntry
  dsimp only
  split
  · rfl
  · split
    · rename_i h
      exact (modPart_locker _ _ _).trans ((congrArg (fun r => r.1.locker) h).symm.trans (hbmGet_locker s p _ _ _))
    · rename_i h
      exact (congrArg (fun r => r.1.locker) h).symm.trans (hbmGet_locker s p _ _ _)
    · rename_i h
      exact (congrArg (fun r => r.1.locker) h).symm.trans (hbmGet_locker s p _ _ _)
@[simp] theorem readEntry_cmds (s : State) (p ppa : Nat) : (s.readEntry p ppa).1.cmds = s.cmds := by
  unfold State.readEntry
  dsimp only
  split
  · rfl
  · split
    · rename_i h
      exact (modPart_cmds _ _ _).trans ((congrArg (fun r => r.1.cmds) h).symm.trans (hbmGet_cmds s p _ _ _))
    · rename_i h
      exact (congrArg (fun r => r.1.cmds) h).symm.trans (hbmGet_cmds s p _ _ _)
    · rename_i h
      exact (congrArg (fun r => r.1.cmds) h).symm.trans (hbmGet_cmds s p _ _ _)
@[simp] theorem readEntry_power (s : State) (p ppa : Nat) : (s.readEntry p ppa).1.power = s.power := by
  unfold State.readEntry
  dsimp only
  split
  · rfl
  · split
    · rename_i h
      exact (modPart_power _ _ _).trans ((congrArg (fun r => r.1.power) h).symm.trans (hbmGet_power s p _ _ _))
    · rename_i h
      exact (congrArg (fun r => r.1.power) h).symm.trans (hbmGet_power s p _ _ _)
    · rename_i h
      exact (congrArg (fun r => r.1.power) h).symm.trans (hbmGet_power s p _ _ _)
@[simp] theorem readEntry_sec (s : State) (p ppa : Nat) : (s.readEntry p ppa).1.sec = s.sec := by
  unfold State.readEntry
  dsimp only
  split
  · rfl
  · split
    · rename_i h
      exact (modPart_sec _ _ _).trans ((congrArg (fun r => r.1.sec) h).symm.trans (hbmGet_sec s p _ _ _))
    · rename_i h
      exact (congrArg (fun r => r.1.sec) h).symm.trans (hbmGet_sec s p _ _ _)
    · rename_i h
      exact (congrArg (fun r => r.1.sec) h).symm.trans (hbmGet_sec s p _ _ _)
@[simp] theorem readEntry_pending (s : State) (p ppa : Nat) : (s.readEntry p ppa).1.pending = s.pending := by
  unfold State.readEntry
  dsimp only
  split
  · rfl
  · split
    · rename_i h
      exact (modPart_pending _ _ _).trans ((congrArg (fun r => r.1.pending) h).symm.trans (hbmGet_pending s p _ _ _))
    · rename_i h
      exact (congrArg (fun r => r.1.pending) h).symm.trans (hbmGet_pending s p _ _ _)
    · rename_i h
      exact (congrArg (fun r => r.1.pending) h).symm.trans (hbmGet_pending s p _ _ _)
@[simp] theorem readEntry_up_ready (s : State) (p ppa : Nat) : (s.readEntry p ppa).1.up.ready = s.up.ready := by
  unfold State.readEntry
  dsimp only
  split
  · rfl
  · split
    · rename_i h
      exact (congrArg (fun u => u.ready) (modPart_up _ _ _)).trans ((congrArg (fun r => r.1.up.ready) h).symm.trans (hbmGet_up_ready s p _ _ _))
    · rename_i h
      exact (congrArg (fun r => r.1.up.ready) h).symm.trans (hbmGet_up_ready s p _ _ _)
    · rename_i h
      exact (congrArg (fun r => r.1.up.ready) h).symm.trans (hbmGet_up_ready s p _ _ _)
@[simp] theorem readEntry_up_blocks (s : State) (p ppa : Nat) : (s.readEntry p ppa).1.up.blocks = s.up.blocks := by
  unfold State.readEntry
  dsimp only
  split
  · rfl
  · split
    · rename_i h
      exact (congrArg (fun u => u.blocks) (modPart_up _ _ _)).trans ((congrArg (fun r => r.1.up.blocks) h).symm.trans (hbmGet_up_blocks s p _ _ _))
    · rename_i h
      exact (congrArg (fun r => r.1.up.blocks) h).symm.trans (hbmGet_up_blocks s p _ _ _)
    · rename_i h
      exact (congrArg (fun r => r.1.up.blocks) h).symm.trans (hbmGet_up_blocks s p _ _ _)

@[simp] theorem walk_now (s : State) (p dva : Nat) (write : Bool) : (s.walk p dva write).1.now = s.now := by
  unfold State.walk
  dsimp only
  split
  · rfl
  · split
    · rename_i h
      exact (congrArg (fun r => r.1.now) h).symm.trans (readEntry_now s p _)
    · rename_i h
      have e := (congrArg (fun r => r.1.now) h).symm.trans (readEntry_now s p _)
      split
      · exact e
      · split
        · exact e
        · split <;> (rename_i h; exact ((congrArg (fun r => r.1.now) h).symm.trans (readEntry_now _ p _)).trans e)
@[simp] theorem walk_draws (s : State) (p dva : Nat) (write : Bool) : (s.walk p dva write).1.draws = s.draws := by
  unfold State.walk
  dsimp only
  split
  · rfl
  · split
    · rename_i h
      exact (congrArg (fun r => r.1.draws) h).symm.trans (readEntry_draws s p _)
    · rename_i h
      have e := (congrArg (fun r => r.1.draws) h).symm.trans (readEntry_draws s p _)
      split
      · exact e
      · split
        · exact e
        · split <;> (rename_i h; exact ((congrArg (fun r => r.1.draws) h).symm.trans (readEntry_draws _ p _)).trans e)
@[simp] theorem walk_tiles (s : State) (p dva : Nat) (write : Bool) : (s.walk p dva write).1.tiles = s.tiles := by
  unfold State.walk
  dsimp only
  split
  · rfl
  · split
    · rename_i h
      exact (congrArg (fun r => r.1.tiles) h).symm.trans (readEntry_tiles s p _)
    · rename_i h
      have e := (congrArg (fun r => r.1.tiles) h).symm.trans (readEntry_tiles s p _)
      split
      · exact e
      · split
        · exact e
        · split <;> (rename_i h; exact ((congrArg (fun r => r.1.tiles) h).symm.trans (readEntry_tiles _ p _)).trans e)
@[simp] theorem walk_board (s : State) (p dva : Nat) (write : Bool) : (s.walk p dva write).1.board = s.board := by
  unfold State.walk
  dsimp only
  split
  · rfl
  · split
    · rename_i h
      exact (congrArg (fun r => r.1.board) h).symm.trans (readEntry_board s p _)
    · rename_i h
      have e := (congrArg (fun r => r.1.board) h).symm.trans (readEntry_board s p _)
      split
      · exact e
      · split
        · exact e
        · split <;> (rename_i h; exact ((congrArg (fun r => r.1.board) h).symm.trans (readEntry_board _ p _)).trans e)
@[simp] theorem walk_net (s : State) (p dva : Nat) (write : Bool) : (s.walk p dva write).1.net = s.net := by
  unfold State.walk
  dsimp only
  split
  · rfl
  · split
    · rename_i h
      exact (congrArg (fun r => r.1.net) h).symm.trans (readEntry_net s p _)
    · rename_i h
      have e := (congrArg (fun r => r.1.net) h).symm.trans (readEntry_net s p _)
      split
      · exact e
      · split
        · exact e
        · split <;> (rename_i h; exact ((congrArg (fun r => r.1.net) h).symm.trans (readEntry_net _ p _)).trans e)
@[simp] theorem walk_locker (s : State) (p dva : Nat) (write : Bool) : (s.walk p dva write).1.locker = s.locker := by
  unfold State.walk
  dsimp only
  split
  · rfl
  · split
    · rename_i h
      exact (congrArg (fun r => r.1.locker) h).symm.trans (readEntry_locker s p _)
    · rename_i h
      have e := (congrArg (fun r => r.1.locker) h).symm.trans (readEntry_locker s p _)
      split
      · exact e
      · split
        · exact e
        · split <;> (rename_i h; exact ((congrArg (fun r => r.1.locker) h).symm.trans (readEntry_locker _ p _)).trans e)
@[simp] theorem walk_cmds (s : State) (p dva : Nat) (write : Bool) : (s.walk p dva write).1.cmds = s.cmds := by
  unfold State.walk
  dsimp only
  split
  · rfl
  · split
    · rename_i h
      exact (congrArg (fun r => r.1.cmds) h).symm.trans (readEntry_cmds s p _)
    · rename_i h
      have e := (congrArg (fun r => r.1.cmds) h).symm.trans (readEntry_cmds s p _)
      split
      · exact e
      · split
        · exact e
        · split <;> (rename_i h; exact ((congrArg (fun r => r.1.cmds) h).symm.trans (readEntry_cmds _ p _)).trans e)
@[simp] theorem walk_power (s : State) (p dva : Nat) (write : Bool) : (s.walk p dva write).1.power = s.power := by
  unfold State.walk
  dsimp only
  split
  · rfl
  · split
    · rename_i h
      exact (congrArg (fun r => r.1.power) h).symm.trans (readEntry_power s p _)
    · rename_i h
      have e := (congrArg (fun r => r.1.power) h).symm.trans (readEntry_power s p _)
      split
      · exact e
      · split
        · exact e
        · split <;> (rename_i h; exact ((congrArg (fun r => r.1.power) h).symm.trans (readEntry_power _ p _)).trans e)
@[simp] theorem walk_sec (s : State) (p dva : Nat) (write : Bool) : (s.walk p dva write).1.sec = s.sec := by
  unfold State.walk
  dsimp only
  split
  · rfl
  · split
    · rename_i h
      exact (congrArg (fun r => r.1.sec) h).symm.trans (readEntry_sec s p _)
    · rename_i h
      have e := (congrArg (fun r => r.1.sec) h).symm.trans (readEntry_sec s p _)
      split
      · exact e
      · split
        · exact e
        · split <;> (rename_i h; exact ((congrArg (fun r => r.1.sec) h).symm.trans (readEntry_sec _ p _)).trans e)
@[simp] theorem walk_pending (s : State) (p dva : Nat) (write : Bool) : (s.walk p dva write).1.pending = s.pending := by
  unfold State.walk
  dsimp only
  split
  · rfl
  · split
    · rename_i h
      exact (congrArg (fun r => r.1.pending) h).symm.trans (readEntry_pending s p _)
    · rename_i h
      have e := (congrArg (fun r => r.1.pending) h).symm.trans (readEntry_pending s p _)
      split
      · exact e
      · split
        · exact e
        · split <;> (rename_i h; exact ((congrArg (fun r => r.1.pending) h).symm.trans (readEntry_pending _ p _)).trans e)
@[simp] theorem walk_up_ready (s : State) (p dva : Nat) (write : Bool) : (s.walk p dva write).1.up.ready = s.up.ready := by
  unfold State.walk
  dsimp only
  split
  · rfl
  · split
    · rename_i h
      exact (congrArg (fun r => r.1.up.ready) h).symm.trans (readEntry_up_ready s p _)
    · rename_i h
      have e := (congrArg (fun r => r.1.up.ready) h).symm.trans (readEntry_up_ready s p _)
      split
      · exact e
      · split
        · exact e
        · split <;> (rename_i h; exact ((congrArg (fun r => r.1.up.ready) h).symm.trans (readEntry_up_ready _ p _)).trans e)
@[simp] theorem walk_up_blocks (s : State) (p dva : Nat) (write : Bool) : (s.walk p dva write).1.up.blocks = s.up.blocks := by
  unfold State.walk
  dsimp only
  split
  · rfl
  · split
    · rename_i h
      exact (congrArg (fun r => r.1.up.blocks) h).symm.trans (readEntry_up_blocks s p _)
    · rename_i h
      have e := (congrArg (fun r => r.1.up.blocks) h).symm.trans (readEntry_up_blocks s p _)
      split
      · exact e
      · split
        · exact e
        · split <;> (rename_i h; exact ((congrArg (fun r => r.1.up.blocks) h).symm.trans (readEntry_up_blocks _ p _)).trans e)

@[simp] theorem translate_now (s : State) (p dva : Nat) (write : Bool) : (s.translate p dva write).1.now = s.now := by
  unfold State.translate
  dsimp only
  split
  · rfl
  · split
    · rename_i h
      exact (congrArg (fun r => r.1.now) h).symm.trans (walk_now s p dva write)
    · rename_i h
      exact (modPart_now _ _ _).trans ((congrArg (fun r => r.1.now) h).symm.trans (walk_now s p dva write))
@[simp] theorem translate_draws (s : State) (p dva : Nat) (write : Bool) : (s.translate p dva write).1.draws = s.draws := by
  unfold State.translate
  dsimp only
  split
  · rfl
  · split
    · rename_i h
      exact (congrArg (fun r => r.1.draws) h).symm.trans (walk_draws s p dva write)
    · rename_i h
      exact (modPart_draws _ _ _).trans ((congrArg (fun r => r.1.draws) h).symm.trans (walk_draws s p dva write))
@[simp] theorem translate_tiles (s : State) (p dva : Nat) (write : Bool) : (s.translate p dva write).1.tiles = s.tiles := by
  unfold State.translate
  dsimp only
  split
  · rfl
  · split
    · rename_i h
      exact (congrArg (fun r => r.1.tiles) h).symm.trans (walk_tiles s p dva write)
    · rename_i h
      exact (modPart_tiles _ _ _).trans ((congrArg (fun r => r.1.tiles) h).symm.trans (walk_tiles s p dva write))
@[simp] theorem translate_board (s : State) (p dva : Nat) (write : Bool) : (s.translate p dva write).1.board = s.board := by
  unfold State.translate
  dsimp only
  split
  · rfl
  · split
    · rename_i h
      exact (congrArg (fun r => r.1.board) h).symm.trans (walk_board s p dva write)
    · rename_i h
      exact (modPart_board _ _ _).trans ((congrArg (fun r => r.1.board) h).symm.trans (walk_board s p dva write))
@[simp] theorem translate_net (s : State) (p dva : Nat) (write : Bool) : (s.translate p dva write).1.net = s.net := by
  unfold State.translate
  dsimp only
  split
  · rfl
  · split
    · rename_i h
      exact (congrArg (fun r => r.1.net) h).symm.trans (walk_net s p dva write)
    · rename_i h
      exact (modPart_net _ _ _).trans ((congrArg (fun r => r.1.net) h).symm.trans (walk_net s p dva write))
@[simp] theorem translate_locker (s : State) (p dva : Nat) (write : Bool) : (s.translate p dva write).1.locker = s.locker := by
  unfold State.translate
  dsimp only
  split
  · rfl
  · split
    · rename_i h
      exact (congrArg (fun r => r.1.locker) h).symm.trans (walk_locker s p dva write)
    · rename_i h
      exact (modPart_locker _ _ _).trans ((congrArg (fun r => r.1.locker) h).symm.trans (walk_locker s p dva write))
@[simp] theorem translate_cmds (s : State) (p dva : Nat) (write : Bool) : (s.translate p dva write).1.cmds = s.cmds := by
  unfold State.translate
  dsimp only
  split
  · rfl
  · split
    · rename_i h
      exact (congrArg (fun r => r.1.cmds) h).symm.trans (walk_cmds s p dva write)
    · rename_i h
      exact (modPart_cmds _ _ _).trans ((congrArg (fun r => r.1.cmds) h).symm.trans (walk_cmds s p dva write))
@[simp] theorem translate_power (s : State) (p dva : Nat) (write : Bool) : (s.translate p dva write).1.power = s.power := by
  unfold State.translate
  dsimp only
  split
  · rfl
  · split
    · rename_i h
      exact (congrArg (fun r => r.1.power) h).symm.trans (walk_power s p dva write)
    · rename_i h
      exact (modPart_power _ _ _).trans ((congrArg (fun r => r.1.power) h).symm.trans (walk_power s p dva write))
@[simp] theorem translate_sec (s : State) (p dva : Nat) (write : Bool) : (s.translate p dva write).1.sec = s.sec := by
  unfold State.translate
  dsimp only
  split
  · rfl
  · split
    · rename_i h
      exact (congrArg (fun r => r.1.sec) h).symm.trans (walk_sec s p dva write)
    · rename_i h
      exact (modPart_sec _ _ _).trans ((congrArg (fun r => r.1.sec) h).symm.trans (walk_sec s p dva write))
@[simp] theorem translate_pending (s : State) (p dva : Nat) (write : Bool) : (s.translate p dva write).1.pending = s.pending := by
  unfold State.translate
  dsimp only
  split
  · rfl
  · split
    · rename_i h
      exact (congrArg (fun r => r.1.pending) h).symm.trans (walk_pending s p dva write)
    · rename_i h
      exact (modPart_pending _ _ _).trans ((congrArg (fun r => r.1.pending) h).symm.trans (walk_pending s p dva write))
@[simp] theorem translate_up_ready (s : State) (p dva : Nat) (write : Bool) : (s.translate p dva write).1.up.ready = s.up.ready := by
  unfold State.translate
  dsimp only
  split
  · rfl
  · split
    · rename_i h
      exact (congrArg (fun r => r.1.up.ready) h).symm.trans (walk_up_ready s p dva write)
    · rename_i h
      exact (congrArg (fun u => u.ready) (modPart_up _ _ _)).trans ((congrArg (fun r => r.1.up.ready) h).symm.trans (walk_up_ready s p dva write))
@[simp] theorem translate_up_blocks (s : State) (p dva : Nat) (write : Bool) : (s.translate p dva write).1.up.blocks = s.up.blocks := by
  unfold State.translate
  dsimp only
  split
  · rfl
  · split
    · rename_i h
      exact (congrArg (fun r => r.1.up.blocks) h).symm.trans (walk_up_blocks s p dva write)
    · rename_i h
      exact (congrArg (fun u => u.blocks) (modPart_up _ _ _)).trans ((congrArg (fun r => r.1.up.blocks) h).symm.trans (walk_up_blocks s p dva write))

@[simp] theorem dvaGet_now (s : State) (p dva n : Nat) : (s.dvaGet p dva n).1.now = s.now := by
  unfold State.dvaGet
  split <;> rename_i h
  · exact (modPart_now _ _ _).trans ((hbmGet_now _ _ _ _ _).trans ((congrArg (fun r => r.1.now) h).symm.trans (translate_now s p dva false)))
  · exact (congrArg (fun r => r.1.now) h).symm.trans (translate_now s p dva false)
  · exact (congrArg (fun r => r.1.now) h).symm.trans (translate_now s p dva false)
@[simp] theorem dvaGet_draws (s : State) (p dva n : Nat) : (s.dvaGet p dva n).1.draws = s.draws := by
  unfold State.dvaGet
  split <;> rename_i h
  · exact (modPart_draws _ _ _).trans ((hbmGet_draws _ _ _ _ _).trans ((congrArg (fun r => r.1.draws) h).symm.trans (translate_draws s p dva false)))
  · exact (congrArg (fun r => r.1.draws) h).symm.trans (translate_draws s p dva false)
  · exact (congrArg (fun r => r.1.draws) h).symm.trans (translate_draws s p dva false)
@[simp] theorem dvaGet_tiles (s : State) (p dva n : Nat) : (s.dvaGet p dva n).1.tiles = s.tiles := by
  unfold State.dvaGet
  split <;> rename_i h
  · exact (modPart_tiles _ _ _).trans ((hbmGet_tiles _ _ _ _ _).trans ((congrArg (fun r => r.1.tiles) h).symm.trans (translate_tiles s p dva false)))
  · exact (congrArg (fun r => r.1.tiles) h).symm.trans (translate_tiles s p dva false)
  · exact (congrArg (fun r => r.1.tiles) h).symm.trans (translate_tiles s p dva false)
@[simp] theorem dvaGet_board (s : State) (p dva n : Nat) : (s.dvaGet p dva n).1.board = s.board := by
  unfold State.dvaGet
  split <;> rename_i h
  · exact (modPart_board _ _ _).trans ((hbmGet_board _ _ _ _ _).trans ((congrArg (fun r => r.1.board) h).symm.trans (translate_board s p dva false)))
  · exact (congrArg (fun r => r.1.board) h).symm.trans (translate_board s p dva false)
  · exact (congrArg (fun r => r.1.board) h).symm.trans (translate_board s p dva false)
@[simp] theorem dvaGet_net (s : State) (p dva n : Nat) : (s.dvaGet p dva n).1.net = s.net := by
  unfold State.dvaGet
  split <;> rename_i h
  · exact (modPart_net _ _ _).trans ((hbmGet_net _ _ _ _ _).trans ((congrArg (fun r => r.1.net) h).symm.trans (translate_net s p dva false)))
  · exact (congrArg (fun r => r.1.net) h).symm.trans (translate_net s p dva false)
  · exact (congrArg (fun r => r.1.net) h).symm.trans (translate_net s p dva false)
@[simp] theorem dvaGet_locker (s : State) (p dva n : Nat) : (s.dvaGet p dva n).1.locker = s.locker := by
  unfold State.dvaGet
  split <;> rename_i h
  · exact (modPart_locker _ _ _).trans ((hbmGet_locker _ _ _ _ _).trans ((congrArg (fun r => r.1.locker) h).symm.trans (translate_locker s p dva false)))
  · exact (congrArg (fun r => r.1.locker) h).symm.trans (translate_locker s p dva false)
  · exact (congrArg (fun r => r.1.locker) h).symm.trans (translate_locker s p dva false)
@[simp] theorem dvaGet_cmds (s : State) (p dva n : Nat) : (s.dvaGet p dva n).1.cmds = s.cmds := by
  unfold State.dvaGet
  split <;> rename_i h
  · exact (modPart_cmds _ _ _).trans ((hbmGet_cmds _ _ _ _ _).trans ((congrArg (fun r => r.1.cmds) h).symm.trans (translate_cmds s p dva false)))
  · exact (congrArg (fun r => r.1.cmds) h).symm.trans (translate_cmds s p dva false)
  · exact (congrArg (fun r => r.1.cmds) h).symm.trans (translate_cmds s p dva false)
@[simp] theorem dvaGet_power (s : State) (p dva n : Nat) : (s.dvaGet p dva n).1.power = s.power := by
  unfold State.dvaGet
  split <;> rename_i h
  · exact (modPart_power _ _ _).trans ((hbmGet_power _ _ _ _ _).trans ((congrArg (fun r => r.1.power) h).symm.trans (translate_power s p dva false)))
  · exact (congrArg (fun r => r.1.power) h).symm.trans (translate_power s p dva false)
  · exact (congrArg (fun r => r.1.power) h).symm.trans (translate_power s p dva false)
@[simp] theorem dvaGet_sec (s : State) (p dva n : Nat) : (s.dvaGet p dva n).1.sec = s.sec := by
  unfold State.dvaGet
  split <;> rename_i h
  · exact (modPart_sec _ _ _).trans ((hbmGet_sec _ _ _ _ _).trans ((congrArg (fun r => r.1.sec) h).symm.trans (translate_sec s p dva false)))
  · exact (congrArg (fun r => r.1.sec) h).symm.trans (translate_sec s p dva false)
  · exact (congrArg (fun r => r.1.sec) h).symm.trans (translate_sec s p dva false)
@[simp] theorem dvaGet_pending (s : State) (p dva n : Nat) : (s.dvaGet p dva n).1.pending = s.pending := by
  unfold State.dvaGet
  split <;> rename_i h
  · exact (modPart_pending _ _ _).trans ((hbmGet_pending _ _ _ _ _).trans ((congrArg (fun r => r.1.pending) h).symm.trans (translate_pending s p dva false)))
  · exact (congrArg (fun r => r.1.pending) h).symm.trans (translate_pending s p dva false)
  · exact (congrArg (fun r => r.1.pending) h).symm.trans (translate_pending s p dva false)
@[simp] theorem dvaGet_up_ready (s : State) (p dva n : Nat) : (s.dvaGet p dva n).1.up.ready = s.up.ready := by
  unfold State.dvaGet
  split <;> rename_i h
  · exact (congrArg (fun u => u.ready) (modPart_up _ _ _)).trans ((hbmGet_up_ready _ _ _ _ _).trans ((congrArg (fun r => r.1.up.ready) h).symm.trans (translate_up_ready s p dva false)))
  · exact (congrArg (fun r => r.1.up.ready) h).symm.trans (translate_up_ready s p dva false)
  · exact (congrArg (fun r => r.1.up.ready) h).symm.trans (translate_up_ready s p dva false)
@[simp] theorem dvaGet_up_blocks (s : State) (p dva n : Nat) : (s.dvaGet p dva n).1.up.blocks = s.up.blocks := by
  unfold State.dvaGet
  split <;> rename_i h
  · exact (congrArg (fun u => u.blocks) (modPart_up _ _ _)).trans ((hbmGet_up_blocks _ _ _ _ _).trans ((congrArg (fun r => r.1.up.blocks) h).symm.trans (translate_up_blocks s p dva false)))
  · exact (congrArg (fun r => r.1.up.blocks) h).symm.trans (translate_up_blocks s p dva false)
  · exact (congrArg (fun r => r.1.up.blocks) h).symm.trans (translate_up_blocks s p dva false)

@[simp] theorem dvaPut_now (s : State) (p dva : Nat) (bs : List Byte) : (s.dvaPut p dva bs).1.now = s.now := by
  unfold State.dvaPut
  split <;> rename_i h
  · exact (modPart_now _ _ _).trans ((hbmPut_now _ _ _ _ _).trans ((congrArg (fun r => r.1.now) h).symm.trans (translate_now s p dva true)))
  · exact (congrArg (fun r => r.1.now) h).symm.trans (translate_now s p dva true)
  · exact (congrArg (fun r => r.1.now) h).symm.trans (translate_now s p dva true)
@[simp] theorem dvaPut_draws (s : State) (p dva : Nat) (bs : List Byte) : (s.dvaPut p dva bs).1.draws = s.draws := by
  unfold State.dvaPut
  split <;> rename_i h
  · exact (modPart_draws _ _ _).trans ((hbmPut_draws _ _ _ _ _).trans ((congrArg (fun r => r.1.draws) h).symm.trans (translate_draws s p dva true)))
  · exact (congrArg (fun r => r.1.draws) h).symm.trans (translate_draws s p dva true)
  · exact (congrArg (fun r => r.1.draws) h).symm.trans (translate_draws s p dva true)
@[simp] theorem dvaPut_tiles (s : State) (p dva : Nat) (bs : List Byte) : (s.dvaPut p dva bs).1.tiles = s.tiles := by
  unfold State.dvaPut
  split <;> rename_i h
  · exact (modPart_tiles _ _ _).trans ((hbmPut_tiles _ _ _ _ _).trans ((congrArg (fun r => r.1.tiles) h).symm.trans (translate_tiles s p dva true)))
  · exact (congrArg (fun r => r.1.tiles) h).symm.trans (translate_tiles s p dva true)
  · exact (congrArg (fun r => r.1.tiles) h).symm.trans (translate_tiles s p dva true)
@[simp] theorem dvaPut_board (s : State) (p dva : Nat) (bs : List Byte) : (s.dvaPut p dva bs).1.board = s.board := by
  unfold State.dvaPut
  split <;> rename_i h
  · exact (modPart_board _ _ _).trans ((hbmPut_board _ _ _ _ _).trans ((congrArg (fun r => r.1.board) h).symm.trans (translate_board s p dva true)))
  · exact (congrArg (fun r => r.1.board) h).symm.trans (translate_board s p dva true)
  · exact (congrArg (fun r => r.1.board) h).symm.trans (translate_board s p dva true)
@[simp] theorem dvaPut_net (s : State) (p dva : Nat) (bs : List Byte) : (s.dvaPut p dva bs).1.net = s.net := by
  unfold State.dvaPut
  split <;> rename_i h
  · exact (modPart_net _ _ _).trans ((hbmPut_net _ _ _ _ _).trans ((congrArg (fun r => r.1.net) h).symm.trans (translate_net s p dva true)))
  · exact (congrArg (fun r => r.1.net) h).symm.trans (translate_net s p dva true)
  · exact (congrArg (fun r => r.1.net) h).symm.trans (translate_net s p dva true)
@[simp] theorem dvaPut_locker (s : State) (p dva : Nat) (bs : List Byte) : (s.dvaPut p dva bs).1.locker = s.locker := by
  unfold State.dvaPut
  split <;> rename_i h
  · exact (modPart_locker _ _ _).trans ((hbmPut_locker _ _ _ _ _).trans ((congrArg (fun r => r.1.locker) h).symm.trans (translate_locker s p dva true)))
  · exact (congrArg (fun r => r.1.locker) h).symm.trans (translate_locker s p dva true)
  · exact (congrArg (fun r => r.1.locker) h).symm.trans (translate_locker s p dva true)
@[simp] theorem dvaPut_cmds (s : State) (p dva : Nat) (bs : List Byte) : (s.dvaPut p dva bs).1.cmds = s.cmds := by
  unfold State.dvaPut
  split <;> rename_i h
  · exact (modPart_cmds _ _ _).trans ((hbmPut_cmds _ _ _ _ _).trans ((congrArg (fun r => r.1.cmds) h).symm.trans (translate_cmds s p dva true)))
  · exact (congrArg (fun r => r.1.cmds) h).symm.trans (translate_cmds s p dva true)
  · exact (congrArg (fun r => r.1.cmds) h).symm.trans (translate_cmds s p dva true)
@[simp] theorem dvaPut_power (s : State) (p dva : Nat) (bs : List Byte) : (s.dvaPut p dva bs).1.power = s.power := by
  unfold State.dvaPut
  split <;> rename_i h
  · exact (modPart_power _ _ _).trans ((hbmPut_power _ _ _ _ _).trans ((congrArg (fun r => r.1.power) h).symm.trans (translate_power s p dva true)))
  · exact (congrArg (fun r => r.1.power) h).symm.trans (translate_power s p dva true)
  · exact (congrArg (fun r => r.1.power) h).symm.trans (translate_power s p dva true)
@[simp] theorem dvaPut_sec (s : State) (p dva : Nat) (bs : List Byte) : (s.dvaPut p dva bs).1.sec = s.sec := by
  unfold State.dvaPut
  split <;> rename_i h
  · exact (modPart_sec _ _ _).trans ((hbmPut_sec _ _ _ _ _).trans ((congrArg (fun r => r.1.sec) h).symm.trans (translate_sec s p dva true)))
  · exact (congrArg (fun r => r.1.sec) h).symm.trans (translate_sec s p dva true)
  · exact (congrArg (fun r => r.1.sec) h).symm.trans (translate_sec s p dva true)
@[simp] theorem dvaPut_pending (s : State) (p dva : Nat) (bs : List Byte) : (s.dvaPut p dva bs).1.pending = s.pending := by
  unfold State.dvaPut
  split <;> rename_i h
  · exact (modPart_pending _ _ _).trans ((hbmPut_pending _ _ _ _ _).trans ((congrArg (fun r => r.1.pending) h).symm.trans (translate_pending s p dva true)))
  · exact (congrArg (fun r => r.1.pending) h).symm.trans (translate_pending s p dva true)
  · exact (congrArg (fun r => r.1.pending) h).symm.trans (translate_pending s p dva true)
@[simp] theorem dvaPut_up_ready (s : State) (p dva : Nat) (bs : List Byte) : (s.dvaPut p dva bs).1.up.ready = s.up.ready := by
  unfold State.dvaPut
  split <;> rename_i h
  · exact (congrArg (fun u => u.ready) (modPart_up _ _ _)).trans ((hbmPut_up_ready _ _ _ _ _).trans ((congrArg (fun r => r.1.up.ready) h).symm.trans (translate_up_ready s p dva true)))
  · exact (congrArg (fun r => r.1.up.ready) h).symm.trans (translate_up_ready s p dva true)
  · exact (congrArg (fun r => r.1.up.ready) h).symm.trans (translate_up_ready s p dva true)
@[simp] theorem dvaPut_up_blocks (s : State) (p dva : Nat) (bs : List Byte) : (s.dvaPut p dva bs).1.up.blocks = s.up.blocks := by
  unfold State.dvaPut
  split <;> rename_i h
  · exact (congrArg (fun u => u.blocks) (modPart_up _ _ _)).trans ((hbmPut_up_blocks _ _ _ _ _).trans ((congrArg (fun r => r.1.up.blocks) h).symm.trans (translate_up_blocks s p dva true)))
  · exact (congrArg (fun r => r.1.up.blocks) h).symm.trans (translate_up_blocks s p dva true)
  · exact (congrArg (fun r => r.1.up.blocks) h).symm.trans (translate_up_blocks s p dva true)

@[simp] theorem dvaRead_now (s : State) (p fuel dva n : Nat) (acc : List Byte) : (s.dvaRead p fuel dva n acc).1.now = s.now := by
  induction fuel generalizing s dva n acc with
  | zero => rfl
  | succ fuel ih =>
    unfold State.dvaRead
    split
    · rfl
    · dsimp only
      split
      · rename_i h
        exact (ih _ _ _ _).trans ((congrArg (fun r => r.1.now) h).symm.trans (dvaGet_now s p dva _))
      · exact dvaGet_now s p dva _
@[simp] theorem dvaRead_draws (s : State) (p fuel dva n : Nat) (acc : List Byte) : (s.dvaRead p fuel dva n acc).1.draws = s.draws := by
  induction fuel generalizing s dva n acc with
  | zero => rfl
  | succ fuel ih =>
    unfold State.dvaRead
    split
    · rfl
    · dsimp only
      split
      · rename_i h
        exact (ih _ _ _ _).trans ((congrArg (fun r => r.1.draws) h).symm.trans (dvaGet_draws s p dva _))
      · exact dvaGet_draws s p dva _
@[simp] theorem dvaRead_tiles (s : State) (p fuel dva n : Nat) (acc : List Byte) : (s.dvaRead p fuel dva n acc).1.tiles = s.tiles := by
  induction fuel generalizing s dva n acc with
  | zero => rfl
  | succ fuel ih =>
    unfold State.dvaRead
    split
    · rfl
    · dsimp only
      split
      · rename_i h
        exact (ih _ _ _ _).trans ((congrArg (fun r => r.1.tiles) h).symm.trans (dvaGet_tiles s p dva _))
      · exact dvaGet_tiles s p dva _
@[simp] theorem dvaRead_board (s : State) (p fuel dva n : Nat) (acc : List Byte) : (s.dvaRead p fuel dva n acc).1.board = s.board := by
  induction fuel generalizing s dva n acc with
  | zero => rfl
  | succ fuel ih =>
    unfold State.dvaRead
    split
    · rfl
    · dsimp only
      split
      · rename_i h
        exact (ih _ _ _ _).trans ((congrArg (fun r => r.1.board) h).symm.trans (dvaGet_board s p dva _))
      · exact dvaGet_board s p dva _
@[simp] theorem dvaRead_net (s : State) (p fuel dva n : Nat) (acc : List Byte) : (s.dvaRead p fuel dva n acc).1.net = s.net := by
  induction fuel generalizing s dva n acc with
  | zero => rfl
  | succ fuel ih =>
    unfold State.dvaRead
    split
    · rfl
    · dsimp only
      split
      · rename_i h
        exact (ih _ _ _ _).trans ((congrArg (fun r => r.1.net) h).symm.trans (dvaGet_net s p dva _))
      · exact dvaGet_net s p dva _
@[simp] theorem dvaRead_locker (s : State) (p fuel dva n : Nat) (acc : List Byte) : (s.dvaRead p fuel dva n acc).1.locker = s.locker := by
  induction fuel generalizing s dva n acc with
  | zero => rfl
  | succ fuel ih =>
    unfold State.dvaRead
    split
    · rfl
    · dsimp only
      split
      · rename_i h
        exact (ih _ _ _ _).trans ((congrArg (fun r => r.1.locker) h).symm.trans (dvaGet_locker s p dva _))
      · exact dvaGet_locker s p dva _
@[simp] theorem dvaRead_cmds (s : State) (p fuel dva n : Nat) (acc : List Byte) : (s.dvaRead p fuel dva n acc).1.cmds = s.cmds := by
  induction fuel generalizing s dva n acc with
  | zero => rfl
  | succ fuel ih =>
    unfold State.dvaRead
    split
    · rfl
    · dsimp only
      split
      · rename_i h
        exact (ih _ _ _ _).trans ((congrArg (fun r => r.1.cmds) h).symm.trans (dvaGet_cmds s p dva _))
      · exact dvaGet_cmds s p dva _
@[simp] theorem dvaRead_power (s : State) (p fuel dva n : Nat) (acc : List Byte) : (s.dvaRead p fuel dva n acc).1.power = s.power := by
  induction fuel generalizing s dva n acc with
  | zero => rfl
  | succ fuel ih =>
    unfold State.dvaRead
    split
    · rfl
    · dsimp only
      split
      · rename_i h
        exact (ih _ _ _ _).trans ((congrArg (fun r => r.1.power) h).symm.trans (dvaGet_power s p dva _))
      · exact dvaGet_power s p dva _
@[simp] theorem dvaRead_sec (s : State) (p fuel dva n : Nat) (acc : List Byte) : (s.dvaRead p fuel dva n acc).1.sec = s.sec := by
  induction fuel generalizing s dva n acc with
  | zero => rfl
  | succ fuel ih =>
    unfold State.dvaRead
    split
    · rfl
    · dsimp only
      split
      · rename_i h
        exact (ih _ _ _ _).trans ((congrArg (fun r => r.1.sec) h).symm.trans (dvaGet_sec s p dva _))
      · exact dvaGet_sec s p dva _
@[simp] theorem dvaRead_pending (s : State) (p fuel dva n : Nat) (acc : List Byte) : (s.dvaRead p fuel dva n acc).1.pending = s.pending := by
  induction fuel generalizing s dva n acc with
  | zero => rfl
  | succ fuel ih =>
    unfold State.dvaRead
    split
    · rfl
    · dsimp only
      split
      · rename_i h
        exact (ih _ _ _ _).trans ((congrArg (fun r => r.1.pending) h).symm.trans (dvaGet_pending s p dva _))
      · exact dvaGet_pending s p dva _
@[simp] theorem dvaRead_up_ready (s : State) (p fuel dva n : Nat) (acc : List Byte) : (s.dvaRead p fuel dva n acc).1.up.ready = s.up.ready := by
  induction fuel generalizing s dva n acc with
  | zero => rfl
  | succ fuel ih =>
    unfold State.dvaRead
    split
    · rfl
    · dsimp only
      split
      · rename_i h
        exact (ih _ _ _ _).trans ((congrArg (fun r => r.1.up.ready) h).symm.trans (dvaGet_up_ready s p dva _))
      · exact dvaGet_up_ready s p dva _
@[simp] theorem dvaRead_up_blocks (s : State) (p fuel dva n : Nat) (acc : List Byte) : (s.dvaRead p fuel dva n acc).1.up.blocks = s.up.blocks := by
  induction fuel generalizing s dva n acc with
  | zero => rfl
  | succ fuel ih =>
    unfold State.dvaRead
    split
    · rfl
    · dsimp only
      split
      · rename_i h
        exact (ih _ _ _ _).trans ((congrArg (fun r => r.1.up.blocks) h).symm.trans (dvaGet_up_blocks s p dva _))
      · exact dvaGet_up_blocks s p dva _

@[simp] theorem dvaWrite_now (s : State) (p fuel dva : Nat) (bs : List Byte) : (s.dvaWrite p fuel dva bs).now = s.now := by
  induction fuel generalizing s dva bs with
  | zero => rfl
  | succ fuel ih =>
    unfold State.dvaWrite
    split
    · rfl
    · exact (ih _ _ _).trans (dvaPut_now s p dva _)
@[simp] theorem dvaWrite_draws (s : State) (p fuel dva : Nat) (bs : List Byte) : (s.dvaWrite p fuel dva bs).draws = s.draws := by
  induction fuel generalizing s dva bs with
  | zero => rfl
  | succ fuel ih =>
    unfold State.dvaWrite
    split
    · rfl
    · exact (ih _ _ _).trans (dvaPut_draws s p dva _)
@[simp] theorem dvaWrite_tiles (s : State) (p fuel dva : Nat) (bs : List Byte) : (s.dvaWrite p fuel dva bs).tiles = s.tiles := by
  induction fuel generalizing s dva bs with
  | zero => rfl
  | succ fuel ih =>
    unfold State.dvaWrite
    split
    · rfl
    · exact (ih _ _ _).trans (dvaPut_tiles s p dva _)
@[simp] theorem dvaWrite_board (s : State) (p fuel dva : Nat) (bs : List Byte) : (s.dvaWrite p fuel dva bs).board = s.board := by
  induction fuel generalizing s dva bs with
  | zero => rfl
  | succ fuel ih =>
    unfold State.dvaWrite
    split
    · rfl
    · exact (ih _ _ _).trans (dvaPut_board s p dva _)
@[simp] theorem dvaWrite_net (s : State) (p fuel dva : Nat) (bs : List Byte) : (s.dvaWrite p fuel dva bs).net = s.net := by
  induction fuel generalizing s dva bs with
  | zero => rfl
  | succ fuel ih =>
    unfold State.dvaWrite
    split
    · rfl
    · exact (ih _ _ _).trans (dvaPut_net s p dva _)
@[simp] theorem dvaWrite_locker (s : State) (p fuel dva : Nat) (bs : List Byte) : (s.dvaWrite p fuel dva bs).locker = s.locker := by
  induction fuel generalizing s dva bs with
  | zero => rfl
  | succ fuel ih =>
    unfold State.dvaWrite
    split
    · rfl
    · exact (ih _ _ _).trans (dvaPut_locker s p dva _)
@[simp] theorem dvaWrite_cmds (s : State) (p fuel dva : Nat) (bs : List Byte) : (s.dvaWrite p fuel dva bs).cmds = s.cmds := by
  induction fuel generalizing s dva bs with
  | zero => rfl
  | succ fuel ih =>
    unfold State.dvaWrite
    split
    · rfl
    · exact (ih _ _ _).trans (dvaPut_cmds s p dva _)
@[simp] theorem dvaWrite_power (s : State) (p fuel dva : Nat) (bs : List Byte) : (s.dvaWrite p fuel dva bs).power = s.power := by
  induction fuel generalizing s dva bs with
  | zero => rfl
  | succ fuel ih =>
    unfold State.dvaWrite
    split
    · rfl
    · exact (ih _ _ _).trans (dvaPut_power s p dva _)
@[simp] theorem dvaWrite_sec (s : State) (p fuel dva : Nat) (bs : List Byte) : (s.dvaWrite p fuel dva bs).sec = s.sec := by
  induction fuel generalizing s dva bs with
  | zero => rfl
  | succ fuel ih =>
    unfold State.dvaWrite
    split
    · rfl
    · exact (ih _ _ _).trans (dvaPut_sec s p dva _)
@[simp] theorem dvaWrite_pending (s : State) (p fuel dva : Nat) (bs : List Byte) : (s.dvaWrite p fuel dva bs).pending = s.pending := by
  induction fuel generalizing s dva bs with
  | zero => rfl
  | succ fuel ih =>
    unfold State.dvaWrite
    split
    · rfl
    · exact (ih _ _ _).trans (dvaPut_pending s p dva _)
@[simp] theorem dvaWrite_up_ready (s : State) (p fuel dva : Nat) (bs : List Byte) : (s.dvaWrite p fuel dva bs).up.ready = s.up.ready := by
  induction fuel generalizing s dva bs with
  | zero => rfl
  | succ fuel ih =>
    unfold State.dvaWrite
    split
    · rfl
    · exact (ih _ _ _).trans (dvaPut_up_ready s p dva _)
@[simp] theorem dvaWrite_up_blocks (s : State) (p fuel dva : Nat) (bs : List Byte) : (s.dvaWrite p fuel dva bs).up.blocks = s.up.blocks := by
  induction fuel generalizing s dva bs with
  | zero => rfl
  | succ fuel ih =>
    unfold State.dvaWrite
    split
    · rfl
    · exact (ih _ _ _).trans (dvaPut_up_blocks s p dva _)

@[simp] theorem act_now (s : State) (p l : Nat) (a : Act) : (s.act p l a).now = s.now := by
  cases a <;> unfold State.act <;> (try dsimp only) <;> (repeat' split) <;> first | rfl | simp
@[simp] theorem act_draws (s : State) (p l : Nat) (a : Act) : (s.act p l a).draws = s.draws := by
  cases a <;> unfold State.act <;> (try dsimp only) <;> (repeat' split) <;> first | rfl | simp
@[simp] theorem act_locker (s : State) (p l : Nat) (a : Act) : (s.act p l a).locker = s.locker := by
  cases a <;> unfold State.act <;> (try dsimp only) <;> (repeat' split) <;> first | rfl | simp
@[simp] theorem act_cmds (s : State) (p l : Nat) (a : Act) : (s.act p l a).cmds = s.cmds := by
  cases a <;> unfold State.act <;> (try dsimp only) <;> (repeat' split) <;> first | rfl | simp
@[simp] theorem act_power (s : State) (p l : Nat) (a : Act) : (s.act p l a).power = s.power := by
  cases a <;> unfold State.act <;> (try dsimp only) <;> (repeat' split) <;> first | rfl | simp
@[simp] theorem act_sec (s : State) (p l : Nat) (a : Act) : (s.act p l a).sec = s.sec := by
  cases a <;> unfold State.act <;> (try dsimp only) <;> (repeat' split) <;> first | rfl | simp
@[simp] theorem act_pending (s : State) (p l : Nat) (a : Act) : (s.act p l a).pending = s.pending := by
  cases a <;> unfold State.act <;> (try dsimp only) <;> (repeat' split) <;> first | rfl | simp
@[simp] theorem act_up_ready (s : State) (p l : Nat) (a : Act) : (s.act p l a).up.ready = s.up.ready := by
  cases a <;> unfold State.act <;> (try dsimp only) <;> (repeat' split) <;> first | rfl | simp
@[simp] theorem act_up_blocks (s : State) (p l : Nat) (a : Act) : (s.act p l a).up.blocks = s.up.blocks := by
  cases a <;> unfold State.act <;> (try dsimp only) <;> (repeat' split) <;> first | rfl | simp

@[simp] theorem acts_now (s : State) (p l : Nat) (as : List Act) : (s.acts p l as).now = s.now := by
  unfold State.acts
  exact foldl_keeps (fun s : State => s.now) _ (fun _ _ => by simp) _ _
@[simp] theorem acts_draws (s : State) (p l : Nat) (as : List Act) : (s.acts p l as).draws = s.draws := by
  unfold State.acts
  exact foldl_keeps (fun s : State => s.draws) _ (fun _ _ => by simp) _ _
@[simp] theorem acts_locker (s : State) (p l : Nat) (as : List Act) : (s.acts p l as).locker = s.locker := by
  unfold State.acts
  exact foldl_keeps (fun s : State => s.locker) _ (fun _ _ => by simp) _ _
@[simp] theorem acts_cmds (s : State) (p l : Nat) (as : List Act) : (s.acts p l as).cmds = s.cmds := by
  unfold State.acts
  exact foldl_keeps (fun s : State => s.cmds) _ (fun _ _ => by simp) _ _
@[simp] theorem acts_power (s : State) (p l : Nat) (as : List Act) : (s.acts p l as).power = s.power := by
  unfold State.acts
  exact foldl_keeps (fun s : State => s.power) _ (fun _ _ => by simp) _ _
@[simp] theorem acts_sec (s : State) (p l : Nat) (as : List Act) : (s.acts p l as).sec = s.sec := by
  unfold State.acts
  exact foldl_keeps (fun s : State => s.sec) _ (fun _ _ => by simp) _ _
@[simp] theorem acts_pending (s : State) (p l : Nat) (as : List Act) : (s.acts p l as).pending = s.pending := by
  unfold State.acts
  exact foldl_keeps (fun s : State => s.pending) _ (fun _ _ => by simp) _ _
@[simp] theorem acts_up_ready (s : State) (p l : Nat) (as : List Act) : (s.acts p l as).up.ready = s.up.ready := by
  unfold State.acts
  exact foldl_keeps (fun s : State => s.up.ready) _ (fun _ _ => by simp) _ _
@[simp] theorem acts_up_blocks (s : State) (p l : Nat) (as : List Act) : (s.acts p l as).up.blocks = s.up.blocks := by
  unfold State.acts
  exact foldl_keeps (fun s : State => s.up.blocks) _ (fun _ _ => by simp) _ _

@[simp] theorem runTile_now (s : State) (p l : Nat) (f : Env → Tile → TRes) : (s.runTile p l f).now = s.now := by
  unfold State.runTile
  first | rfl | (repeat' split) <;> (first | rfl | simp; done) | dsimp only; (repeat' split) <;> (first | rfl | simp; done)
@[simp] theorem runTile_draws (s : State) (p l : Nat) (f : Env → Tile → TRes) : (s.runTile p l f).draws = s.draws := by
  unfold State.runTile
  first | rfl | (repeat' split) <;> (first | rfl | simp; done) | dsimp only; (repeat' split) <;> (first | rfl | simp; done)
@[simp] theorem runTile_locker (s : State) (p l : Nat) (f : Env → Tile → TRes) : (s.runTile p l f).locker = s.locker := by
  unfold State.runTile
  first | rfl | (repeat' split) <;> (first | rfl | simp; done) | dsimp only; (repeat' split) <;> (first | rfl | simp; done)
@[simp] theorem runTile_cmds (s : State) (p l : Nat) (f : Env → Tile → TRes) : (s.runTile p l f).cmds = s.cmds := by
  unfold State.runTile
  first | rfl | (repeat' split) <;> (first | rfl | simp; done) | dsimp only; (repeat' split) <;> (first | rfl | simp; done)
@[simp] theorem runTile_power (s : State) (p l : Nat) (f : Env → Tile → TRes) : (s.runTile p l f).power = s.power := by
  unfold State.runTile
  first | rfl | (repeat' split) <;> (first | rfl | simp; done) | dsimp only; (repeat' split) <;> (first | rfl | simp; done)
@[simp] theorem runTile_sec (s : State) (p l : Nat) (f : Env → Tile → TRes) : (s.runTile p l f).sec = s.sec := by
  unfold State.runTile
  first | rfl | (repeat' split) <;> (first | rfl | simp; done) | dsimp only; (repeat' split) <;> (first | rfl | simp; done)
@[simp] theorem runTile_pending (s : State) (p l : Nat) (f : Env → Tile → TRes) : (s.runTile p l f).pending = s.pending := by
  unfold State.runTile
  first | rfl | (repeat' split) <;> (first | rfl | simp; done) | dsimp only; (repeat' split) <;> (first | rfl | simp; done)
@[simp] theorem runTile_up_ready (s : State) (p l : Nat) (f : Env → Tile → TRes) : (s.runTile p l f).up.ready = s.up.ready := by
  unfold State.runTile
  first | rfl | (repeat' split) <;> (first | rfl | simp; done) | dsimp only; (repeat' split) <;> (first | rfl | simp; done)
@[simp] theorem runTile_up_blocks (s : State) (p l : Nat) (f : Env → Tile → TRes) : (s.runTile p l f).up.blocks = s.up.blocks := by
  unfold State.runTile
  first | rfl | (repeat' split) <;> (first | rfl | simp; done) | dsimp only; (repeat' split) <;> (first | rfl | simp; done)

@[simp] theorem mirror_now (s : State) (p l : Nat) (f : Env → Tile → TRes) : (s.mirror p l f).now = s.now := by
  unfold State.mirror
  exact (foldl_keeps (fun s : State => s.now) _ (fun _ _ => by simp) _ _).trans (by simp)
@[simp] theorem mirror_draws (s : State) (p l : Nat) (f : Env → Tile → TRes) : (s.mirror p l f).draws = s.draws := by
  unfold State.mirror
  exact (foldl_keeps (fun s : State => s.draws) _ (fun _ _ => by simp) _ _).trans (by simp)
@[simp] theorem mirror_locker (s : State) (p l : Nat) (f : Env → Tile → TRes) : (s.mirror p l f).locker = s.locker := by
  unfold State.mirror
  exact (foldl_keeps (fun s : State => s.locker) _ (fun _ _ => by simp) _ _).trans (by simp)
@[simp] theorem mirror_cmds (s : State) (p l : Nat) (f : Env → Tile → TRes) : (s.mirror p l f).cmds = s.cmds := by
  unfold State.mirror
  exact (foldl_keeps (fun s : State => s.cmds) _ (fun _ _ => by simp) _ _).trans (by simp)
@[simp] theorem mirror_power (s : State) (p l : Nat) (f : Env → Tile → TRes) : (s.mirror p l f).power = s.power := by
  unfold State.mirror
  exact (foldl_keeps (fun s : State => s.power) _ (fun _ _ => by simp) _ _).trans (by simp)
@[simp] theorem mirror_sec (s : State) (p l : Nat) (f : Env → Tile → TRes) : (s.mirror p l f).sec = s.sec := by
  unfold State.mirror
  exact (foldl_keeps (fun s : State => s.sec) _ (fun _ _ => by simp) _ _).trans (by simp)
@[simp] theorem mirror_pending (s : State) (p l : Nat) (f : Env → Tile → TRes) : (s.mirror p l f).pending = s.pending := by
  unfold State.mirror
  exact (foldl_keeps (fun s : State => s.pending) _ (fun _ _ => by simp) _ _).trans (by simp)
@[simp] theorem mirror_up_ready (s : State) (p l : Nat) (f : Env → Tile → TRes) : (s.mirror p l f).up.ready = s.up.ready := by
  unfold State.mirror
  exact (foldl_keeps (fun s : State => s.up.ready) _ (fun _ _ => by simp) _ _).trans (by simp)
@[simp] theorem mirror_up_blocks (s : State) (p l : Nat) (f : Env → Tile → TRes) : (s.mirror p l f).up.blocks = s.up.blocks := by
  unfold State.mirror
  exact (foldl_keeps (fun s : State => s.up.blocks) _ (fun _ _ => by simp) _ _).trans (by simp)

@[simp] theorem tileStep_now (s : State) (l : Nat) (f : Env → Tile → TRes) : (s.tileStep l f).now = s.now := by
  unfold State.tileStep
  first | rfl | (repeat' split) <;> (first | rfl | simp; done) | dsimp only; (repeat' split) <;> (first | rfl | simp; done)
@[simp] theorem tileStep_draws (s : State) (l : Nat) (f : Env → Tile → TRes) : (s.tileStep l f).draws = s.draws := by
  unfold State.tileStep
  first | rfl | (repeat' split) <;> (first | rfl | simp; done) | dsimp only; (repeat' split) <;> (first | rfl | simp; done)
@[simp] theorem tileStep_locker (s : State) (l : Nat) (f : Env → Tile → TRes) : (s.tileStep l f).locker = s.locker := by
  unfold State.tileStep
  first | rfl | (repeat' split) <;> (first | rfl | simp; done) | dsimp only; (repeat' split) <;> (first | rfl | simp; done)
@[simp] theorem tileStep_cmds (s : State) (l : Nat) (f : Env → Tile → TRes) : (s.tileStep l f).cmds = s.cmds := by
  unfold State.tileStep
  first | rfl | (repeat' split) <;> (first | rfl | simp; done) | dsimp only; (repeat' split) <;> (first | rfl | simp; done)
@[simp] theorem tileStep_power (s : State) (l : Nat) (f : Env → Tile → TRes) : (s.tileStep l f).power = s.power := by
  unfold State.tileStep
  first | rfl | (repeat' split) <;> (first | rfl | simp; done) | dsimp only; (repeat' split) <;> (first | rfl | simp; done)
@[simp] theorem tileStep_sec (s : State) (l : Nat) (f : Env → Tile → TRes) : (s.tileStep l f).sec = s.sec := by
  unfold State.tileStep
  first | rfl | (repeat' split) <;> (first | rfl | simp; done) | dsimp only; (repeat' split) <;> (first | rfl | simp; done)
@[simp] theorem tileStep_pending (s : State) (l : Nat) (f : Env → Tile → TRes) : (s.tileStep l f).pending = s.pending := by
  unfold State.tileStep
  first | rfl | (repeat' split) <;> (first | rfl | simp; done) | dsimp only; (repeat' split) <;> (first | rfl | simp; done)
@[simp] theorem tileStep_up_ready (s : State) (l : Nat) (f : Env → Tile → TRes) : (s.tileStep l f).up.ready = s.up.ready := by
  unfold State.tileStep
  first | rfl | (repeat' split) <;> (first | rfl | simp; done) | dsimp only; (repeat' split) <;> (first | rfl | simp; done)
@[simp] theorem tileStep_up_blocks (s : State) (l : Nat) (f : Env → Tile → TRes) : (s.tileStep l f).up.blocks = s.up.blocks := by
  unfold State.tileStep
  first | rfl | (repeat' split) <;> (first | rfl | simp; done) | dsimp only; (repeat' split) <;> (first | rfl | simp; done)

/-! ### What is read after an update -/

theorem part_setPart (s : State) (p : Nat) (x : Part) (h : p < 8) : (s.setPart p x).part p = x := by
  simp [State.part, State.setPart, h, nth, List.getD]

theorem part_setPart_other (s : State) (p q : Nat) (x : Part) (h : q ≠ p) : (s.setPart p x).part q = s.part q := by
  unfold State.setPart
  split
  · simp [State.part, nth, List.getD, Ne.symm h]
  · rfl

theorem port_setPort (s : State) (k : Nat) (x : Port) (h : k < 16) : (s.setPort k x).port k = x := by
  simp [State.port, State.setPort, h, nth, List.getD]

theorem port_setPort_other (s : State) (k q : Nat) (x : Port) (h : q ≠ k) : (s.setPort k x).port q = s.port q := by
  unfold State.setPort
  split
  · simp [State.port, nth, List.getD, Ne.symm h]
  · rfl

theorem fn_setFn (s : State) (f : Nat) (x : Fn) (h : f < 9) : (s.setFn f x).fn f = x := by
  simp [State.fn, State.setFn, h, nth, List.getD]

theorem fn_setFn_other (s : State) (f q : Nat) (x : Fn) (h : q ≠ f) : (s.setFn f x).fn q = s.fn q := by
  unfold State.setFn
  split
  · simp [State.fn, nth, List.getD, Ne.symm h]
  · rfl

/-- A read of one unit depends on its field alone. -/
theorem part_congr {s t : State} (h : s.parts = t.parts) (p : Nat) : s.part p = t.part p := by unfold State.part; rw [h]
theorem port_congr {s t : State} (h : s.ports = t.ports) (k : Nat) : s.port k = t.port k := by unfold State.port; rw [h]
theorem fn_congr {s t : State} (h : s.fns = t.fns) (f : Nat) : s.fn f = t.fn f := by unfold State.fn; rw [h]
theorem seat_congr {s t : State} (h : s.seats = t.seats) (l : Nat) : s.seat l = t.seat l := by unfold State.seat; rw [h]
theorem tile_congr {s t : State} (h : s.tiles = t.tiles) (hs : s.seats = t.seats) (l : Nat) : s.tile l = t.tile l := by
  unfold State.tile State.siteTile; rw [h, seat_congr hs]
theorem grade_congr {s t : State} (h : s.faults.grade = t.faults.grade) (cls unit : Nat) : s.grade cls unit = t.grade cls unit := by
  unfold State.grade; rw [h]

end Sys2Proof.Laws
end

