-- ==== Sys2Proof/Laws/Tile.lean ====
section
/-! SUPPORT. What the shared operations of a tile's step do: a quiet step changes one tile alone, an instruction that issues does its effect
(`State.tileStep`, `State.runTile`, `CoreOp.step`). -/

namespace Sys2Proof.Laws

open Sys2Proof Sys2Proof.Machine

/-- A key just listed is found. -/
theorem find_put {α : Type} (m : Tab α) (a : Nat) (v : α) : Tab.find? (Tab.put m a v) a = some v := by
  induction m with
  | nil => simp [Tab.put, Tab.find?]
  | cons e m ih =>
    obtain ⟨k, w⟩ := e
    simp only [Tab.put]
    split
    · simp [Tab.find?]
    · split
      · simp [Tab.find?]
      · simp only [Tab.find?]; simp [*]

theorem siteTile_set (s : State) (x : Nat) (t : Tile) : (s.setSiteTile x t).siteTile x = t := by
  simp [State.siteTile, State.setSiteTile, Tab.get, find_put]

theorem gradeWords_nil (s : State) (x : Nat) (h : (s.siteTile x).pad.corrWords = []) : s.gradeWords x = s := by
  simp [State.gradeWords, h]

theorem runTile_quiet (s : State) (p l : Nat) (f : Env → Tile → TRes) (t' : Tile)
    (h : f (s.env p l) (s.tile l) = .quiet t') (hc : t'.pad.corrWords = []) :
    s.runTile p l f = s.setTile l t' := by
  have e : ({ t' with xc := { t'.xc with inj := t'.xc.inj + BitVec.ofNat 64 0 } } : Tile) = t' := by simp
  simp only [State.runTile, h, TRes.quiet, List.map_nil, List.foldl_nil, e, State.acts]
  apply gradeWords_nil
  simp [State.setTile, siteTile_set, hc]


def fetched (t : Tile) : Tile := { t with core := { t.core with loopRows := loopFetch t.core.loopRows t.core.pc } }
def atIssue (t : Tile) (rs : List Reg) : Tile :=
  { t with core := { (fetched t).core with cycle := t.core.issueAt rs } }

theorem issue_quiet (s : State) (p l : Nat) (i : Instr) (op : CoreOp) (t' : Tile) (hr : Ready s p l)
    (hb : op.bad (fetched (s.tile l)) = false)
    (hp : (op.reads ++ op.writes).any (s.tile l).core.isPend = false)
    (hg : op.go (s.env p l) (atIssue (s.tile l) op.reads) = .quiet t') (hc : t'.pad.corrWords = []) :
    s.issue l i op = s.setTile l t' := by
  have h2 : ∀ w o n, (s.tile l).pad.fetch w o n = ((s.tile l).pad, .ok ((hPlaces w o n).map (Mem.read (s.tile l).pad.mem))) := by
    intro w o n; simp [Pad.fetch, hr.whole]
  unfold State.issue State.tileStep
  rw [hr.runs]
  apply runTile_quiet _ _ _ _ _ _ hc
  unfold CoreOp.step
  rw [if_neg (by simp [hr.running, hr.free])]
  rw [if_neg (by simp [hr.fetch])]
  rw [h2]
  simp only []
  have hb' : op.bad { s.tile l with core := { (s.tile l).core with loopRows := loopFetch (s.tile l).core.loopRows (s.tile l).core.pc } } = false := hb
  rw [hb']
  have hp' : (op.reads ++ op.writes).any ({ s.tile l with core := { (s.tile l).core with loopRows := loopFetch (s.tile l).core.loopRows (s.tile l).core.pc } } : Tile).core.isPend = false := hp
  rw [hp']
  exact hg

theorem issueAt_le (c : Core) (rs : List Reg) : c.cycle ≤ c.issueAt rs := by
  unfold Core.issueAt
  have : ∀ (rs : List Reg) (m : Nat), m ≤ rs.foldl (fun m r => Nat.max m (c.ready[r.toNat])) m := by
    intro rs; induction rs with
    | nil => intro m; simp
    | cons a as ih => intro m; exact Nat.le_trans (Nat.le_max_left _ _) (ih _)
  exact this _ _


theorem bad_free (op : CoreOp) (t : Tile) (rs : List Reg) (h : noPend t rs) (hs : ∀ r ∈ op.reads ++ op.writes, r ∈ rs) :
   (op.reads ++ op.writes).any t.core.isPend = false := by
  rw [List.any_eq_false]; intro r hr; simp [h r (hs r hr)]

theorem leaves_of (s : State) (p : Nat) (l : LTile) (i : Instr) (op : CoreOp) (t2 t' : Tile) (rs : List Reg)
    (he : exec i s = .next (s.issue l i op)) (hr : Ready s p l)
    (hb : op.bad (fetched (s.tile l)) = false) (hn : noPend (s.tile l) rs) (hs : ∀ r ∈ op.reads ++ op.writes, r ∈ rs)
    (hg : op.go (s.env p l) (atIssue (s.tile l) op.reads) = .quiet t') (hc : t'.pad.corrWords = [])
    (hu : upToTiming t2 t') (ht : (s.tile l).core.issueAt op.reads ≤ t'.core.cycle) : leaves i s l t2 := by
  refine ⟨t', ?_, hu, Nat.le_trans (issueAt_le _ _) ht⟩
  rw [he, issue_quiet s p l i op t' hr hb (bad_free op _ rs hn hs) hg hc]

theorem leaves_alu (s : State) (p : Nat) (l : LTile) (i : Instr) (w : BitVec 32) (gd : Reg) (srcs : List Reg) (lat : Nat) (f : Core → Word) (v : Word)
    (he : exec i s = .next (s.issue l i (opAlu w false gd srcs lat f))) (hr : Ready s p l) (hn : noPend (s.tile l) (gd :: srcs))
    (hf : ∀ c rows n, f { c with loopRows := rows, cycle := n } = f c) (hv : f (s.tile l).core = v) :
    leaves i s l (withCore (s.tile l) (wrote (s.tile l).core gd v)) := by
  refine leaves_of s p l i _ _ _ _ he hr rfl hn (by simp only [opAlu, List.mem_append, List.mem_cons, List.not_mem_nil, or_false]; intro r h; exact h.symm) rfl hr.counted ?_ ?_
  · subst hv
    unfold upToTiming opAlu atIssue fetched Core.finish Core.wr withCore wrote past regAfter
    simp only [hf]; split <;> rfl
  · simp only [opAlu, atIssue, fetched, Core.finish, Core.wr]; split <;> simp

end Sys2Proof.Laws
end

