-- ==== Sys2Proof/Laws/Store.lean ====
section
/-! SUPPORT. What the operations of the sparse stores do: what a key reads as after each of them, and that each keeps the canonical form
(`Tab`, `Mem`). -/

namespace Sys2Proof.Laws

open Sys2Proof Sys2Proof.Machine

variable {α : Type}

/-! ### Keys above a bound -/

theorem above_mono {k j : Nat} (m : Tab α) (h : Tab.above k m = true) (hj : j ≤ k) : Tab.above j m = true := by
  induction m with
  | nil => rfl
  | cons e m ih =>
    simp only [Tab.above, Bool.and_eq_true, decide_eq_true_eq] at h ⊢
    exact ⟨by omega, ih h.2⟩

theorem above_iff (k : Nat) (m : Tab α) : Tab.above k m = true ↔ ∀ e ∈ m, k < e.1 := by
  induction m with
  | nil => simp [Tab.above]
  | cons e m ih => simp [Tab.above, ih]

theorem find_above {k a : Nat} (m : Tab α) (h : Tab.above k m = true) (ha : a ≤ k) : Tab.find? m a = none := by
  cases m with
  | nil => rfl
  | cons e m =>
    simp only [Tab.above, Bool.and_eq_true, decide_eq_true_eq] at h
    rw [Tab.find?, if_neg (by omega), if_pos (by omega)]

theorem above_put {k a : Nat} (m : Tab α) (v : α) (h : Tab.above k m = true) (ha : k < a) : Tab.above k (Tab.put m a v) = true := by
  induction m with
  | nil => simp [Tab.put, Tab.above, ha]
  | cons e m ih =>
    simp only [Tab.above, Bool.and_eq_true, decide_eq_true_eq] at h
    simp only [Tab.put]
    split
    · simp [Tab.above, ha, h.2]
    · split
      · simp [Tab.above, ha, h.1, h.2]
      · simp [Tab.above, h.1, ih h.2]

theorem above_erase {k : Nat} (m : Tab α) (a : Nat) (h : Tab.above k m = true) : Tab.above k (Tab.erase m a) = true := by
  induction m with
  | nil => rfl
  | cons e m ih =>
    simp only [Tab.above, Bool.and_eq_true, decide_eq_true_eq] at h
    simp only [Tab.erase]
    split
    · exact h.2
    · split
      · simp [Tab.above, h.1, h.2]
      · simp [Tab.above, h.1, ih h.2]

/-! ### Rising keys -/

theorem rising_put (m : Tab α) (a : Nat) (v : α) (h : Tab.rising m = true) : Tab.rising (Tab.put m a v) = true := by
  induction m with
  | nil => rfl
  | cons e m ih =>
    simp only [Tab.rising, Bool.and_eq_true] at h
    simp only [Tab.put]
    split
    · rename_i e1; simp [Tab.rising, e1, h.1, h.2]
    · split
      · rename_i e2
        simp only [Tab.rising, Tab.above, Bool.and_eq_true, decide_eq_true_eq]
        exact ⟨⟨e2, above_mono m h.1 (by omega)⟩, h.1, h.2⟩
      · simp only [Tab.rising, Bool.and_eq_true]
        exact ⟨above_put m v h.1 (by omega), ih h.2⟩

theorem rising_erase (m : Tab α) (a : Nat) (h : Tab.rising m = true) : Tab.rising (Tab.erase m a) = true := by
  induction m with
  | nil => rfl
  | cons e m ih =>
    simp only [Tab.rising, Bool.and_eq_true] at h
    simp only [Tab.erase]
    split
    · exact h.2
    · split
      · simp [Tab.rising, h.1, h.2]
      · simp only [Tab.rising, Bool.and_eq_true]
        exact ⟨above_erase m a h.1, ih h.2⟩

theorem rising_set [DecidableEq α] (d : α) (m : Tab α) (a : Nat) (v : α) (h : Tab.rising m = true) : Tab.rising (Tab.set d m a v) = true := by
  unfold Tab.set
  split
  · exact rising_erase m a h
  · exact rising_put m a v h

theorem rising_filter (q : Nat × α → Bool) (m : Tab α) (h : Tab.rising m = true) : Tab.rising (m.filter q) = true := by
  induction m with
  | nil => rfl
  | cons e m ih =>
    simp only [Tab.rising, Bool.and_eq_true] at h
    rw [List.filter_cons]
    split
    · simp only [Tab.rising, Bool.and_eq_true]
      refine ⟨(above_iff _ _).mpr fun x hx => ?_, ih h.2⟩
      exact (above_iff _ _).mp h.1 x (List.mem_filter.mp hx).1
    · exact ih h.2

theorem rising_clear (m : Tab α) (lo n : Nat) (h : Tab.rising m = true) : Tab.rising (Tab.clear m lo n) = true := rising_filter _ m h

theorem rising_map {β : Type} (f : Nat × α → β) (m : Tab α) (h : Tab.rising m = true) : Tab.rising (m.map fun e => (e.1, f e)) = true := by
  induction m with
  | nil => rfl
  | cons e m ih =>
    simp only [Tab.rising, Bool.and_eq_true] at h
    simp only [List.map_cons, Tab.rising, Bool.and_eq_true]
    refine ⟨(above_iff _ _).mpr fun x hx => ?_, ih h.2⟩
    obtain ⟨y, hy, rfl⟩ := List.mem_map.mp hx
    exact (above_iff _ _).mp h.1 y hy

/-! ### What a key holds afterwards -/

theorem find_put_other (m : Tab α) (a b : Nat) (v : α) (h : b ≠ a) : Tab.find? (Tab.put m a v) b = Tab.find? m b := by
  induction m with
  | nil =>
    simp only [Tab.put, Tab.find?]
    rw [if_neg h]
    split <;> rfl
  | cons e m ih =>
    obtain ⟨k, w⟩ := e
    simp only [Tab.put]
    split
    · rename_i e1
      subst e1
      simp only [Tab.find?]
      rw [if_neg h]
      split
      · rfl
      · rfl
    · split
      · rename_i e1 e2
        simp only [Tab.find?]
        rw [if_neg h]
        split
        · rw [if_neg (by omega), if_pos (by omega)]
        · rfl
      · simp only [Tab.find?, ih]

theorem find_erase (m : Tab α) (a : Nat) (h : Tab.rising m = true) : Tab.find? (Tab.erase m a) a = none := by
  induction m with
  | nil => rfl
  | cons e m ih =>
    obtain ⟨k, w⟩ := e
    simp only [Tab.rising, Bool.and_eq_true] at h
    simp only [Tab.erase]
    split
    · rename_i e1
      exact find_above m h.1 (by omega)
    · rename_i e1
      split
      · rename_i e2
        rw [Tab.find?, if_neg e1, if_pos e2]
      · rename_i e2
        rw [Tab.find?, if_neg e1, if_neg e2, ih h.2]

theorem find_erase_other (m : Tab α) (a b : Nat) (h : Tab.rising m = true) (hb : b ≠ a) : Tab.find? (Tab.erase m a) b = Tab.find? m b := by
  induction m with
  | nil => rfl
  | cons e m ih =>
    obtain ⟨k, w⟩ := e
    simp only [Tab.rising, Bool.and_eq_true] at h
    simp only [Tab.erase]
    split
    · rename_i e1
      subst e1
      simp only [Tab.find?]
      rw [if_neg hb]
      split
      · rename_i e2
        exact find_above m h.1 (by omega)
      · rfl
    · split
      · rfl
      · simp only [Tab.find?, ih h.2]

theorem get_put (d : α) (m : Tab α) (a : Nat) (v : α) : Tab.get d (Tab.put m a v) a = v := by
  simp [Tab.get, find_put]

theorem get_put_other (d : α) (m : Tab α) (a b : Nat) (v : α) (h : b ≠ a) : Tab.get d (Tab.put m a v) b = Tab.get d m b := by
  simp [Tab.get, find_put_other m a b v h]

theorem get_set [DecidableEq α] (d : α) (m : Tab α) (a : Nat) (v : α) (h : Tab.rising m = true) : Tab.get d (Tab.set d m a v) a = v := by
  unfold Tab.set
  split
  · rename_i e; simp [Tab.get, find_erase m a h, e]
  · exact get_put d m a v

theorem get_set_other [DecidableEq α] (d : α) (m : Tab α) (a b : Nat) (v : α) (h : Tab.rising m = true) (hb : b ≠ a) :
    Tab.get d (Tab.set d m a v) b = Tab.get d m b := by
  unfold Tab.set
  split
  · simp [Tab.get, find_erase_other m a b h hb]
  · exact get_put_other d m a b v hb

/-! ### Byte memory -/

theorem wf_rising {m : Mem} (h : Mem.wf m = true) : Tab.rising m = true := by
  simp only [Mem.wf, Bool.and_eq_true] at h
  exact h.1

theorem mem_put {m : Tab α} {a : Nat} {v : α} {e : Nat × α} (h : e ∈ Tab.put m a v) : e = (a, v) ∨ e ∈ m := by
  induction m with
  | nil => simpa [Tab.put] using h
  | cons x m ih =>
    simp only [Tab.put] at h
    split at h
    · rcases List.mem_cons.mp h with h | h
      · exact .inl h
      · exact .inr (List.mem_cons_of_mem _ h)
    · split at h
      · rcases List.mem_cons.mp h with h | h
        · exact .inl h
        · exact .inr h
      · rcases List.mem_cons.mp h with h | h
        · exact .inr (h ▸ List.mem_cons_self)
        · exact (ih h).imp id (List.mem_cons_of_mem _)

theorem mem_erase {m : Tab α} {a : Nat} {e : Nat × α} (h : e ∈ Tab.erase m a) : e ∈ m := by
  induction m with
  | nil => simp [Tab.erase] at h
  | cons x m ih =>
    simp only [Tab.erase] at h
    split at h
    · exact List.mem_cons_of_mem _ h
    · split at h
      · exact h
      · rcases List.mem_cons.mp h with h | h
        · exact h ▸ List.mem_cons_self
        · exact List.mem_cons_of_mem _ (ih h)

/-- A write keeps the canonical form. -/
theorem wf_write (m : Mem) (a : Nat) (b : Byte) (h : Mem.wf m = true) : Mem.wf (Mem.write m a b) = true := by
  simp only [Mem.wf, Bool.and_eq_true, Tab.proper, List.all_eq_true, decide_eq_true_eq] at h ⊢
  refine ⟨rising_set Mem.fill m a b h.1, fun e he => ?_⟩
  unfold Mem.write Tab.set at he
  split at he
  · exact h.2 e (mem_erase he)
  · rename_i hb
    rcases mem_put he with he | he
    · rw [he]; exact hb
    · exact h.2 e he

theorem wf_writeN (m : Mem) (a : Nat) (bs : List Byte) (h : Mem.wf m = true) : Mem.wf (Mem.writeN m a bs) = true := by
  induction bs generalizing m a with
  | nil => exact h
  | cons b bs ih => exact ih _ _ (wf_write m a b h)

/-- Writes at a list of places keep the canonical form. -/
theorem wf_cells (m : Mem) (cells : List (Nat × Byte)) (h : Mem.wf m = true) :
    Mem.wf (cells.foldl (fun m c => Mem.write m c.1 c.2) m) = true := by
  induction cells generalizing m with
  | nil => exact h
  | cons c cells ih => exact ih _ (wf_write m c.1 c.2 h)

/-- A byte just written reads back, and a write leaves every other byte alone. -/
theorem read_write (m : Mem) (a : Nat) (b : Byte) (h : Mem.wf m = true) : Mem.read (Mem.write m a b) a = b :=
  get_set Mem.fill m a b (wf_rising h)

theorem read_write_other (m : Mem) (a c : Nat) (b : Byte) (h : Mem.wf m = true) (hc : c ≠ a) : Mem.read (Mem.write m a b) c = Mem.read m c :=
  get_set_other Mem.fill m a c b (wf_rising h) hc

/-- Every byte after a write of several: the bytes written in their places, the rest as before. -/
theorem read_writeN (m : Mem) (a c : Nat) (bs : List Byte) (h : Mem.wf m = true) :
    Mem.read (Mem.writeN m a bs) c = if a ≤ c ∧ c < a + bs.length then bs.getD (c - a) 0 else Mem.read m c := by
  induction bs generalizing m a with
  | nil =>
    rw [if_neg (by simp only [List.length_nil]; omega)]
    rfl
  | cons b bs ih =>
    rw [Mem.writeN, ih _ _ (wf_write m a b h), List.length_cons]
    by_cases e : c = a
    · subst e
      rw [if_neg (by omega), if_pos (by omega), read_write m c b h]
      simp
    · by_cases k : a + 1 ≤ c ∧ c < a + 1 + bs.length
      · rw [if_pos k, if_pos (by omega)]
        have e1 : c - a = (c - (a + 1)) + 1 := by omega
        rw [e1, List.getD_cons_succ]
      · rw [if_neg k, if_neg (by omega), read_write_other m a c b h e]

/-- The memory of the module at power-on is in canonical form. -/
theorem wf_reset : Mem.wf State.reset.host = true ∧ canonical Tile.wiped = true := by decide

end Sys2Proof.Laws
end

