-- ==== Sys2Proof/Tests/Slice0.lean ====
section
/-! SUPPORT. Tests. First, ill-formed commands that Instr.wf refuses, and single commands whose result the spec gives. Then, for each clause
of each obligation, a state and operands that meet all of its hypotheses together: `witness_<claim>_<place>` is for that clause of `Claims.<claim>`, the place
counting conjuncts (1 for the left of an "and", 2 for the right). A clause with no hypotheses of its own, or with those of a neighbour, has no theorem of its own. -/

namespace Sys2Proof.Tests
open Sys2Proof Sys2Proof.Machine Sys2Proof.Claims
set_option maxRecDepth 100000
set_option Elab.async false
set_option linter.all false

def code : Word := BitVec.ofNat 64 (1 + 2 + 8 + (4096 <<< 26))
def buf (base len : Nat) : Word := BitVec.ofNat 64 (1 + 2 + 4 + 16 + ((base / 64) <<< 12) + (len <<< 26))
def demoTile : Tile :=
  let t := Tile.wiped
  { t with
    core := { t.core with run := .running, pc := 16, g := (((t.core.g.set 1 40).set 2 0xFFFFFFFFFFFFFFF7).set 3 5).set 4 7, evec := 0x101, idReg := 5, partReg := 7 }
    pad := { t.pad with h := (((t.pad.h.set 0 code).set 12 (buf 4096 4096)).set 13 (buf 8192 100)).set 14 (buf 0 64 &&& ~~~(1#64))
                        mem := Mem.writeN [] (hPlace (buf 4096 4096) 40) (leBytes 8 0x8182838485868788)
                        ctr := (t.pad.ctr.set 2 9) }
    bl := { t.bl with bells := ((t.bl.bells.set 3 { TileBell.reset with exists_ := true, member := true }).set 4 { TileBell.reset with exists_ := true, member := true, out := 1, next := 6 }).set 5 { TileBell.reset with exists_ := true, member := true, out := 2, next := 6 } } }
def demo : State :=
  let x := { Part.reset with state := .running, bw := 1, bh := 1, count := 2, func := 1 }
  let s := State.reset.setPart 0 x
  let s := (s.setSeat 0 ⟨0, 0, true, false⟩).setSeat 1 ⟨1, 0, true, false⟩
  (s.setTile 0 demoTile).setTile 1 demoTile
def upd (s : State) (f : Tile → Tile) : State := s.setTile 0 (f (s.tile 0))
def T := demo.tile 0
def withRegs (a b : Word) : State := upd demo (fun t => { t with core := { t.core with g := (t.core.g.set 1 a).set 2 b } })
def wt (s : State) (w : WaitOn) (lim : Word) := upd s (fun t => { t with core := { t.core with wait := some ⟨w, lim⟩ } })
def outOf (i : Instr) (s : State) : State := match exec i s with | .next s' => s' | _ => s
/-- word-array fill of a place range -/
def fillMem (t : Tile) (w : Word) (off : Nat) (bs : List Byte) : Tile := { t with pad := { t.pad with mem := (hCells w off bs).foldl (fun m c => Mem.write m c.1 c.2) t.pad.mem } }
def rnd (seed n : Nat) : List Byte := (List.range n).map (fun i => BitVec.ofNat 8 (((i + 7) * (seed + 13) * 2654435761 / 65536) % 256))
def ent (op : BitVec 8) (va vb vc : Word) : QEntry := ⟨op, 8, 9, va, vb, vc, true, 3, true, 4⟩
def qd (s : State) (g : Eng) (e : QEntry) : State := upd s fun t => let t1 := withQueue t g { queueOf t g with waiting := [e, ent 0x99 1 2 3], issued := 7 }; { t1 with core := { t1.core with tokens := t1.core.tokens.set 3 2 } }

theorem someFree {α : Type} {o : Option α} {P : α → Prop} (e : ∀ v ∈ o.toList, ¬ P v) : ∀ d, ¬ (o = some d ∧ P d) := by
  rintro d ⟨h1, h2⟩
  exact e d (by simp [h1]) h2
theorem someLe {o : Option Nat} {c : Nat} (e : ∀ v ∈ o.toList, v ≤ c) : ∀ k, o = some k → k ≤ c := by
  intro k h1
  exact e k (by simp [h1])
theorem noSend {r : Option XcRun} (e : r = none) (j o len : Nat) (h : Word) (tag : BitVec 32) : r ≠ some (.send j o len h tag) := by
  simp [e]
theorem preAway {s : State} {q t : Nat} (e : ∀ v ∈ (s.port q).owner.toList, ¬ Claims.admits s q v t) : ∀ p, ¬ Claims.admits s q p t :=
  fun p h => e p (by simp [h.1]) h
theorem noneNe {r : Option (Rel × HoldFor × Nat)} (e : r = none) (w : HoldFor) : ∀ (a : Rel) (t : Nat), r ≠ some (a, w, t) := by
  simp [e]
theorem someAll {r : Option (Nat × Nat)} {P : Nat → Nat → Prop} (e : ∀ v ∈ r.toList, P v.1 v.2) : ∀ a t, r = some (a, t) → P a t := by
  intro a t h
  exact e (a, t) (by simp [h])
theorem exOk {e : Except Nat Timetable} {v : Timetable} (h : (match e with | .ok x => decide (x = v) | .error _ => false) = true) : e = .ok v := by
  cases e <;> simp_all
theorem exErr {α : Type} {e : Except Nat α} {v : Nat} (h : (match e with | .ok _ => false | .error x => decide (x = v)) = true) : e = .error v := by
  cases e <;> simp_all
theorem someGet {o : Option State} {d : State} (h : o.isSome = true) : o = some (o.getD d) := by
  cases o <;> simp_all
theorem noHeld {l : List (Nat × Bell)} {w : HoldFor} (e : ∀ b ∈ l, b.2.held = none) : ¬ ∃ b, b ∈ l ∧ ∃ r t, b.2.held = some (r, w, t) := by
  rintro ⟨b, hb, r, t, h⟩
  simp [e b hb] at h
theorem leVal_leBytes (n v : Nat) : leVal (leBytes n v) = v % 256 ^ n := by
  induction n generalizing v with
  | zero => simp [leBytes, leVal, Nat.mod_one]
  | succ n ih =>
    show (BitVec.ofNat 8 v).toNat + 256 * leVal (leBytes n (v / 256)) = _
    rw [ih, Nat.pow_succ', Nat.mod_mul]
    rfl
theorem serialRead {a : List Byte} (e : Claims.part a 8 8 = leBytes 8 Config.serial.toNat) : Claims.num a 8 8 = Config.serial.toNat := by
  rw [Claims.num, e, leVal_leBytes]
  exact Nat.mod_eq_of_lt Config.serial.isLt
theorem shortOf {y : Flow} (e : ∀ a ∈ y.waiting.head?.toList, y.bytes < a.count) : short y := by
  intro a rest h1
  exact e a (by simp [h1])

/-! ### Ill-formed commands, one for each check of Instr.wf -/

theorem test_wf_clz : Instr.wf (.clz 0 1 2 3) = false := by decide
theorem test_wf_popc : Instr.wf (.popc 0 1 2 31) = false := by decide
theorem test_wf_shli : Instr.wf (.shli 0 1 2 64) = false := by decide
theorem test_wf_shri : Instr.wf (.shri 0 1 2 64) = false := by decide
theorem test_wf_srai : Instr.wf (.srai 0 1 2 0x3FFF) = false := by decide
theorem test_wf_enter : Instr.wf (.enter 0 1 2 12 1) = false := by decide
theorem test_wf_arrive : Instr.wf (.arrive 0 1 2 12 1) = false := by decide
theorem test_wf_wait : Instr.wf (.wait 0 1 2 12 2) = false := by decide
theorem test_wf_waitc : Instr.wf (.waitc 0 1 2 16) = false := by decide
theorem test_wf_tsig : Instr.wf (.tsig 0 0 0 8) = false ∧ Instr.wf (.tsig 0 1 0 7) = false := by decide
theorem test_wf_twait : Instr.wf (.twait 0 0 1 7) = false := by decide
theorem test_wf_fence : Instr.wf (.fence 0 0 0 8) = false := by decide
theorem test_wf_halt : Instr.wf (.halt 0 0 0 1) = false := by decide
theorem test_wf_exc : Instr.wf (.exc 0 1 0 0) = false := by decide
theorem test_wf_eret : Instr.wf (.eret 0 0 0 1) = false := by decide
theorem test_wf_csrR : Instr.wf (.csrR 0 1 2 0) = false := by decide
theorem test_wf_csrW : Instr.wf (.csrW 0 1 2 0) = false := by decide
theorem test_wf_engineIssue : Instr.wf (.engineIssue 0 0x84 1 2 3 false 0 false 0 true) = false := by decide
theorem test_wf_waits : ∀ c ∈ [Instr.fullemptyComplete 0 0, .bellWaitComplete 0 0, .waitcComplete 0 0, .twaitComplete 0 0, .fenceComplete 0 0,
    .haltComplete 0 0, .queueWaitEnd 0 0, .resultWaitEnd 0 0], c.wf = false := by decide
theorem test_wf_registerWrite : Instr.wf (.registerWrite 0 4 true 0) = false ∧ Instr.wf (.registerWrite 0 2 false 0) = false := by decide
theorem test_wf_bar2Write : Instr.wf (.bar2Write 0 0 []) = false := by decide
theorem test_wf_bar2Read : Instr.wf (.bar2Read 0 0 0) = false := by decide
theorem test_wf_slotParameterWrite : Instr.wf (.slotParameterWrite 0 0 7 [1]) = false ∧ Instr.wf (.slotParameterWrite 0 0 255 [1, 2]) = false := by decide
theorem test_wf_frameReceive : Instr.wf (.frameReceive 0 [1, 2, 3]) = false := by decide
theorem test_wf_patrolScrub : Instr.wf (.patrolScrub (2 ^ 33)) = false := by decide
theorem test_wf_testDone : Instr.wf (.testDone 1 3072 false) = false ∧ Instr.wf (.testDone 0 0 false) = false := by decide
theorem test_wf_throttleNoticeExpire : Instr.wf (.throttleNoticeExpire 0 4096) = false := by decide
theorem test_wf_pldmGetSensorReading : Instr.wf (.pldmGetSensorReading 8) = false := by decide

/-- Well-formed, at the ends of the ranges. -/
theorem test_wf_ends : ∀ c ∈ [Instr.shli 0 1 2 63, .waitc 0 1 2 15, .fence 0 0 0 7, .exc 0 0 0 0x3FFF, .waitcComplete 0 1, .registerWrite 0 8 true 0,
    .registerWrite 0 4 false 0, .slotParameterWrite 0 0 254 [1, 2], .patrolScrub (2 ^ 33 - 1), .testDone 2 3135 true, .pldmGetSensorReading 7],
    c.wf = true := by decide

/-! ### The manual's worked examples -/

/-- Section 0.4: 3 is later than 0xFFFF_FFFE. -/
theorem test_serial : serialLater 3 0xFFFFFFFE = true ∧ serialDist 3 0xFFFFFFFE = 5 := by decide
/-- Section 2.2: the words of LD.D g5, h12[g6 + 16] and BNE g3, g0, −3. -/
theorem test_words : wordM 0x26 5 6 12 2 = 0x26298C02 ∧ wordI 0x39 3 0 0x3FFD = 0x39183FFD := by decide
/-- Section 4.3: the word of MX.FWD g10, g11. -/
theorem test_mxWord : wordE 0x84 10 11 0 false 0 false 0 false = 0x8452C000 := by decide
/-- Section 3.2: the handle entry of h8. -/
theorem test_handle : let w : Word := 0x0000040002D00817
    hBase w = 0xB4000 ∧ hLen w = 0x10000 ∧ hSkew w = 8 ∧ hValid w = true ∧ hR w = true ∧ hW w = true ∧ hX w = false ∧ hRmt w = true := by decide
/-- Section 4.3: the operand word and the control word of a FWD pass. -/
theorem test_operandWord : let w : Word := 0x0530008000700000
    owOff w = 0 ∧ owHandle w = 7 ∧ owStride w = 128 ∧ owFmt w = 3 ∧ owSrec w = 5 ∧ owBad w = false := by decide
theorem test_controlWord : let w : Word := 0x2800
    cwAcc w = 0 ∧ cwRows w = 32 ∧ cwZero w = true ∧ cwPlane w = false := by decide
/-- Section 5.4: an input of 26.4 × 2⁻³ becomes the E4M3 value 26 = 0x5D, and 492 × 2⁻³ saturates to 448 = 0x7E with an overflow. -/
theorem test_e4m3 : (Fmt.e4m3.convert (.fin false 264 (-3)) false (-3)).1 % 128 ≤ 0x7E ∧ (Fmt.e4m3.convert (.fin false 492 (-3)) false (-3)).1 = 0x7E := by
  decide +kernel
/-- Section 5.8: step 43 of the residue's example: w = 1.5, ρ = −126, Δ = −0.0001 gives w′ = 0x3FBF and ρ′ = 127. -/
theorem test_residue : (residueAdd 0x3FC0 (-126) 0xB8D1B717).1 = 0x3FBF ∧ (residueAdd 0x3FC0 (-126) 0xB8D1B717).2.1 = 127 := by decide +kernel
/-- Section 8.6: site (30, 17) has id 982 and holds logical tile 962; sites (28, 4) and (29, 5) hold 244 and 301. -/
theorem test_sites : siteId 30 17 = 982 ∧ logicalOf 30 17 = 962 ∧ ownSite 962 = 982 ∧ logicalOf 28 4 = 244 ∧ logicalOf 29 5 = 301 := by decide +kernel
/-- Section 9.5: the 29 hops between sites (40, 0) and (48, 21). -/
theorem test_hops : hops (siteId 40 0) (siteId 48 21) = 29 := by decide +kernel
/-- Section 9.5: a message of 3,000 bytes takes 48 units. -/
theorem test_units : unitsOf 3000 = 48 := by decide +kernel
/-- Section 13.9: the header 0x2200_0020_0000_0102 is JOB_START with 32 bytes of parameters and SEQ 0x102. -/
theorem test_header : fld 0x2200002000000102 56 8 = 0x22 ∧ fld 0x2200002000000102 32 16 = 32 ∧ fld 0x2200002000000102 0 32 = 0x102 := by decide

/-! ### Single commands on a running tile whose g1 and g2 the helper sets -/

def regAfter (i : Instr) (s : State) (r : Reg) : Word := ((outOf i s).tile 0).core.rd r
def pcAfter (i : Instr) (s : State) : Nat := ((outOf i s).tile 0).core.pc.toNat

theorem test_add_wraps : regAfter (.add 0 3 1 2) (withRegs 0xFFFFFFFFFFFFFFFF 2) 3 = 1 := by decide +kernel
theorem test_add_g0 : regAfter (.add 0 0 1 2) (withRegs 5 6) 0 = 0 := by decide +kernel
theorem test_sub_same : regAfter (.sub 0 1 1 2) (withRegs 5 6) 1 = 0xFFFFFFFFFFFFFFFF := by decide +kernel
theorem test_mulh : regAfter (.mulh 0 3 1 2) (withRegs 0x8000000000000000 0x8000000000000000) 3 = 0x4000000000000000 := by decide +kernel
theorem test_mulhu : regAfter (.mulhu 0 3 1 2) (withRegs 0xFFFFFFFFFFFFFFFF 0xFFFFFFFFFFFFFFFF) 3 = 0xFFFFFFFFFFFFFFFE := by decide +kernel
/-- R44: the corner cases of division. -/
theorem test_div_corner : regAfter (.div 0 3 1 2) (withRegs 0x8000000000000000 0xFFFFFFFFFFFFFFFF) 3 = 0x8000000000000000 := by decide +kernel
theorem test_rem_zero : regAfter (.rem 0 3 1 2) (withRegs 7 0) 3 = 7 := by decide +kernel
theorem test_divu_zero : regAfter (.divu 0 3 1 2) (withRegs 7 0) 3 = 0xFFFFFFFFFFFFFFFF := by decide +kernel
theorem test_sra : regAfter (.sra 0 3 1 2) (withRegs 0x8000000000000000 67) 3 = 0xF000000000000000 := by decide +kernel
theorem test_slt : regAfter (.slt 0 3 1 2) (withRegs 0xFFFFFFFFFFFFFFFF 1) 3 = 1 ∧ regAfter (.sltu 0 3 1 2) (withRegs 0xFFFFFFFFFFFFFFFF 1) 3 = 0 := by
  decide +kernel
theorem test_clz : regAfter (.clz 0 3 1 0) (withRegs 0 0) 3 = 64 := by decide +kernel
theorem test_popc : regAfter (.popc 0 3 1 0) (withRegs 0xF0F 0) 3 = 8 := by decide +kernel
theorem test_addi : regAfter (.addi 0 3 1 0x3FFF) (withRegs 5 0) 3 = 4 := by decide +kernel
theorem test_andi : regAfter (.andi 0 3 1 0x3FFF) (withRegs 0xFFFFFFFFFFFFFFFF 0) 3 = 0x3FFF := by decide +kernel
theorem test_liu : regAfter (.liu 0 3 0x40000) (withRegs 0 0) 3 = 0xFFFFFFFF00000000 := by decide +kernel
/-- h12 holds 0x8182_8384_8586_8788 at offset 40, and g1 is 40. -/
theorem test_ldB : regAfter (.ldB 0 3 1 12 0) demo 3 = 0xFFFFFFFFFFFFFF88 := by decide +kernel
theorem test_ldHu : regAfter (.ldHu 0 3 1 12 1) demo 3 = 0x8586 := by decide +kernel
theorem test_ldD : regAfter (.ldD 0 3 1 12 0) demo 3 = 0x8182838485868788 := by decide +kernel
theorem test_stW : regAfter (.ldD 0 3 1 12 0) (outOf (.stW 0 4 1 12 1) demo) 3 = 0x0000000785868788 := by decide +kernel
theorem test_la : regAfter (.la 0 3 1 12 2) demo 3 = 4096 + 42 := by decide +kernel
/-- The pc is 16: BNE −3 goes to 4, BEQ not taken to 20, and JAL leaves 20 in gd. -/
theorem test_bne : pcAfter (.bne 0 1 2 0x3FFD) demo = 4 ∧ pcAfter (.beq 0 1 2 0x3FFD) demo = 20 := by decide +kernel
theorem test_jal : regAfter (.jal 0 3 4) demo 3 = 20 ∧ pcAfter (.jal 0 3 4) demo = 32 := by decide +kernel
/-- A step takes the command at the front; an empty queue lets one ns pass. -/
theorem test_step : step { demo with pending := [.liu 0 3 1, .liu 0 3 2] } = exec (.liu 0 3 1) { demo with pending := [.liu 0 3 2] } := rfl
theorem test_idle : step State.reset = .next { State.reset with now := State.reset.now + 1 } := by rfl

namespace T01

def withRegs (a b : Word) : State := upd demo (fun t => { t with core := { t.core with g := (t.core.g.set 1 a).set 2 b } })

def fulls := upd demo (fun t => { t with pad := t.pad.setFull (wordOf (hPlace t.pad.h[12] 40)) true })

def wt (s : State) (w : WaitOn) (lim : Word) := upd s (fun t => { t with core := { t.core with wait := some ⟨w, lim⟩ } })

def queuedUp : State := { demo with pending := [.eret 0 0 0 0, .halt 0 0 0 0] }

def waitFull := wt fulls (.fullempty (.halt 0 0 0 0) true 9 12 40) 100

def waitShut := wt demo (.fullempty (.halt 0 0 0 0) false 2 14 40) 100

def offCode := upd demo (fun t => { t with core := { t.core with pc := 4096 } })

def waitBell := wt demo (.bell 9 4 4) 100

def behind := upd demo (fun t => { t with mxq := { t.mxq with issued := 3, completed := 2 } })

def waitCtr := wt demo (.waitc 9 2 8) 4

def waitTok := wt (upd demo fun t => { t with core := { t.core with tokens := t.core.tokens.set 3 4 } }) (.twait 3) 0

def waitFence := wt demo (.fence none (some 0) none) 0

def busy := upd demo (fun t => { t with mxq := { t.mxq with waiting := [ent 0x84 1 2 3] } })

def waitHalt := wt demo .halt 0

def handling := upd demo (fun t => { t with core := { t.core with hm := true, epc := 8 } })

def waitTwo := wt demo (.twait 3) 50

def waitOn := wt demo (.twait 3) 0

def noHandler := upd demo fun t => { t with core := { t.core with evec := 0 } }

def owning := upd demo fun t => { t with pad := { t.pad with h := t.pad.h.set 20 0x20 } }

def handleOut := withRegs 0 (buf (2 ^ 20 - 64) 128)

def handleClear := withRegs 0 0

def badRecord := withRegs 0 0xFFFFFFFFFFFFFFFF

def walkerReady := upd (withRegs 0 1) (fun t => { t with pad := { t.pad with h := t.pad.h.set 1 (buf 65536 4096), mem := Mem.writeN t.pad.mem (hPlace (buf 65536 4096) 0) (leBytes 8 (3 + 2^52)) } })

def walkerNone := withRegs 0 1

def walkerRuns := upd (withRegs 0 0) (fun t => { t with bl := { t.bl with run := true } })

def walkerFires := upd (withRegs 0 0) (fun t => { t with bl := { t.bl with run := true, firing := some (2,2) } })

def crowded := upd demo fun t => { t with mxq := { t.mxq with waiting := List.replicate 16 (ent 0x84 1 2 3) } }

def issue : Instr := .engineIssue 0 0x84 9 1 0 true 3 false 4 false

def waitQueue := wt demo (.queue issue) 6

def waitResult := wt demo (.result (.add 0 9 1 2)) 6

def pendTwo := upd demo fun t => { t with core := { t.core with pend := 4 } }

def nextOf (o : Answer) : State := match o with | .next t => t | _ => State.reset

def afterIdle : State := nextOf (step State.reset)

def granted : State := nextOf (execChalkboardGrant demo)

theorem witness_stepTakesFront :
      (queuedUp.pending = [Instr.eret (0 : LTile) (0 : Reg) (0 : Reg) (0 : BitVec 14), Instr.halt (0 : LTile) (0 : Reg) (0 : Reg) (0 : BitVec 14)]) :=
    by decide +kernel

theorem witness_registerOperations_1 :
      ((Instr.and, fun (a b : Word) => a &&& b) ∈ regTable) ∧
      (Ready demo 0 0) ∧
      (noPend (demo.tile 0) [(9 : Reg), (1 : Reg), (2 : Reg)]) :=
    ⟨by simp [regTable], ⟨by decide +kernel, by decide +kernel, by decide +kernel, by decide +kernel, by decide +kernel, by decide +kernel, by decide +kernel⟩, by decide +kernel⟩

theorem witness_registerOperations_2_1 :
      (Ready demo 0 0) ∧
      (noPend (demo.tile 0) [(9 : Reg), (1 : Reg)]) :=
    ⟨⟨by decide +kernel, by decide +kernel, by decide +kernel, by decide +kernel, by decide +kernel, by decide +kernel, by decide +kernel⟩, by decide +kernel⟩

theorem witness_registerOperations_2_2 :
      (Ready demo 0 0) ∧
      (noPend (demo.tile 0) [(9 : Reg), (1 : Reg)]) :=
    ⟨⟨by decide +kernel, by decide +kernel, by decide +kernel, by decide +kernel, by decide +kernel, by decide +kernel, by decide +kernel⟩, by decide +kernel⟩

theorem witness_divisions :
      ((Instr.divu, fun (a b : Word) => if b = (0 : Word) then BitVec.allOnes 64 else BitVec.ofNat 64 (BitVec.toNat a / BitVec.toNat b)) ∈ divTable) ∧
      (Ready demo 0 0) ∧
      (noPend (demo.tile 0) [(9 : Reg), (1 : Reg), (2 : Reg)]) :=
    ⟨by simp [divTable], ⟨by decide +kernel, by decide +kernel, by decide +kernel, by decide +kernel, by decide +kernel, by decide +kernel, by decide +kernel⟩, by decide +kernel⟩

theorem witness_immediateOperations_1 :
      ((Instr.andi, fun (a : Word) (i : BitVec 14) => a &&& BitVec.ofNat 64 i.toNat) ∈ immTable) ∧
      (Ready demo 0 0) ∧
      (noPend (demo.tile 0) [(9 : Reg), (1 : Reg)]) :=
    ⟨by simp [immTable], ⟨by decide +kernel, by decide +kernel, by decide +kernel, by decide +kernel, by decide +kernel, by decide +kernel, by decide +kernel⟩, by decide +kernel⟩

theorem witness_immediateOperations_2_1 :
      ((Instr.shli, fun (a : Word) (n : Nat) => BitVec.ofNat 64 (BitVec.toNat a * 2 ^ n)) ∈ shiftTable) ∧
      (BitVec.toNat (63 : BitVec 14) < 64) ∧
      (Ready demo 0 0) ∧
      (noPend (demo.tile 0) [(9 : Reg), (1 : Reg)]) :=
    ⟨by simp [shiftTable], by decide +kernel, ⟨by decide +kernel, by decide +kernel, by decide +kernel, by decide +kernel, by decide +kernel, by decide +kernel, by decide +kernel⟩, by decide +kernel⟩

theorem witness_immediateOperations_2_2 :
      (Ready demo 0 0) ∧
      (noPend (demo.tile 0) [(9 : Reg)]) :=
    ⟨⟨by decide +kernel, by decide +kernel, by decide +kernel, by decide +kernel, by decide +kernel, by decide +kernel, by decide +kernel⟩, by decide +kernel⟩

theorem witness_loads :
      ((Instr.ldD, 8, fun (v : Nat) => BitVec.ofNat 64 v) ∈ loadTable) ∧
      (Ready demo 0 0) ∧
      (noPend (demo.tile 0) [(9 : Reg), (1 : Reg)]) ∧
      (allowed (demo.tile 0).pad.h[BitVec.toNat (12 : BitVec 6)] (offsetOf (demo.tile 0) (1 : Reg) (0 : BitVec 8) 8) 8 false) :=
    ⟨by simp [loadTable], ⟨by decide +kernel, by decide +kernel, by decide +kernel, by decide +kernel, by decide +kernel, by decide +kernel, by decide +kernel⟩, by decide +kernel, by decide +kernel⟩

theorem witness_localAddress :
      (Ready demo 0 0) ∧
      (noPend (demo.tile 0) [(9 : Reg), (1 : Reg)]) ∧
      (hValid (demo.tile 0).pad.h[BitVec.toNat (12 : BitVec 6)] = true) ∧
      (offsetOf (demo.tile 0) (1 : Reg) (3 : BitVec 8) 1 + 1 ≤ hLen (demo.tile 0).pad.h[BitVec.toNat (12 : BitVec 6)]) :=
    ⟨⟨by decide +kernel, by decide +kernel, by decide +kernel, by decide +kernel, by decide +kernel, by decide +kernel, by decide +kernel⟩, by decide +kernel, by decide +kernel, by decide +kernel⟩

theorem witness_stores :
      ((Instr.stF, 8, true) ∈ storeTable) ∧
      (Ready demo 0 0) ∧
      (noPend (demo.tile 0) [(2 : Reg), (1 : Reg)]) ∧
      (allowed (demo.tile 0).pad.h[BitVec.toNat (12 : BitVec 6)] (offsetOf (demo.tile 0) (1 : Reg) (2 : BitVec 8) 8) 8 true) :=
    ⟨by simp [storeTable], ⟨by decide +kernel, by decide +kernel, by decide +kernel, by decide +kernel, by decide +kernel, by decide +kernel, by decide +kernel⟩, by decide +kernel, by decide +kernel⟩

theorem witness_fullEmpty_1 :
      (Ready fulls 0 0) ∧
      (noPend (fulls.tile 0) [(9 : Reg), (1 : Reg)]) ∧
      (allowed (fulls.tile 0).pad.h[BitVec.toNat (12 : BitVec 6)] (offsetOf (fulls.tile 0) (1 : Reg) (0 : BitVec 8) 8) 8 false) :=
    ⟨⟨by decide +kernel, by decide +kernel, by decide +kernel, by decide +kernel, by decide +kernel, by decide +kernel, by decide +kernel⟩, by decide +kernel, by decide +kernel⟩

theorem witness_fullEmpty_2_1 :
      (Ready demo 0 0) ∧
      (noPend (demo.tile 0) [(2 : Reg), (1 : Reg)]) ∧
      (allowed (demo.tile 0).pad.h[BitVec.toNat (12 : BitVec 6)] (offsetOf (demo.tile 0) (1 : Reg) (0 : BitVec 8) 8) 8 true) :=
    ⟨⟨by decide +kernel, by decide +kernel, by decide +kernel, by decide +kernel, by decide +kernel, by decide +kernel, by decide +kernel⟩, by decide +kernel, by decide +kernel⟩

theorem witness_fullEmpty_2_2_1 :
      (waitFull.runs 0 = some 0) ∧
      ((waitFull.tile 0).core.wait = some { on := WaitOn.fullempty (Instr.halt (0 : LTile) (0 : Reg) (0 : Reg) (0 : BitVec 14)) true (9 : Reg) (12 : BitVec 6) (40 : Word), limit := (100 : Word) : Waiting }) ∧
      ((waitFull.tile 0).pad.ecc = []) ∧
      ((waitFull.tile 0).pad.corrWords = []) ∧
      (canonical (waitFull.tile 0) = true) ∧
      (limitAllows (100 : Word) 5 = true) ∧
      (allowed (waitFull.tile 0).pad.h[BitVec.toNat (12 : BitVec 6)] (BitVec.toNat (40 : Word)) 8 !true) ∧
      (fullAt (waitFull.tile 0) (waitFull.tile 0).pad.h[BitVec.toNat (12 : BitVec 6)] (BitVec.toNat (40 : Word)) = true) :=
    ⟨by decide +kernel, by decide +kernel, by decide +kernel, by decide +kernel, by decide +kernel, by decide +kernel, by decide +kernel, by decide +kernel⟩

theorem witness_fullEmpty_2_2_2 :
      (waitShut.runs 0 = some 0) ∧
      ((waitShut.tile 0).core.wait = some { on := WaitOn.fullempty (Instr.halt (0 : LTile) (0 : Reg) (0 : Reg) (0 : BitVec 14)) false (2 : Reg) (14 : BitVec 6) (40 : Word), limit := (100 : Word) : Waiting }) ∧
      ((waitShut.tile 0).pad.corrWords = []) ∧
      (limitAllows (100 : Word) 5 = true) ∧
      (hValid (waitShut.tile 0).pad.h[BitVec.toNat (14 : BitVec 6)] = false) :=
    ⟨by decide +kernel, by decide +kernel, by decide +kernel, by decide +kernel, by decide +kernel⟩

theorem witness_accessChecks_1 :
      (Ready demo 0 0) ∧
      (noPend (demo.tile 0) [(9 : Reg), (1 : Reg)]) ∧
      (handles (demo.tile 0)) ∧
      ((∃ (f : Nat → Word), (Instr.ldFe, 8, f) ∈ loadTable) ∧ false = false ∨ (∃ (f : Bool), (Instr.ldFe, 8, f) ∈ storeTable) ∧ false = true ∨ Instr.ldFe = Instr.ldFe ∧ 8 = 8 ∧ false = false ∨ Instr.ldFe = Instr.stEf ∧ 8 = 8 ∧ false = true) ∧
      (hValid (demo.tile 0).pad.h[BitVec.toNat (14 : BitVec 6)] = false ∨ (if false = true then hW (demo.tile 0).pad.h[BitVec.toNat (14 : BitVec 6)] else hR (demo.tile 0).pad.h[BitVec.toNat (14 : BitVec 6)]) = false) :=
    ⟨⟨by decide +kernel, by decide +kernel, by decide +kernel, by decide +kernel, by decide +kernel, by decide +kernel, by decide +kernel⟩, by decide +kernel, by decide +kernel, .inr (.inr (.inl ⟨rfl, rfl, rfl⟩)), by decide +kernel⟩

theorem witness_accessChecks_2_1 :
      (Ready demo 0 0) ∧
      (noPend (demo.tile 0) [(9 : Reg), (1 : Reg)]) ∧
      (handles (demo.tile 0)) ∧
      ((∃ (f : Nat → Word), (Instr.stEf, 8, f) ∈ loadTable) ∧ true = false ∨ (∃ (f : Bool), (Instr.stEf, 8, f) ∈ storeTable) ∧ true = true ∨ Instr.stEf = Instr.ldFe ∧ 8 = 8 ∧ true = false ∨ Instr.stEf = Instr.stEf ∧ 8 = 8 ∧ true = true) ∧
      (hValid (demo.tile 0).pad.h[BitVec.toNat (13 : BitVec 6)] = true) ∧
      ((if true = true then hW (demo.tile 0).pad.h[BitVec.toNat (13 : BitVec 6)] else hR (demo.tile 0).pad.h[BitVec.toNat (13 : BitVec 6)]) = true) ∧
      (hLen (demo.tile 0).pad.h[BitVec.toNat (13 : BitVec 6)] < offsetOf (demo.tile 0) (1 : Reg) (200 : BitVec 8) 8 + 8) :=
    ⟨⟨by decide +kernel, by decide +kernel, by decide +kernel, by decide +kernel, by decide +kernel, by decide +kernel, by decide +kernel⟩, by decide +kernel, by decide +kernel, .inr (.inr (.inr ⟨rfl, rfl, rfl⟩)), by decide +kernel, by decide +kernel, by decide +kernel⟩

theorem witness_accessChecks_2_2 :
      (Ready demo 0 0) ∧
      (noPend (demo.tile 0) [(9 : Reg), (3 : Reg)]) ∧
      (handles (demo.tile 0)) ∧
      ((∃ (f : Nat → Word), (Instr.ldFe, 8, f) ∈ loadTable) ∧ false = false ∨ (∃ (f : Bool), (Instr.ldFe, 8, f) ∈ storeTable) ∧ false = true ∨ Instr.ldFe = Instr.ldFe ∧ 8 = 8 ∧ false = false ∨ Instr.ldFe = Instr.stEf ∧ 8 = 8 ∧ false = true) ∧
      (hValid (demo.tile 0).pad.h[BitVec.toNat (12 : BitVec 6)] = true) ∧
      ((if false = true then hW (demo.tile 0).pad.h[BitVec.toNat (12 : BitVec 6)] else hR (demo.tile 0).pad.h[BitVec.toNat (12 : BitVec 6)]) = true) ∧
      (offsetOf (demo.tile 0) (3 : Reg) (1 : BitVec 8) 8 + 8 ≤ hLen (demo.tile 0).pad.h[BitVec.toNat (12 : BitVec 6)]) ∧
      (offsetOf (demo.tile 0) (3 : Reg) (1 : BitVec 8) 8 % 8 ≠ 0) :=
    ⟨⟨by decide +kernel, by decide +kernel, by decide +kernel, by decide +kernel, by decide +kernel, by decide +kernel, by decide +kernel⟩, by decide +kernel, by decide +kernel, .inr (.inr (.inl ⟨rfl, rfl, rfl⟩)), by decide +kernel, by decide +kernel, by decide +kernel, by decide +kernel⟩

theorem witness_branches_1 :
      ((Instr.beq, fun (a b : Word) => a = b) ∈ branchTable) ∧
      (Ready demo 0 0) ∧
      (noPend (demo.tile 0) [(5 : Reg), (6 : Reg)]) ∧
      ((demo.tile 0).core.pc.toNat % 4 = 0) ∧
      ((Instr.beq, fun (a b : Word) => a = b).snd ((demo.tile 0).core.rd (5 : Reg)) ((demo.tile 0).core.rd (6 : Reg))) ∧
      ((demo.tile 0).fetchable (BitVec.ofInt 20 (↑(demo.tile 0).core.pc.toNat + (4 : Int) * BitVec.toInt (4 : BitVec 14))) = true) :=
    ⟨by simp [branchTable], ⟨by decide +kernel, by decide +kernel, by decide +kernel, by decide +kernel, by decide +kernel, by decide +kernel, by decide +kernel⟩, by decide +kernel, by decide +kernel, by decide +kernel, by decide +kernel⟩

theorem witness_branches_2 :
      ((Instr.beq, fun (a b : Word) => a = b) ∈ branchTable) ∧
      (Ready demo 0 0) ∧
      (noPend (demo.tile 0) [(1 : Reg), (2 : Reg)]) ∧
      ((demo.tile 0).core.pc.toNat % 4 = 0) ∧
      (¬(Instr.beq, fun (a b : Word) => a = b).snd ((demo.tile 0).core.rd (1 : Reg)) ((demo.tile 0).core.rd (2 : Reg))) :=
    ⟨by simp [branchTable], ⟨by decide +kernel, by decide +kernel, by decide +kernel, by decide +kernel, by decide +kernel, by decide +kernel, by decide +kernel⟩, by decide +kernel, by decide +kernel, by decide +kernel⟩

theorem witness_jumps_1 :
      (Ready demo 0 0) ∧
      (noPend (demo.tile 0) [(9 : Reg)]) ∧
      ((demo.tile 0).core.pc.toNat % 4 = 0) ∧
      ((demo.tile 0).fetchable (BitVec.ofInt 20 (↑(demo.tile 0).core.pc.toNat + (4 : Int) * BitVec.toInt (4 : BitVec 19))) = true) :=
    ⟨⟨by decide +kernel, by decide +kernel, by decide +kernel, by decide +kernel, by decide +kernel, by decide +kernel, by decide +kernel⟩, by decide +kernel, by decide +kernel, by decide +kernel⟩

theorem witness_jumps_2 :
      (Ready demo 0 0) ∧
      (noPend (demo.tile 0) [(1 : Reg), (1 : Reg)]) ∧
      ((BitVec.ofInt 20 (↑(BitVec.toNat ((demo.tile 0).core.rd (1 : Reg))) + (4 : Int) * BitVec.toInt (16382 : BitVec 14))).toNat % 4 = 0) ∧
      ((demo.tile 0).fetchable (BitVec.ofInt 20 (↑(BitVec.toNat ((demo.tile 0).core.rd (1 : Reg))) + (4 : Int) * BitVec.toInt (16382 : BitVec 14))) = true) :=
    ⟨⟨by decide +kernel, by decide +kernel, by decide +kernel, by decide +kernel, by decide +kernel, by decide +kernel, by decide +kernel⟩, by decide +kernel, by decide +kernel, by decide +kernel⟩

theorem witness_fetchChecked :
      ((Instr.and, fun (a b : Word) => a &&& b) ∈ regTable) ∧
      (offCode.runs 0 = some 0) ∧
      ((offCode.tile 0).core.run = RunState.running) ∧
      ((offCode.tile 0).core.wait = none) ∧
      ((offCode.tile 0).pad.corrWords = []) ∧
      ((offCode.tile 0).fetchable (offCode.tile 0).core.pc = false) ∧
      (handles (offCode.tile 0)) :=
    ⟨by simp [regTable], by decide +kernel, by decide +kernel, by decide +kernel, by decide +kernel, by decide +kernel, by decide +kernel⟩

theorem witness_reservedFields_1 :
      (Ready demo 0 0) ∧
      (handles (demo.tile 0)) ∧
      ((7 : Reg) ≠ (0 : Reg)) :=
    ⟨⟨by decide +kernel, by decide +kernel, by decide +kernel, by decide +kernel, by decide +kernel, by decide +kernel, by decide +kernel⟩, by decide +kernel, by decide +kernel⟩

theorem witness_reservedFields_2_1 :
      (Ready demo 0 0) ∧
      (handles (demo.tile 0)) ∧
      (64 ≤ BitVec.toNat (64 : BitVec 14)) :=
    ⟨⟨by decide +kernel, by decide +kernel, by decide +kernel, by decide +kernel, by decide +kernel, by decide +kernel, by decide +kernel⟩, by decide +kernel, by decide +kernel⟩

theorem witness_reservedFields_2_2_1 :
      (Ready demo 0 0) ∧
      (handles (demo.tile 0)) ∧
      ((0 : Reg) ≠ (0 : Reg) ∨ (0 : Reg) ≠ (0 : Reg) ∨ (77 : BitVec 14) ≠ (0 : BitVec 14)) :=
    ⟨⟨by decide +kernel, by decide +kernel, by decide +kernel, by decide +kernel, by decide +kernel, by decide +kernel, by decide +kernel⟩, by decide +kernel, by decide +kernel⟩

theorem witness_reservedFields_2_2_2 :
      (Ready demo 0 0) ∧
      (handles (demo.tile 0)) ∧
      (csrKnown (BitVec.toNat (187 : BitVec 14)) = false) :=
    ⟨⟨by decide +kernel, by decide +kernel, by decide +kernel, by decide +kernel, by decide +kernel, by decide +kernel, by decide +kernel⟩, by decide +kernel, by decide +kernel⟩

theorem witness_bellEntry_1 :
      (Ready demo 0 0) ∧
      (noPend (demo.tile 0) [(9 : Reg), (2 : Reg)]) ∧
      ((demo.tile 0).bl.bells[BitVec.toNat (4 : BitVec 6)].exists_ = true) ∧
      ((demo.tile 0).bl.bells[BitVec.toNat (4 : BitVec 6)].member = true) ∧
      ((demo.tile 0).bl.bells[BitVec.toNat (4 : BitVec 6)].late = false) ∧
      ((demo.tile 0).bl.bells[BitVec.toNat (4 : BitVec 6)].out < 2) ∧
      ((demo.tile 0).bl.resume = none) ∧
      ((demo.tile 0).sr.ovfpend = false) ∧
      ((demo.tile 0).sr.fatal = false) :=
    ⟨⟨by decide +kernel, by decide +kernel, by decide +kernel, by decide +kernel, by decide +kernel, by decide +kernel, by decide +kernel⟩, by decide +kernel, by decide +kernel, by decide +kernel, by decide +kernel, by decide +kernel, by decide +kernel, by decide +kernel, by decide +kernel⟩

theorem witness_bellEntry_2 :
      (Ready demo 0 0) ∧
      (noPend (demo.tile 0) [(9 : Reg), (2 : Reg)]) ∧
      ((demo.tile 0).bl.bells[BitVec.toNat (3 : BitVec 6)].exists_ = true) ∧
      ((demo.tile 0).bl.bells[BitVec.toNat (3 : BitVec 6)].member = true) ∧
      ((demo.tile 0).bl.bells[BitVec.toNat (3 : BitVec 6)].late = false) ∧
      ((demo.tile 0).bl.bells[BitVec.toNat (3 : BitVec 6)].out < 2) ∧
      ((demo.tile 0).bl.resume = none) ∧
      ((demo.tile 0).sr.ovfpend = false) ∧
      ((demo.tile 0).sr.fatal = false) ∧
      ((demo.tile 0).bl.bells[BitVec.toNat (3 : BitVec 6)].recess = false) :=
    ⟨⟨by decide +kernel, by decide +kernel, by decide +kernel, by decide +kernel, by decide +kernel, by decide +kernel, by decide +kernel⟩, by decide +kernel, by decide +kernel, by decide +kernel, by decide +kernel, by decide +kernel, by decide +kernel, by decide +kernel, by decide +kernel, by decide +kernel⟩

theorem witness_bellWaits_1 :
      (Ready demo 0 0) ∧
      (noPend (demo.tile 0) [(9 : Reg)]) ∧
      ((demo.tile 0).bl.bells[BitVec.toNat (4 : BitVec 6)].exists_ = true) ∧
      ((demo.tile 0).bl.bells[BitVec.toNat (4 : BitVec 6)].member = true) ∧
      ((demo.tile 0).bl.bells[BitVec.toNat (4 : BitVec 6)].recess = false) ∧
      ((demo.tile 0).bl.bells[BitVec.toNat (4 : BitVec 6)].late = false) ∧
      ((demo.tile 0).bl.resume = none) :=
    ⟨⟨by decide +kernel, by decide +kernel, by decide +kernel, by decide +kernel, by decide +kernel, by decide +kernel, by decide +kernel⟩, by decide +kernel, by decide +kernel, by decide +kernel, by decide +kernel, by decide +kernel, by decide +kernel⟩

theorem witness_bellWaits_2 :
      (waitBell.runs 0 = some 0) ∧
      ((waitBell.tile 0).core.wait = some { on := WaitOn.bell (9 : Reg) (4 : BitVec 6) (4 : BitVec 32), limit := (100 : Word) : Waiting }) ∧
      ((waitBell.tile 0).pad.corrWords = []) ∧
      (limitAllows (100 : Word) 5 = true) ∧
      ((waitBell.tile 0).bl.bells[BitVec.toNat (4 : BitVec 6)].out < serialDist (waitBell.tile 0).bl.bells[BitVec.toNat (4 : BitVec 6)].next (4 : BitVec 32)) ∧
      (serialDist (waitBell.tile 0).bl.bells[BitVec.toNat (4 : BitVec 6)].next (4 : BitVec 32) < 2 ^ 31) :=
    ⟨by decide +kernel, by decide +kernel, by decide +kernel, by decide +kernel, by decide +kernel, by decide +kernel⟩

theorem witness_bellOverrun :
      (Ready demo 0 0) ∧
      (noPend (demo.tile 0) [(9 : Reg), (2 : Reg)]) ∧
      (handles (demo.tile 0)) ∧
      ((demo.tile 0).bl.bells[BitVec.toNat (5 : BitVec 6)].exists_ = true) ∧
      ((demo.tile 0).bl.bells[BitVec.toNat (5 : BitVec 6)].member = true) ∧
      ((demo.tile 0).bl.bells[BitVec.toNat (5 : BitVec 6)].late = false) ∧
      ((demo.tile 0).bl.bells[BitVec.toNat (5 : BitVec 6)].out = 2) ∧
      ((demo.tile 0).bl.resume = none) ∧
      (Instr.enter (0 : LTile) (9 : Reg) (2 : Reg) (5 : BitVec 6) (0 : BitVec 6) ∈ [Instr.enter (0 : LTile) (9 : Reg) (2 : Reg) (5 : BitVec 6) (0 : BitVec 6), Instr.arrive (0 : LTile) (9 : Reg) (2 : Reg) (5 : BitVec 6) (0 : BitVec 6)]) :=
    ⟨⟨by decide +kernel, by decide +kernel, by decide +kernel, by decide +kernel, by decide +kernel, by decide +kernel, by decide +kernel⟩, by decide +kernel, by decide +kernel, by decide +kernel, by decide +kernel, by decide +kernel, by decide +kernel, by decide +kernel, by decide +kernel⟩

theorem witness_synchronisation_1 :
      (Ready demo 0 0) ∧
      (noPend (demo.tile 0) [(9 : Reg), (4 : Reg)]) :=
    ⟨⟨by decide +kernel, by decide +kernel, by decide +kernel, by decide +kernel, by decide +kernel, by decide +kernel, by decide +kernel⟩, by decide +kernel⟩

theorem witness_synchronisation_2_1 :
      (Ready demo 0 0) :=
    ⟨by decide +kernel, by decide +kernel, by decide +kernel, by decide +kernel, by decide +kernel, by decide +kernel, by decide +kernel⟩

theorem witness_synchronisation_2_2_1 :
      (Ready demo 0 0) ∧
      ((demo.tile 0).core.tokens[BitVec.toNat (3 : BitVec 3)] ≠ (15 : BitVec 4)) :=
    ⟨⟨by decide +kernel, by decide +kernel, by decide +kernel, by decide +kernel, by decide +kernel, by decide +kernel, by decide +kernel⟩, by decide +kernel⟩

theorem witness_synchronisation_2_2_2_1 :
      (Ready demo 0 0) ∧
      (BitVec.getLsbD (7 : BitVec 3) 0 = true → (demo.tile 0).mxq.issued ≤ (demo.tile 0).mxq.completed) ∧
      (BitVec.getLsbD (7 : BitVec 3) 1 = true → (demo.tile 0).vxq.issued ≤ (demo.tile 0).vxq.completed) ∧
      (BitVec.getLsbD (7 : BitVec 3) 2 = true → (demo.tile 0).xcq.issued ≤ (demo.tile 0).xcq.completed) :=
    ⟨⟨by decide +kernel, by decide +kernel, by decide +kernel, by decide +kernel, by decide +kernel, by decide +kernel, by decide +kernel⟩, by decide +kernel, by decide +kernel, by decide +kernel⟩

theorem witness_synchronisation_2_2_2_2 :
      (Ready behind 0 0) ∧
      (¬((BitVec.getLsbD (7 : BitVec 3) 0 = true → (behind.tile 0).mxq.issued ≤ (behind.tile 0).mxq.completed) ∧ (BitVec.getLsbD (7 : BitVec 3) 1 = true → (behind.tile 0).vxq.issued ≤ (behind.tile 0).vxq.completed) ∧ (BitVec.getLsbD (7 : BitVec 3) 2 = true → (behind.tile 0).xcq.issued ≤ (behind.tile 0).xcq.completed))) :=
    ⟨⟨by decide +kernel, by decide +kernel, by decide +kernel, by decide +kernel, by decide +kernel, by decide +kernel, by decide +kernel⟩, by decide +kernel⟩

theorem witness_waitsEnd_1 :
      (waitCtr.runs 0 = some 0) ∧
      ((waitCtr.tile 0).pad.corrWords = []) ∧
      (0 < 5) ∧
      ((4 : Word) = (0 : Word) ∨ 5 ≤ BitVec.toNat (4 : Word) + 1) ∧
      ((waitCtr.tile 0).core.wait = some { on := WaitOn.waitc (9 : Reg) (2 : BitVec 4) (8 : Word), limit := (4 : Word) : Waiting }) ∧
      (BitVec.toNat (8 : Word) ≤ BitVec.toNat (waitCtr.tile 0).pad.ctr[BitVec.toNat (2 : BitVec 4)]) :=
    ⟨by decide +kernel, by decide +kernel, by decide +kernel, by decide +kernel, by decide +kernel, by decide +kernel⟩

theorem witness_waitsEnd_2_1 :
      (waitTok.runs 0 = some 0) ∧
      ((waitTok.tile 0).pad.corrWords = []) ∧
      (0 < 5) ∧
      ((0 : Word) = (0 : Word) ∨ 5 ≤ BitVec.toNat (0 : Word) + 1) ∧
      ((waitTok.tile 0).core.wait = some { on := WaitOn.twait (3 : BitVec 3), limit := (0 : Word) : Waiting }) ∧
      ((waitTok.tile 0).contenders (3 : BitVec 3) 3 < (waitTok.tile 0).core.tokens[BitVec.toNat (3 : BitVec 3)].toNat) :=
    ⟨by decide +kernel, by decide +kernel, by decide +kernel, by decide +kernel, by decide +kernel, by decide +kernel⟩

theorem witness_waitsEnd_2_2 :
      (waitFence.runs 0 = some 0) ∧
      ((waitFence.tile 0).pad.corrWords = []) ∧
      (0 < 5) ∧
      ((0 : Word) = (0 : Word) ∨ 5 ≤ BitVec.toNat (0 : Word) + 1) ∧
      ((waitFence.tile 0).core.wait = some { on := WaitOn.fence none (some 0) none, limit := (0 : Word) : Waiting }) ∧
      (∀ (k : Nat), none = some k → k ≤ (waitFence.tile 0).mxq.completed) ∧
      (∀ (k : Nat), some 0 = some k → k ≤ (waitFence.tile 0).vxq.completed) ∧
      (∀ (k : Nat), none = some k → k ≤ (waitFence.tile 0).xcq.completed) :=
    ⟨by decide +kernel, by decide +kernel, by decide +kernel, by decide +kernel, by decide +kernel, someLe (by decide +kernel), someLe (by decide +kernel), someLe (by decide +kernel)⟩

theorem witness_halts_1 :
      (Ready demo 0 0) ∧
      (∀ (q : EngQ), q ∈ [(demo.tile 0).mxq, (demo.tile 0).vxq, (demo.tile 0).xcq] → q.waiting = [] ∧ q.started = []) ∧
      (∃ (k : Nat), k ∈ (demo.part 0).tiles ∧ (demo.seat k).site ≠ (demo.seat 0).site ∧ (demo.tile k).core.run ≠ RunState.halted) :=
    ⟨⟨by decide +kernel, by decide +kernel, by decide +kernel, by decide +kernel, by decide +kernel, by decide +kernel, by decide +kernel⟩, by decide +kernel, by decide +kernel⟩

theorem witness_halts_2_1 :
      (Ready busy 0 0) ∧
      (¬∀ (q : EngQ), q ∈ [(busy.tile 0).mxq, (busy.tile 0).vxq, (busy.tile 0).xcq] → q.waiting = [] ∧ q.started = []) :=
    ⟨⟨by decide +kernel, by decide +kernel, by decide +kernel, by decide +kernel, by decide +kernel, by decide +kernel, by decide +kernel⟩, by decide +kernel⟩

theorem witness_halts_2_2 :
      (waitHalt.runs 0 = some 0) ∧
      ((waitHalt.tile 0).pad.corrWords = []) ∧
      ((waitHalt.tile 0).core.wait = some { on := WaitOn.halt, limit := (0 : Word) : Waiting }) ∧
      (limitAllows (0 : Word) 5 = true) ∧
      (∀ (q : EngQ), q ∈ [(waitHalt.tile 0).mxq, (waitHalt.tile 0).vxq, (waitHalt.tile 0).xcq] → q.waiting = [] ∧ q.started = []) ∧
      (∃ (k : Nat), k ∈ (waitHalt.part 0).tiles ∧ (waitHalt.seat k).site ≠ (waitHalt.seat 0).site ∧ (waitHalt.tile k).core.run ≠ RunState.halted) :=
    ⟨by decide +kernel, by decide +kernel, by decide +kernel, by decide +kernel, by decide +kernel, by decide +kernel⟩

theorem witness_handlers_1 :
      (Ready demo 0 0) ∧
      (handles (demo.tile 0)) :=
    ⟨⟨by decide +kernel, by decide +kernel, by decide +kernel, by decide +kernel, by decide +kernel, by decide +kernel, by decide +kernel⟩, by decide +kernel⟩

theorem witness_handlers_2_1 :
      (Ready handling 0 0) ∧
      ((handling.tile 0).core.hm = true) ∧
      ((handling.tile 0).core.epc.toNat % 4 = 0) ∧
      ((handling.tile 0).fetchable (handling.tile 0).core.epc = true) :=
    ⟨⟨by decide +kernel, by decide +kernel, by decide +kernel, by decide +kernel, by decide +kernel, by decide +kernel, by decide +kernel⟩, by decide +kernel, by decide +kernel, by decide +kernel⟩

theorem witness_handlers_2_2 :
      (Ready demo 0 0) ∧
      (handles (demo.tile 0)) :=
    ⟨⟨by decide +kernel, by decide +kernel, by decide +kernel, by decide +kernel, by decide +kernel, by decide +kernel, by decide +kernel⟩, by decide +kernel⟩

theorem witness_waitLimits_1 :
      (waitTwo.runs 0 = some 0) ∧
      ((waitTwo.tile 0).core.wait = some { on := WaitOn.twait (3 : BitVec 3), limit := (50 : Word) : Waiting }) ∧
      ((waitTwo.tile 0).pad.corrWords = []) ∧
      (∀ (gd : Reg) (id : BitVec 6) (e : BitVec 32), WaitOn.twait (3 : BitVec 3) ≠ WaitOn.bell gd id e) ∧
      ((waitTwo.tile 0).bl.resume = none) ∧
      ((50 : Word) ≠ (0 : Word)) ∧
      ((waitTwo.tile 0).waitMet (WaitOn.twait (3 : BitVec 3)) = false) ∧
      (handles (waitTwo.tile 0)) :=
    ⟨by decide +kernel, by decide +kernel, by decide +kernel, by simp, by decide +kernel, by decide +kernel, by decide +kernel, by decide +kernel⟩

theorem witness_waitLimits_2 :
      (waitOn.runs 0 = some 0) ∧
      ((waitOn.tile 0).core.wait = some { on := WaitOn.twait (3 : BitVec 3), limit := (0 : Word) : Waiting }) ∧
      ((waitOn.tile 0).pad.corrWords = []) ∧
      (∀ (gd : Reg) (id : BitVec 6) (e : BitVec 32), WaitOn.twait (3 : BitVec 3) ≠ WaitOn.bell gd id e) ∧
      ((waitOn.tile 0).bl.resume = none) ∧
      ((0 : Word) = (0 : Word) ∨ (waitOn.tile 0).waitMet (WaitOn.twait (3 : BitVec 3)) = true) :=
    ⟨by decide +kernel, by decide +kernel, by decide +kernel, by simp, by decide +kernel, by decide +kernel⟩

theorem witness_exceptionsHalt :
      (Ready noHandler 0 0) ∧
      (bit (noHandler.tile 0).core.evec 0 = false ∨ (noHandler.tile 0).core.hm = true) :=
    ⟨⟨by decide +kernel, by decide +kernel, by decide +kernel, by decide +kernel, by decide +kernel, by decide +kernel, by decide +kernel⟩, by decide +kernel⟩

theorem witness_registerReads_1 :
      ((1008, fun (x : State) (t : Tile) => t.xc.cbrx) ∈ csrTable) ∧
      (Ready demo 0 0) ∧
      (noPend (demo.tile 0) [(9 : Reg)]) :=
    ⟨by simp [csrTable], ⟨by decide +kernel, by decide +kernel, by decide +kernel, by decide +kernel, by decide +kernel, by decide +kernel, by decide +kernel⟩, by decide +kernel⟩

theorem witness_registerReads_2 :
      (csrKnown (BitVec.toNat (1471 : BitVec 14)) = true) ∧
      (Ready demo 0 0) ∧
      (noPend (demo.tile 0) [(9 : Reg)]) :=
    ⟨by decide +kernel, ⟨by decide +kernel, by decide +kernel, by decide +kernel, by decide +kernel, by decide +kernel, by decide +kernel, by decide +kernel⟩, by decide +kernel⟩

theorem witness_registerWrites_2_2_2_2_2_2_2_2_2_1 :
      (Ready demo 0 0) ∧
      (noPend (demo.tile 0) [(2 : Reg)]) ∧
      ((demo.tile 0).bl.firing = none) ∧
      ((demo.tile 0).xc.walkCur = none) :=
    ⟨⟨by decide +kernel, by decide +kernel, by decide +kernel, by decide +kernel, by decide +kernel, by decide +kernel, by decide +kernel⟩, by decide +kernel, by decide +kernel, by decide +kernel⟩

theorem witness_registerWrites_2_2_2_2_2_2_2_2_2_2 :
      (Ready demo 0 0) ∧
      (noPend (demo.tile 0) [(2 : Reg)]) ∧
      ((demo.tile 0).bl.firing = none) ∧
      ((demo.tile 0).xc.walkCur = none) ∧
      ((768 : BitVec 14) ∈ [BitVec.ofNat 14 0, (3 : BitVec 14), (5 : BitVec 14), (16 : BitVec 14), (17 : BitVec 14), (21 : BitVec 14), (288 : BitVec 14), (514 : BitVec 14), (516 : BitVec 14), (522 : BitVec 14), (768 : BitVec 14), (866 : BitVec 14), (1008 : BitVec 14), (1028 : BitVec 14), (1282 : BitVec 14), (1286 : BitVec 14), (1408 : BitVec 14)]) :=
    ⟨⟨by decide +kernel, by decide +kernel, by decide +kernel, by decide +kernel, by decide +kernel, by decide +kernel, by decide +kernel⟩, by decide +kernel, by decide +kernel, by decide +kernel, by decide +kernel⟩

theorem witness_handleWrites_2_2 :
      (Ready handleOut 0 0) ∧
      (noPend (handleOut.tile 0) [(2 : Reg)]) ∧
      (hOwn (handleOut.tile 0).pad.h[BitVec.toNat (20 : BitVec 6)] = false) ∧
      (¬(hValid ((handleOut.tile 0).core.rd (2 : Reg) &&& (140737488355103 : Word)) = true → hBase ((handleOut.tile 0).core.rd (2 : Reg) &&& (140737488355103 : Word)) + hLen ((handleOut.tile 0).core.rd (2 : Reg) &&& (140737488355103 : Word)) ≤ 2 ^ 20 ∧ (hSkew ((handleOut.tile 0).core.rd (2 : Reg) &&& (140737488355103 : Word)) ≠ 0 → hBase ((handleOut.tile 0).core.rd (2 : Reg) &&& (140737488355103 : Word)) % 1024 = 0 ∧ hLen ((handleOut.tile 0).core.rd (2 : Reg) &&& (140737488355103 : Word)) % 1024 = 0) ∧ ∀ (k : Fin 64), ↑k ≠ BitVec.toNat (20 : BitVec 6) → hValid (handleOut.tile 0).pad.h[k] = true → hSkew (handleOut.tile 0).pad.h[k] ≠ hSkew ((handleOut.tile 0).core.rd (2 : Reg) &&& (140737488355103 : Word)) → ∀ (a b : Nat), hBase ((handleOut.tile 0).core.rd (2 : Reg) &&& (140737488355103 : Word)) ≤ a → a < hBase ((handleOut.tile 0).core.rd (2 : Reg) &&& (140737488355103 : Word)) + hLen ((handleOut.tile 0).core.rd (2 : Reg) &&& (140737488355103 : Word)) → hBase (handleOut.tile 0).pad.h[k] ≤ b → b < hBase (handleOut.tile 0).pad.h[k] + hLen (handleOut.tile 0).pad.h[k] → a / 1024 ≠ b / 1024)) :=
    ⟨⟨by decide +kernel, by decide +kernel, by decide +kernel, by decide +kernel, by decide +kernel, by decide +kernel, by decide +kernel⟩, by decide +kernel, by decide +kernel, fun ok => absurd (ok (by decide +kernel)).1 (by decide +kernel)⟩

theorem witness_handleWrites_2_1 :
      (Ready handleClear 0 0) ∧
      (noPend (handleClear.tile 0) [(2 : Reg)]) ∧
      (hOwn (handleClear.tile 0).pad.h[BitVec.toNat (20 : BitVec 6)] = false) ∧
      (hValid ((handleClear.tile 0).core.rd (2 : Reg) &&& (140737488355103 : Word)) = true → hBase ((handleClear.tile 0).core.rd (2 : Reg) &&& (140737488355103 : Word)) + hLen ((handleClear.tile 0).core.rd (2 : Reg) &&& (140737488355103 : Word)) ≤ 2 ^ 20 ∧ (hSkew ((handleClear.tile 0).core.rd (2 : Reg) &&& (140737488355103 : Word)) ≠ 0 → hBase ((handleClear.tile 0).core.rd (2 : Reg) &&& (140737488355103 : Word)) % 1024 = 0 ∧ hLen ((handleClear.tile 0).core.rd (2 : Reg) &&& (140737488355103 : Word)) % 1024 = 0) ∧ ∀ (k : Fin 64), ↑k ≠ BitVec.toNat (20 : BitVec 6) → hValid (handleClear.tile 0).pad.h[k] = true → hSkew (handleClear.tile 0).pad.h[k] ≠ hSkew ((handleClear.tile 0).core.rd (2 : Reg) &&& (140737488355103 : Word)) → ∀ (a b : Nat), hBase ((handleClear.tile 0).core.rd (2 : Reg) &&& (140737488355103 : Word)) ≤ a → a < hBase ((handleClear.tile 0).core.rd (2 : Reg) &&& (140737488355103 : Word)) + hLen ((handleClear.tile 0).core.rd (2 : Reg) &&& (140737488355103 : Word)) → hBase (handleClear.tile 0).pad.h[k] ≤ b → b < hBase (handleClear.tile 0).pad.h[k] + hLen (handleClear.tile 0).pad.h[k] → a / 1024 ≠ b / 1024) :=
    ⟨⟨by decide +kernel, by decide +kernel, by decide +kernel, by decide +kernel, by decide +kernel, by decide +kernel, by decide +kernel⟩, by decide +kernel, by decide +kernel, fun hv => absurd hv (by decide +kernel)⟩

theorem witness_handleWrites_1 :
      (Ready owning 0 0) ∧
      (noPend (owning.tile 0) [(2 : Reg)]) ∧
      (hOwn (owning.tile 0).pad.h[BitVec.toNat (20 : BitVec 6)] = true) :=
    ⟨⟨by decide +kernel, by decide +kernel, by decide +kernel, by decide +kernel, by decide +kernel, by decide +kernel, by decide +kernel⟩, by decide +kernel, by decide +kernel⟩

theorem witness_counterWrites_1 :
      (Ready demo 0 0) ∧
      (noPend (demo.tile 0) [(1 : Reg)]) :=
    ⟨⟨by decide +kernel, by decide +kernel, by decide +kernel, by decide +kernel, by decide +kernel, by decide +kernel, by decide +kernel⟩, by decide +kernel⟩

theorem witness_counterWrites_2_1 :
      (Ready demo 0 0) ∧
      (noPend (demo.tile 0) [(3 : Reg)]) ∧
      (BitVec.toNat ((demo.tile 0).core.rd (3 : Reg)) ≤ BitVec.toNat (demo.tile 0).pad.ctr[BitVec.toNat (2 : BitVec 4)]) :=
    ⟨⟨by decide +kernel, by decide +kernel, by decide +kernel, by decide +kernel, by decide +kernel, by decide +kernel, by decide +kernel⟩, by decide +kernel, by decide +kernel⟩

theorem witness_counterWrites_2_2 :
      (Ready demo 0 0) ∧
      (noPend (demo.tile 0) [(1 : Reg)]) ∧
      (BitVec.toNat (demo.tile 0).pad.ctr[BitVec.toNat (2 : BitVec 4)] < BitVec.toNat ((demo.tile 0).core.rd (1 : Reg))) :=
    ⟨⟨by decide +kernel, by decide +kernel, by decide +kernel, by decide +kernel, by decide +kernel, by decide +kernel, by decide +kernel⟩, by decide +kernel, by decide +kernel⟩

theorem witness_recordAndSubscriptionWrites_1 :
      (Ready demo 0 0) ∧
      (noPend (demo.tile 0) [(2 : Reg)]) ∧
      ((3 : BitVec 3) = (0 : BitVec 3) → w0Ok ((demo.tile 0).core.rd (2 : Reg)) = true) :=
    ⟨⟨by decide +kernel, by decide +kernel, by decide +kernel, by decide +kernel, by decide +kernel, by decide +kernel, by decide +kernel⟩, by decide +kernel, by decide +kernel⟩

theorem witness_recordAndSubscriptionWrites_2_1 :
      (Ready badRecord 0 0) ∧
      (noPend (badRecord.tile 0) [(2 : Reg)]) ∧
      (w0Ok ((badRecord.tile 0).core.rd (2 : Reg)) = false) :=
    ⟨⟨by decide +kernel, by decide +kernel, by decide +kernel, by decide +kernel, by decide +kernel, by decide +kernel, by decide +kernel⟩, by decide +kernel, by decide +kernel⟩

theorem witness_recordAndSubscriptionWrites_2_2 :
      (Ready demo 0 0) ∧
      (noPend (demo.tile 0) [(2 : Reg)]) :=
    ⟨⟨by decide +kernel, by decide +kernel, by decide +kernel, by decide +kernel, by decide +kernel, by decide +kernel, by decide +kernel⟩, by decide +kernel⟩

theorem witness_walkerControl_1 :
      (Ready walkerReady 0 0) ∧
      (noPend (walkerReady.tile 0) [(2 : Reg)]) ∧
      ((walkerReady.tile 0).xc.walkCur = none) ∧
      (BitVec.getLsbD ((walkerReady.tile 0).core.rd (2 : Reg)) 0 = true) ∧
      ((walkerReady.tile 0).bl.run = false) ∧
      ((walkerReady.tile 0).bl.firing = none) ∧
      (∃ (r : Phase), (walkerReady.tile 0).phaseOk (walkerReady.tile 0).bl.pos.toNat = some r) :=
    ⟨⟨by decide +kernel, by decide +kernel, by decide +kernel, by decide +kernel, by decide +kernel, by decide +kernel, by decide +kernel⟩, by decide +kernel, by decide +kernel, by decide +kernel, by decide +kernel, by decide +kernel, Option.isSome_iff_exists.mp (by decide +kernel)⟩

theorem witness_walkerControl_2_1 :
      (Ready walkerNone 0 0) ∧
      (noPend (walkerNone.tile 0) [(2 : Reg)]) ∧
      ((walkerNone.tile 0).xc.walkCur = none) ∧
      (BitVec.getLsbD ((walkerNone.tile 0).core.rd (2 : Reg)) 0 = true) ∧
      ((walkerNone.tile 0).bl.run = false) ∧
      ((walkerNone.tile 0).bl.firing = none) ∧
      ((walkerNone.tile 0).phaseOk (walkerNone.tile 0).bl.pos.toNat = none) :=
    ⟨⟨by decide +kernel, by decide +kernel, by decide +kernel, by decide +kernel, by decide +kernel, by decide +kernel, by decide +kernel⟩, by decide +kernel, by decide +kernel, by decide +kernel, by decide +kernel, by decide +kernel, by decide +kernel⟩

theorem witness_walkerControl_2_2_1 :
      (Ready walkerRuns 0 0) ∧
      (noPend (walkerRuns.tile 0) [(2 : Reg)]) ∧
      ((walkerRuns.tile 0).xc.walkCur = none) ∧
      (BitVec.getLsbD ((walkerRuns.tile 0).core.rd (2 : Reg)) 0 = false) ∧
      ((walkerRuns.tile 0).bl.run = true) ∧
      ((walkerRuns.tile 0).bl.firing = none) :=
    ⟨⟨by decide +kernel, by decide +kernel, by decide +kernel, by decide +kernel, by decide +kernel, by decide +kernel, by decide +kernel⟩, by decide +kernel, by decide +kernel, by decide +kernel, by decide +kernel, by decide +kernel⟩

theorem witness_walkerControl_2_2_2 :
      (Ready walkerFires 0 0) ∧
      (noPend (walkerFires.tile 0) [(2 : Reg)]) ∧
      ((walkerFires.tile 0).xc.walkCur = none) ∧
      (BitVec.getLsbD ((walkerFires.tile 0).core.rd (2 : Reg)) 0 = false) ∧
      ((walkerFires.tile 0).bl.run = true) ∧
      ((walkerFires.tile 0).bl.firing = some (2, 2)) ∧
      (2 ≤ 2) :=
    ⟨⟨by decide +kernel, by decide +kernel, by decide +kernel, by decide +kernel, by decide +kernel, by decide +kernel, by decide +kernel⟩, by decide +kernel, by decide +kernel, by decide +kernel, by decide +kernel, by decide +kernel, by decide +kernel⟩

theorem witness_engineIssue_1 :
      (((132 : BitVec 8), Eng.mx, (false, false, true), false) ∈ engineTable) ∧
      (Ready demo 0 0) ∧
      (noPend (demo.tile 0) [(9 : Reg), (1 : Reg), (0 : Reg)]) ∧
      (false = true → (9 : Reg) = (0 : Reg)) ∧
      (false = true → (1 : Reg) = (0 : Reg)) ∧
      (true = true → (0 : Reg) = (0 : Reg)) ∧
      ((queueOf (demo.tile 0) Eng.mx).waiting.length < 16) :=
    ⟨by simp [engineTable], ⟨by decide +kernel, by decide +kernel, by decide +kernel, by decide +kernel, by decide +kernel, by decide +kernel, by decide +kernel⟩, by decide +kernel, by decide +kernel, by decide +kernel, by decide +kernel, by decide +kernel⟩

theorem witness_engineIssue_2 :
      (((132 : BitVec 8), Eng.mx, (false, false, true), false) ∈ engineTable) ∧
      (Ready crowded 0 0) ∧
      (noPend (crowded.tile 0) [(9 : Reg), (1 : Reg), (0 : Reg)]) ∧
      (false = true → (9 : Reg) = (0 : Reg)) ∧
      (false = true → (1 : Reg) = (0 : Reg)) ∧
      (true = true → (0 : Reg) = (0 : Reg)) ∧
      (16 ≤ (queueOf (crowded.tile 0) Eng.mx).waiting.length) :=
    ⟨by simp [engineTable], ⟨by decide +kernel, by decide +kernel, by decide +kernel, by decide +kernel, by decide +kernel, by decide +kernel, by decide +kernel⟩, by decide +kernel, by decide +kernel, by decide +kernel, by decide +kernel, by decide +kernel⟩

theorem witness_heldIssue_1 :
      (((132 : BitVec 8), Eng.mx, (false, false, true), false) ∈ engineTable) ∧
      (waitQueue.runs 0 = some 0) ∧
      ((waitQueue.tile 0).core.run = RunState.running) ∧
      ((waitQueue.tile 0).core.wait = some { on := WaitOn.queue (Instr.engineIssue (0 : LTile) (132 : BitVec 8) (9 : Reg) (1 : Reg) (0 : Reg) true (3 : BitVec 3) false (4 : BitVec 3) false), limit := (6 : Word) : Waiting }) ∧
      ((waitQueue.tile 0).fetchable (waitQueue.tile 0).core.pc = true) ∧
      ((waitQueue.tile 0).pad.ecc = []) ∧
      ((waitQueue.tile 0).pad.corrWords = []) ∧
      (noPend (waitQueue.tile 0) [(9 : Reg), (1 : Reg), (0 : Reg)]) ∧
      (limitAllows (6 : Word) 3 = true) ∧
      (false = true → (9 : Reg) = (0 : Reg)) ∧
      (false = true → (1 : Reg) = (0 : Reg)) ∧
      (true = true → (0 : Reg) = (0 : Reg)) ∧
      ((queueOf (waitQueue.tile 0) Eng.mx).waiting.length < 16) :=
    ⟨by simp [engineTable], by decide +kernel, by decide +kernel, by decide +kernel, by decide +kernel, by decide +kernel, by decide +kernel, by decide +kernel, by decide +kernel, by decide +kernel, by decide +kernel, by decide +kernel, by decide +kernel⟩

theorem witness_heldIssue_2 :
      (waitResult.runs 0 = some 0) ∧
      ((waitResult.tile 0).core.run = RunState.running) ∧
      ((waitResult.tile 0).core.wait = some { on := WaitOn.result (Instr.add (0 : LTile) (9 : Reg) (1 : Reg) (2 : Reg)), limit := (6 : Word) : Waiting }) ∧
      ((waitResult.tile 0).fetchable (waitResult.tile 0).core.pc = true) ∧
      ((waitResult.tile 0).pad.ecc = []) ∧
      ((waitResult.tile 0).pad.corrWords = []) ∧
      (noPend (waitResult.tile 0) [(9 : Reg), (1 : Reg), (2 : Reg)]) ∧
      (limitAllows (6 : Word) 2 = true) :=
    ⟨by decide +kernel, by decide +kernel, by decide +kernel, by decide +kernel, by decide +kernel, by decide +kernel, by decide +kernel, by decide +kernel⟩

theorem witness_pendingRegisters :
      ((Instr.and, fun (a b : Word) => a &&& b) ∈ regTable) ∧
      (Ready pendTwo 0 0) ∧
      (¬noPend (pendTwo.tile 0) [(9 : Reg), (1 : Reg), (2 : Reg)]) :=
    ⟨by simp [regTable], ⟨by decide +kernel, by decide +kernel, by decide +kernel, by decide +kernel, by decide +kernel, by decide +kernel, by decide +kernel⟩, by decide +kernel⟩

theorem witness_storesStay :
      (storesOk State.reset = true) ∧
      (step State.reset = Host.Outcome.next afterIdle) :=
    ⟨by decide +kernel, rfl⟩

theorem witness_fusesStay :
      (step State.reset = Host.Outcome.next afterIdle) :=
    rfl

theorem witness_idleStep :
      (State.reset.pending = []) :=
    by decide +kernel

theorem witness_queueKept :
      (exec Instr.chalkboardGrant demo = Host.Outcome.next granted) :=
    rfl

theorem witness_timeAdvances :
      (exec Instr.chalkboardGrant demo = Host.Outcome.next granted) ∧
      (Instr.chalkboardGrant ≠ Instr.powerFail) :=
    ⟨rfl, by decide +kernel⟩

theorem witness_readinessStays_1 :
      (exec Instr.chalkboardGrant demo = Host.Outcome.next granted) ∧
      (Instr.chalkboardGrant ≠ Instr.powerFail) :=
    ⟨rfl, by decide +kernel⟩

end T01

namespace T04

def ow (h off stride fmt srec : Nat) (nos : Bool) : Word := BitVec.ofNat 64 (off + h * 2^20 + stride * 2^32 + fmt * 2^52 + srec * 2^56 + (if nos then 2^62 else 0))

def sw (h off stride fmt : Nat) (nos : Bool) : Word := ow h off stride fmt 0 nos ||| 0x8000000000000000

def big := upd demo fun t => { t with pad := { t.pad with h := (t.pad.h.set 20 (buf 131072 8192)).set 21 (buf 262144 16384) } }

def others1 := [ent 0x99 1 2 3]

def loadQ (src fmt stride : Nat) : State := qd big .mx (ent 0x80 (ow 20 64 stride src 5 false) (BitVec.ofNat 64 (fmt*16+1)) 0)

def loadE (src fmt stride : Nat) : QEntry := ent 0x80 (ow 20 64 stride src 5 false) (BitVec.ofNat 64 (fmt*16+1)) 0

def plane1 : Block := ⟨1, 1, List.replicate 32 (List.replicate 32 0x3C00), []⟩

def fwdE (ctl : Nat) : QEntry := ent 0x84 (ow 20 64 64 1 5 false) (BitVec.ofNat 64 ctl) 0

def fwdQ (ctl : Nat) : State := upd (qd big .mx (fwdE ctl)) fun t => { t with mx := { t.mx with p0 := some plane1 } }

def storeE : QEntry := ent 0x88 (ow 21 64 128 0 5 true) (BitVec.ofNat 64 (61 + 3*64)) 0

def storeQ : State := qd big .mx storeE

def passE : QEntry := ent 0x89 0 (BitVec.ofNat 64 (8 + 8*64)) 0

def passQ : State := qd big .mx passE

def aloadE : QEntry := ent 0x8A (ow 20 64 128 0 5 false) (BitVec.ofNat 64 (8 + 3*64)) 0x1234567

def aloadQ : State := qd big .mx aloadE

def begun : Started := ⟨{ ent 0x80 1 2 3 with se := true, stok := 4 }, true, some 5⟩

def endQ : State := upd demo fun t => { t with vxq := { t.vxq with started := [begun, begun] } }

def vq (e : QEntry) : State := qd big .vx e

def setvlE := ent 0xA0 0 64 0

def constE := ent 0xA2 5 7 0

def sdefE := ent 0xA3 5 4 0

def xrndE := ent 0xAC 5 4 0

def addw (op : Nat) : BitVec 32 := BitVec.ofNat 32 (op * 2 ^ 26 + 12 * 2 ^ 21 + 8 * 2 ^ 16 + 9 * 2 ^ 11 + 31 * 2 ^ 6)

def progs : State := upd big fun t => fillMem t t.pad.h[20] 2048 (leBytes 4 (addw 1).toNat ++ leBytes 4 (addw 2).toNat)

def eploadE := ent 0xA1 (ow 20 2048 0 0 0 false) (2 + 2 * 16) 0

def eploadQ : State := qd progs .vx eploadE

def ocldE := ent 0xA8 (ow 20 0 0 0 0 false) (116 + 12 * 256) 0

def ocstE := ent 0xA9 (ow 20 64 0 0 0 false) (5 + 12 * 256) 0

def xldE := ent 0xAA (ow 20 (8192 - 768) 0 0 0 false) 1 0

def xstE := ent 0xAB (ow 21 1028 0 0 0 false) 0 0

def ctl (slot nvec tail : Nat) : Word := BitVec.ofNat 64 (slot + nvec * 4 + tail * 2^18)

def runQ (op : BitVec 8) (c : Word) (prog : List (BitVec 32)) (ss : List Word) : State :=
  upd (qd big .vx (ent op 0 c 0)) fun t => { t with vx := { t.vx with vl := 20, prog := t.vx.prog.set 1 prog, s := Vector.ofFn fun i => ss.getD i.val 0 } }

def ss3 := [sw 20 0 16 0 true, sw 20 256 16 0 true, 0, sw 21 0 80 0 true, 0]

def ssC := [sw 20 0 16 0 true, sw 20 256 16 0 true, 0, sw 21 0 0 0 true, 0]

def ssE := [sw 20 0 0 0 true, sw 20 256 16 0 true, sw 20 512 16 0 true, sw 21 0 80 0 true, 0]

def run0 : State := runQ 0xA4 (ctl 1 0 0) [addw 1] ss3

def run3 : State := runQ 0xA4 (ctl 1 3 7) [addw 1] ss3

def run1 : State := runQ 0xA4 (ctl 1 1 0) [addw 1] ss3

def cmpr1 : State := runQ 0xA6 (ctl 0 1 0) [] ssC

def expd1 : State := runQ 0xA7 (ctl 0 1 0) [] ssE

theorem witness_matrixLoads_1 :
      (Starts (loadQ 1 1 64) 0 (0 : LTile) Eng.mx (128 : BitVec 8) (loadE 1 1 64) others1) ∧
      (Settled ((loadQ 1 1 64).tile 0)) ∧
      (plainWord (loadE 1 1 64).va) ∧
      ((loadE 1 1 64).vb &&& (18446744073709551374 : Word) = (0 : Word)) ∧
      (owFmt (loadE 1 1 64).va = BitVec.toNat (loadE 1 1 64).vb / 16 % 16) ∧
      (1 ≤ owFmt (loadE 1 1 64).va) ∧
      (owFmt (loadE 1 1 64).va ≤ 4) ∧
      (rowsOk ((loadQ 1 1 64).tile 0) (loadE 1 1 64).va false (32 * fmtBytes (owFmt (loadE 1 1 64).va)) 32 (rowAlign (owFmt (loadE 1 1 64).va))) :=
    ⟨⟨by decide +kernel, by decide +kernel, by decide +kernel, by decide +kernel, by decide +kernel, by decide +kernel, by decide +kernel, by decide +kernel⟩, ⟨by decide +kernel, by decide +kernel, by decide +kernel, by decide +kernel⟩, by decide +kernel, by decide +kernel, by decide +kernel, by decide +kernel, by decide +kernel, by decide +kernel⟩

theorem witness_matrixLoads_2_1 :
      (Starts (loadQ 5 5 64) 0 (0 : LTile) Eng.mx (128 : BitVec 8) (loadE 5 5 64) others1) ∧
      (Settled ((loadQ 5 5 64).tile 0)) ∧
      (plainWord (loadE 5 5 64).va) ∧
      ((loadE 5 5 64).vb &&& (18446744073709551374 : Word) = (0 : Word)) ∧
      (owFmt (loadE 5 5 64).va = 5) ∧
      (BitVec.toNat (loadE 5 5 64).vb / 16 % 16 = 5) ∧
      (rowsOk ((loadQ 5 5 64).tile 0) (loadE 5 5 64).va false 1088 1 64) :=
    ⟨⟨by decide +kernel, by decide +kernel, by decide +kernel, by decide +kernel, by decide +kernel, by decide +kernel, by decide +kernel, by decide +kernel⟩, ⟨by decide +kernel, by decide +kernel, by decide +kernel, by decide +kernel⟩, by decide +kernel, by decide +kernel, by decide +kernel, by decide +kernel, by decide +kernel⟩

theorem witness_matrixLoads_2_2 :
      (Starts (loadQ 2 4 64) 0 (0 : LTile) Eng.mx (128 : BitVec 8) (loadE 2 4 64) others1) ∧
      (Settled ((loadQ 2 4 64).tile 0)) ∧
      (plainWord (loadE 2 4 64).va) ∧
      ((loadE 2 4 64).vb &&& (18446744073709551374 : Word) = (0 : Word)) ∧
      (owFmt (loadE 2 4 64).va = 1 ∨ owFmt (loadE 2 4 64).va = 2) ∧
      (BitVec.toNat (loadE 2 4 64).vb / 16 % 16 = 3 ∨ BitVec.toNat (loadE 2 4 64).vb / 16 % 16 = 4) ∧
      (rowsOk ((loadQ 2 4 64).tile 0) (loadE 2 4 64).va false 64 32 64) :=
    ⟨⟨by decide +kernel, by decide +kernel, by decide +kernel, by decide +kernel, by decide +kernel, by decide +kernel, by decide +kernel, by decide +kernel⟩, ⟨by decide +kernel, by decide +kernel, by decide +kernel, by decide +kernel⟩, by decide +kernel, by decide +kernel, by decide +kernel, by decide +kernel, by decide +kernel⟩

theorem witness_matrixComputes_1 :
      ((Instr.mxFwd, (132 : BitVec 8), fun (b : Block) (k : Nat) => b.rowVals k, fun (t : Tile) (w : Word) (rows i : Nat) => streamVals (owFmt w) (List.map (fun (n : Nat) => bytesAt t (t.hOf w) (owOff w + n * owStride w) ((rowBytes (owFmt w)).getD 0)) (List.range (if owFmt w = 5 then (rows + 31) / 32 else rows))) i) ∈ computeTable) ∧
      (Starts (fwdQ 8) 0 (0 : LTile) Eng.mx (132 : BitVec 8) (fwdE 8) others1) ∧
      (Settled ((fwdQ 8).tile 0)) ∧
      (plainWord (fwdE 8).va) ∧
      ((fwdE 8).vb &&& (18446744073709486080 : Word) = (0 : Word)) ∧
      (cwRows (fwdE 8).vb = 0) :=
    ⟨by simp [computeTable], ⟨by decide +kernel, by decide +kernel, by decide +kernel, by decide +kernel, by decide +kernel, by decide +kernel, by decide +kernel, by decide +kernel⟩, ⟨by decide +kernel, by decide +kernel, by decide +kernel, by decide +kernel⟩, by decide +kernel, by decide +kernel, by decide +kernel⟩

theorem witness_matrixComputes_2 :
      ((Instr.mxFwd, (132 : BitVec 8), fun (b : Block) (k : Nat) => b.rowVals k, fun (t : Tile) (w : Word) (rows i : Nat) => streamVals (owFmt w) (List.map (fun (n : Nat) => bytesAt t (t.hOf w) (owOff w + n * owStride w) ((rowBytes (owFmt w)).getD 0)) (List.range (if owFmt w = 5 then (rows + 31) / 32 else rows))) i) ∈ computeTable) ∧
      (Starts (fwdQ (8 + 3 * 64)) 0 (0 : LTile) Eng.mx (132 : BitVec 8) (fwdE (8 + 3 * 64)) others1) ∧
      (Settled ((fwdQ (8 + 3 * 64)).tile 0)) ∧
      (plainWord (fwdE (8 + 3 * 64)).va) ∧
      ((fwdE (8 + 3 * 64)).vb &&& (18446744073709486080 : Word) = (0 : Word)) ∧
      (cwRows (fwdE (8 + 3 * 64)).vb ≠ 0) ∧
      (cwAcc (fwdE (8 + 3 * 64)).vb + cwRows (fwdE (8 + 3 * 64)).vb ≤ 64) ∧
      (((fwdQ (8 + 3 * 64)).tile 0).mx.plane (cwPlane (fwdE (8 + 3 * 64)).vb) = some plane1) ∧
      (widthClass plane1.fmt = widthClass (owFmt (fwdE (8 + 3 * 64)).va)) ∧
      (widthClass (owFmt (fwdE (8 + 3 * 64)).va) ≠ 0) ∧
      ((132 : BitVec 8) ≠ (132 : BitVec 8) → plane1.fmt ≠ 5) ∧
      (computeOk ((fwdQ (8 + 3 * 64)).tile 0) (132 : BitVec 8) (fwdE (8 + 3 * 64)).va (cwRows (fwdE (8 + 3 * 64)).vb)) ∧
      (cwPass (fwdE (8 + 3 * 64)).vb = true → ((fwdQ (8 + 3 * 64)).tile 0).mx.chain.length + cwRows (fwdE (8 + 3 * 64)).vb ≤ 8) :=
    ⟨by simp [computeTable], ⟨by decide +kernel, by decide +kernel, by decide +kernel, by decide +kernel, by decide +kernel, by decide +kernel, by decide +kernel, by decide +kernel⟩, ⟨by decide +kernel, by decide +kernel, by decide +kernel, by decide +kernel⟩, by decide +kernel, by decide +kernel, by decide +kernel, by decide +kernel, by decide +kernel, by decide +kernel, by decide +kernel, by decide +kernel, by decide +kernel, by decide +kernel⟩

theorem witness_matrixStores :
      (Starts storeQ 0 (0 : LTile) Eng.mx (136 : BitVec 8) storeE others1) ∧
      (Settled (storeQ.tile 0)) ∧
      (plainWord storeE.va) ∧
      (storeE.vb &&& (18446744073709535232 : Word) = (0 : Word)) ∧
      (owFmt storeE.va ≤ 4) ∧
      (cwRows storeE.vb ≠ 0) ∧
      (cwAcc storeE.vb + cwRows storeE.vb ≤ 64) ∧
      (rowsOk (storeQ.tile 0) storeE.va true (32 * fmtBytes (owFmt storeE.va)) (cwRows storeE.vb) (rowAlign (owFmt storeE.va))) ∧
      (hBase ((storeQ.tile 0).hOf storeE.va) + hLen ((storeQ.tile 0).hOf storeE.va) ≤ 2 ^ 20) ∧
      (32 * fmtBytes (owFmt storeE.va) ≤ owStride storeE.va) :=
    ⟨⟨by decide +kernel, by decide +kernel, by decide +kernel, by decide +kernel, by decide +kernel, by decide +kernel, by decide +kernel, by decide +kernel⟩, ⟨by decide +kernel, by decide +kernel, by decide +kernel, by decide +kernel⟩, by decide +kernel, by decide +kernel, by decide +kernel, by decide +kernel, by decide +kernel, by decide +kernel, by decide +kernel, by decide +kernel⟩

theorem witness_matrixPassAndLoad_1 :
      (Starts passQ 0 (0 : LTile) Eng.mx (137 : BitVec 8) passE others1) ∧
      (Settled (passQ.tile 0)) ∧
      (passE.vb &&& (18446744073709535232 : Word) = (0 : Word)) ∧
      (cwRows passE.vb ≠ 0) ∧
      (cwAcc passE.vb + cwRows passE.vb ≤ 64) ∧
      ((passQ.tile 0).mx.chain.length + cwRows passE.vb ≤ 8) :=
    ⟨⟨by decide +kernel, by decide +kernel, by decide +kernel, by decide +kernel, by decide +kernel, by decide +kernel, by decide +kernel, by decide +kernel⟩, ⟨by decide +kernel, by decide +kernel, by decide +kernel, by decide +kernel⟩, by decide +kernel, by decide +kernel, by decide +kernel, by decide +kernel⟩

theorem witness_matrixPassAndLoad_2 :
      (Starts aloadQ 0 (0 : LTile) Eng.mx (138 : BitVec 8) aloadE others1) ∧
      (Settled (aloadQ.tile 0)) ∧
      (plainWord aloadE.va) ∧
      (aloadE.vb &&& (18446744073709535232 : Word) = (0 : Word)) ∧
      (cwZero aloadE.vb = false) ∧
      (BitVec.toNat aloadE.vc < 2 ^ 32) ∧
      (owFmt aloadE.va = 0) ∧
      (cwRows aloadE.vb ≠ 0) ∧
      (cwAcc aloadE.vb + cwRows aloadE.vb ≤ 64) ∧
      (rowsOk (aloadQ.tile 0) aloadE.va false 128 (cwRows aloadE.vb) 64) :=
    ⟨⟨by decide +kernel, by decide +kernel, by decide +kernel, by decide +kernel, by decide +kernel, by decide +kernel, by decide +kernel, by decide +kernel⟩, ⟨by decide +kernel, by decide +kernel, by decide +kernel, by decide +kernel⟩, by decide +kernel, by decide +kernel, by decide +kernel, by decide +kernel, by decide +kernel, by decide +kernel, by decide +kernel, by decide +kernel⟩

theorem witness_completions :
      (endQ.runs 0 = some 0) ∧
      ((endQ.tile 0).pad.corrWords = []) ∧
      ((queueOf (endQ.tile 0) Eng.vx).started = [begun, begun]) ∧
      (begun.ready = true) ∧
      (begun.e.se = true → (endQ.tile 0).core.tokens[begun.e.stok.toNat] ≠ (15 : BitVec 4)) :=
    ⟨by decide +kernel, by decide +kernel, by decide +kernel, by decide +kernel, by decide +kernel⟩

theorem witness_vectorSets_1 :
      (Starts (vq setvlE) 0 (0 : LTile) Eng.vx (160 : BitVec 8) setvlE others1) ∧
      (Settled ((vq setvlE).tile 0)) :=
    ⟨⟨by decide +kernel, by decide +kernel, by decide +kernel, by decide +kernel, by decide +kernel, by decide +kernel, by decide +kernel, by decide +kernel⟩, ⟨by decide +kernel, by decide +kernel, by decide +kernel, by decide +kernel⟩⟩

theorem witness_vectorSets_2_1 :
      (Starts (vq constE) 0 (0 : LTile) Eng.vx (162 : BitVec 8) constE others1) ∧
      (Settled ((vq constE).tile 0)) ∧
      (BitVec.toNat constE.vb < 8) :=
    ⟨⟨by decide +kernel, by decide +kernel, by decide +kernel, by decide +kernel, by decide +kernel, by decide +kernel, by decide +kernel, by decide +kernel⟩, ⟨by decide +kernel, by decide +kernel, by decide +kernel, by decide +kernel⟩, by decide +kernel⟩

theorem witness_vectorSets_2_2_1 :
      (Starts (vq sdefE) 0 (0 : LTile) Eng.vx (163 : BitVec 8) sdefE others1) ∧
      (Settled ((vq sdefE).tile 0)) ∧
      (BitVec.toNat sdefE.vb < 5) :=
    ⟨⟨by decide +kernel, by decide +kernel, by decide +kernel, by decide +kernel, by decide +kernel, by decide +kernel, by decide +kernel, by decide +kernel⟩, ⟨by decide +kernel, by decide +kernel, by decide +kernel, by decide +kernel⟩, by decide +kernel⟩

theorem witness_vectorSets_2_2_2 :
      (Starts (vq xrndE) 0 (0 : LTile) Eng.vx (172 : BitVec 8) xrndE others1) ∧
      (Settled ((vq xrndE).tile 0)) :=
    ⟨⟨by decide +kernel, by decide +kernel, by decide +kernel, by decide +kernel, by decide +kernel, by decide +kernel, by decide +kernel, by decide +kernel⟩, ⟨by decide +kernel, by decide +kernel, by decide +kernel, by decide +kernel⟩⟩

theorem witness_vectorTransfers_1 :
      (BitVec.toNat eploadE.va < 2 ^ 26) ∧
      (hValid ((eploadQ.tile 0).hOf eploadE.va) = true) ∧
      (Starts eploadQ 0 (0 : LTile) Eng.vx (161 : BitVec 8) eploadE others1) ∧
      (Settled (eploadQ.tile 0)) ∧
      (eploadE.vb &&& (18446744073709550604 : Word) = (0 : Word)) ∧
      (1 ≤ BitVec.toNat eploadE.vb / 16 % 64) ∧
      (BitVec.toNat eploadE.vb / 16 % 64 ≤ 32) ∧
      (hR ((eploadQ.tile 0).hOf eploadE.va) = true) ∧
      (owOff eploadE.va + 4 * (BitVec.toNat eploadE.vb / 16 % 64) ≤ hLen ((eploadQ.tile 0).hOf eploadE.va)) ∧
      (owOff eploadE.va % 4 = 0) ∧
      (∀ (x : BitVec 32), x ∈ List.map (fun (k : Nat) => BitVec.ofNat 32 (leVal (bytesAt (eploadQ.tile 0) ((eploadQ.tile 0).hOf eploadE.va) (owOff eploadE.va + 4 * k) 4))) (List.range (BitVec.toNat eploadE.vb / 16 % 64)) → epWordOk x = true) :=
    ⟨by decide +kernel, by decide +kernel, ⟨by decide +kernel, by decide +kernel, by decide +kernel, by decide +kernel, by decide +kernel, by decide +kernel, by decide +kernel, by decide +kernel⟩, ⟨by decide +kernel, by decide +kernel, by decide +kernel, by decide +kernel⟩, by decide +kernel, by decide +kernel, by decide +kernel, by decide +kernel, by decide +kernel, by decide +kernel, List.all_eq_true.mp (by decide +kernel)⟩

theorem witness_vectorTransfers_2_1 :
      (BitVec.toNat ocldE.va < 2 ^ 26) ∧
      (hValid (((vq ocldE).tile 0).hOf ocldE.va) = true) ∧
      (Starts (vq ocldE) 0 (0 : LTile) Eng.vx (168 : BitVec 8) ocldE others1) ∧
      (Settled ((vq ocldE).tile 0)) ∧
      (ocldE.vb &&& (18446744073709486208 : Word) = (0 : Word)) ∧
      (1 ≤ BitVec.toNat ocldE.vb / 256 % 256) ∧
      (BitVec.toNat ocldE.vb % 128 + BitVec.toNat ocldE.vb / 256 % 256 ≤ 128) ∧
      (hR (((vq ocldE).tile 0).hOf ocldE.va) = true) ∧
      (owOff ocldE.va + 64 * (BitVec.toNat ocldE.vb / 256 % 256) ≤ hLen (((vq ocldE).tile 0).hOf ocldE.va)) ∧
      (owOff ocldE.va % 64 = 0) :=
    ⟨by decide +kernel, by decide +kernel, ⟨by decide +kernel, by decide +kernel, by decide +kernel, by decide +kernel, by decide +kernel, by decide +kernel, by decide +kernel, by decide +kernel⟩, ⟨by decide +kernel, by decide +kernel, by decide +kernel, by decide +kernel⟩, by decide +kernel, by decide +kernel, by decide +kernel, by decide +kernel, by decide +kernel, by decide +kernel⟩

theorem witness_vectorTransfers_2_2 :
      (BitVec.toNat ocstE.va < 2 ^ 26) ∧
      (hValid (((vq ocstE).tile 0).hOf ocstE.va) = true) ∧
      (Starts (vq ocstE) 0 (0 : LTile) Eng.vx (169 : BitVec 8) ocstE others1) ∧
      (Settled ((vq ocstE).tile 0)) ∧
      (ocstE.vb &&& (18446744073709486208 : Word) = (0 : Word)) ∧
      (1 ≤ BitVec.toNat ocstE.vb / 256 % 256) ∧
      (BitVec.toNat ocstE.vb % 128 + BitVec.toNat ocstE.vb / 256 % 256 ≤ 128) ∧
      (hW (((vq ocstE).tile 0).hOf ocstE.va) = true) ∧
      (owOff ocstE.va + 64 * (BitVec.toNat ocstE.vb / 256 % 256) ≤ hLen (((vq ocstE).tile 0).hOf ocstE.va)) ∧
      (owOff ocstE.va % 64 = 0) :=
    ⟨by decide +kernel, by decide +kernel, ⟨by decide +kernel, by decide +kernel, by decide +kernel, by decide +kernel, by decide +kernel, by decide +kernel, by decide +kernel, by decide +kernel⟩, ⟨by decide +kernel, by decide +kernel, by decide +kernel, by decide +kernel⟩, by decide +kernel, by decide +kernel, by decide +kernel, by decide +kernel, by decide +kernel, by decide +kernel⟩

theorem witness_exactSums_1 :
      (BitVec.toNat xldE.va < 2 ^ 26) ∧
      (hValid (((vq xldE).tile 0).hOf xldE.va) = true) ∧
      (BitVec.toNat xldE.vb ≤ 1) ∧
      (Starts (vq xldE) 0 (0 : LTile) Eng.vx (170 : BitVec 8) xldE others1) ∧
      (Settled ((vq xldE).tile 0)) ∧
      (hR (((vq xldE).tile 0).hOf xldE.va) = true) ∧
      (owOff xldE.va + 768 ≤ hLen (((vq xldE).tile 0).hOf xldE.va)) ∧
      (∀ (k : Fin 16), XWord.ofBytes (bytesAt ((vq xldE).tile 0) (((vq xldE).tile 0).hOf xldE.va) (owOff xldE.va + 48 * ↑k) 48) = some (Vector.replicate 16 XWord.zero)[k]) :=
    ⟨by decide +kernel, by decide +kernel, by decide +kernel, ⟨by decide +kernel, by decide +kernel, by decide +kernel, by decide +kernel, by decide +kernel, by decide +kernel, by decide +kernel, by decide +kernel⟩, ⟨by decide +kernel, by decide +kernel, by decide +kernel, by decide +kernel⟩, by decide +kernel, by decide +kernel, by decide +kernel⟩

theorem witness_exactSums_2 :
      (BitVec.toNat xstE.va < 2 ^ 26) ∧
      (hValid (((vq xstE).tile 0).hOf xstE.va) = true) ∧
      (BitVec.toNat xstE.vb ≤ 1) ∧
      (Starts (vq xstE) 0 (0 : LTile) Eng.vx (171 : BitVec 8) xstE others1) ∧
      (Settled ((vq xstE).tile 0)) ∧
      (hW (((vq xstE).tile 0).hOf xstE.va) = true) ∧
      ((owOff xstE.va + if xstE.vb = (0 : Word) then 768 else 48) ≤ hLen (((vq xstE).tile 0).hOf xstE.va)) :=
    ⟨by decide +kernel, by decide +kernel, by decide +kernel, ⟨by decide +kernel, by decide +kernel, by decide +kernel, by decide +kernel, by decide +kernel, by decide +kernel, by decide +kernel, by decide +kernel⟩, ⟨by decide +kernel, by decide +kernel, by decide +kernel, by decide +kernel⟩, by decide +kernel, by decide +kernel⟩

theorem witness_vectorRuns_1 :
      ((Instr.vxRun, (164 : BitVec 8), vxRunCheck) ∈ runTable) ∧
      (Starts run0 0 (0 : LTile) Eng.vx (164 : BitVec 8) (ent (164 : BitVec 8) (0 : Word) (ctl 1 0 0) (0 : Word)) others1) ∧
      (Settled (run0.tile 0)) ∧
      (((164 : BitVec 8), vxRunCheck).snd (run0.tile 0) (ent (164 : BitVec 8) (0 : Word) (ctl 1 0 0) (0 : Word)) = none) ∧
      (rcNvec (ent (164 : BitVec 8) (0 : Word) (ctl 1 0 0) (0 : Word)).vb = 0) :=
    ⟨by simp [runTable], ⟨by decide +kernel, by decide +kernel, by decide +kernel, by decide +kernel, by decide +kernel, by decide +kernel, by decide +kernel, by decide +kernel⟩, ⟨by decide +kernel, by decide +kernel, by decide +kernel, by decide +kernel⟩, by decide +kernel, by decide +kernel⟩

theorem witness_vectorRuns_2 :
      ((Instr.vxRun, (164 : BitVec 8), vxRunCheck) ∈ runTable) ∧
      (Starts run3 0 (0 : LTile) Eng.vx (164 : BitVec 8) (ent (164 : BitVec 8) (0 : Word) (ctl 1 3 7) (0 : Word)) others1) ∧
      (Settled (run3.tile 0)) ∧
      (((164 : BitVec 8), vxRunCheck).snd (run3.tile 0) (ent (164 : BitVec 8) (0 : Word) (ctl 1 3 7) (0 : Word)) = none) ∧
      (rcNvec (ent (164 : BitVec 8) (0 : Word) (ctl 1 3 7) (0 : Word)).vb ≠ 0) ∧
      (∀ (k : Nat), k ∈ [0, 1, 2] → swEn (nth (run3.tile 0).vx.s.toList k (0 : Word)) = true → swSrc (nth (run3.tile 0).vx.s.toList k (0 : Word)) ≠ 2) :=
    ⟨by simp [runTable], ⟨by decide +kernel, by decide +kernel, by decide +kernel, by decide +kernel, by decide +kernel, by decide +kernel, by decide +kernel, by decide +kernel⟩, ⟨by decide +kernel, by decide +kernel, by decide +kernel, by decide +kernel⟩, by decide +kernel, by decide +kernel, by decide +kernel⟩

theorem witness_vectorResults_1 :
      (rcNvec (ent (164 : BitVec 8) (0 : Word) (ctl 1 1 0) (0 : Word)).vb = 1) ∧
      (rcTail (ent (164 : BitVec 8) (0 : Word) (ctl 1 1 0) (0 : Word)).vb = 0) ∧
      ((run1.tile 0).vx.vl ≤ 64) ∧
      (∀ (k : Nat), k ∈ [0, 1, 3] → plainStream (nth (run1.tile 0).vx.s.toList k (0 : Word))) ∧
      (swEn (nth (run1.tile 0).vx.s.toList 4 (0 : Word)) = false) ∧
      (Starts run1 0 (0 : LTile) Eng.vx (164 : BitVec 8) (ent (164 : BitVec 8) (0 : Word) (ctl 1 1 0) (0 : Word)) others1) ∧
      (Settled (run1.tile 0)) ∧
      (vxRunCheck (run1.tile 0) (ent (164 : BitVec 8) (0 : Word) (ctl 1 1 0) (0 : Word)) = none) ∧
      (rcRed (ent (164 : BitVec 8) (0 : Word) (ctl 1 1 0) (0 : Word)).vb = 0) ∧
      (swEn (nth (run1.tile 0).vx.s.toList 2 (0 : Word)) = false) ∧
      ((nth (run1.tile 0).vx.prog.toList (rcSlot (ent (164 : BitVec 8) (0 : Word) (ctl 1 1 0) (0 : Word)).vb) []).length = 1) ∧
      (1 ∈ [1, 2, 3]) ∧
      ((nth (run1.tile 0).vx.prog.toList (rcSlot (ent (164 : BitVec 8) (0 : Word) (ctl 1 1 0) (0 : Word)).vb) []).head? = some (BitVec.ofNat 32 (1 * 2 ^ 26 + 12 * 2 ^ 21 + 8 * 2 ^ 16 + 9 * 2 ^ 11 + 31 * 2 ^ 6))) :=
    ⟨by decide +kernel, by decide +kernel, by decide +kernel, by decide +kernel, by decide +kernel, ⟨by decide +kernel, by decide +kernel, by decide +kernel, by decide +kernel, by decide +kernel, by decide +kernel, by decide +kernel, by decide +kernel⟩, ⟨by decide +kernel, by decide +kernel, by decide +kernel, by decide +kernel⟩, by decide +kernel, by decide +kernel, by decide +kernel, by decide +kernel, by decide +kernel, by decide +kernel⟩

theorem witness_vectorResults_2_1 :
      (rcNvec (ent (166 : BitVec 8) (0 : Word) (ctl 0 1 0) (0 : Word)).vb = 1) ∧
      (rcTail (ent (166 : BitVec 8) (0 : Word) (ctl 0 1 0) (0 : Word)).vb = 0) ∧
      ((cmpr1.tile 0).vx.vl ≤ 64) ∧
      (∀ (k : Nat), k ∈ [0, 1, 3] → plainStream (nth (cmpr1.tile 0).vx.s.toList k (0 : Word))) ∧
      (swEn (nth (cmpr1.tile 0).vx.s.toList 4 (0 : Word)) = false) ∧
      (Starts cmpr1 0 (0 : LTile) Eng.vx (166 : BitVec 8) (ent (166 : BitVec 8) (0 : Word) (ctl 0 1 0) (0 : Word)) others1) ∧
      (Settled (cmpr1.tile 0)) ∧
      (vxPackCheck false (cmpr1.tile 0) (ent (166 : BitVec 8) (0 : Word) (ctl 0 1 0) (0 : Word)) = none) ∧
      (swEn (nth (cmpr1.tile 0).vx.s.toList 2 (0 : Word)) = false) :=
    ⟨by decide +kernel, by decide +kernel, by decide +kernel, by decide +kernel, by decide +kernel, ⟨by decide +kernel, by decide +kernel, by decide +kernel, by decide +kernel, by decide +kernel, by decide +kernel, by decide +kernel, by decide +kernel⟩, ⟨by decide +kernel, by decide +kernel, by decide +kernel, by decide +kernel⟩, by decide +kernel, by decide +kernel⟩

theorem witness_vectorResults_2_2 :
      (rcNvec (ent (167 : BitVec 8) (0 : Word) (ctl 0 1 0) (0 : Word)).vb = 1) ∧
      (rcTail (ent (167 : BitVec 8) (0 : Word) (ctl 0 1 0) (0 : Word)).vb = 0) ∧
      ((expd1.tile 0).vx.vl ≤ 64) ∧
      (∀ (k : Nat), k ∈ [0, 1, 3] → plainStream (nth (expd1.tile 0).vx.s.toList k (0 : Word))) ∧
      (swEn (nth (expd1.tile 0).vx.s.toList 4 (0 : Word)) = false) ∧
      (Starts expd1 0 (0 : LTile) Eng.vx (167 : BitVec 8) (ent (167 : BitVec 8) (0 : Word) (ctl 0 1 0) (0 : Word)) others1) ∧
      (Settled (expd1.tile 0)) ∧
      (vxPackCheck true (expd1.tile 0) (ent (167 : BitVec 8) (0 : Word) (ctl 0 1 0) (0 : Word)) = none) ∧
      (plainStream (nth (expd1.tile 0).vx.s.toList 2 (0 : Word))) :=
    ⟨by decide +kernel, by decide +kernel, by decide +kernel, by decide +kernel, by decide +kernel, ⟨by decide +kernel, by decide +kernel, by decide +kernel, by decide +kernel, by decide +kernel, by decide +kernel, by decide +kernel, by decide +kernel⟩, ⟨by decide +kernel, by decide +kernel, by decide +kernel, by decide +kernel⟩, by decide +kernel, by decide +kernel⟩

end T04

namespace T06

def others1 := [ent 0x99 1 2 3]

def owned (base len : Nat) : Word := buf base len ||| 0x20

def bigx := upd demo fun t => { t with pad := { t.pad with h := (((t.pad.h.set 20 (buf 131072 8192)).set 21 (buf 262144 16384)).set 22 (owned 524288 1024)).set 23 (buf 65536 100000) } }

def big := bigx.modPart 0 (fun x => { x with ports := 0xFFFF, count := 2 })

def epS (s : State) (k : Nat) (x : Endpoint) : State := upd s fun t => withEp t k x

def open0 : Endpoint := { Endpoint.reset with state := .isOpen, send := true, peerep := 3, peertile := 1, runits := 16, credits := 16, pos := 3, seq := 9 }

def W (n : Nat) : Word := BitVec.ofNat 64 n

def xq (s : State) (e : QEntry) : State := qd s .xc e

def openE : QEntry := ent 0xC1 0 (W (5 + 21*256)) 100000

def openQ : State := xq big openE

def asked1 : OpenAsk := ⟨some 4, ⟨5, 2, 0, 1⟩, 7⟩

def openHeld : State := xq (epS big 5 { Endpoint.reset with held := some asked1, state := .closed }) openE

def openBusy : State := xq (epS big 5 open0) openE

def sendE : QEntry := ent 0xC1 0 (W (5 + 16 + 7 * 4096 + 65536)) 0

def sendQ : State := xq big sendE

def sendBad : QEntry := ent 0xC1 0 (W (5 + 16 + 7 * 4096 + 2*65536)) 0

def sendBadQ : State := xq big sendBad

def recv0 : Endpoint := { open0 with send := false, handle := 22, recs := [⟨0, 1, 100, 3, 2⟩, ⟨3, 2, 0, 2, 1⟩, ⟨5, 3, 64, 2, 1⟩], asm := some ⟨4, 3, 3, 3, false, 3, 3⟩, pos := 0 }

def cloE : QEntry := ent 0xC2 0 5 0

def cloQ (x : Endpoint) : State := xq (epS big 5 x) cloE

def cloIdle := cloQ .reset

def cloClosed := cloQ { open0 with state := .closed }

def cloOpen := cloQ open0

def cloListen := cloQ { recv0 with state := .listen }

def cloDrain := cloQ { recv0 with state := .draining }

def sndE : QEntry := ent 0xC3 0 (W (64 + 23*2^20 + 5*2^28)) (W (65 + 77*2^32))

def sndQ (x : Endpoint) : State := xq (epS big 5 x) sndE

def sndOpen := sndQ open0

def sndSmall := sndQ { open0 with runits := 2 }

def sndLate := sndQ { open0 with pend := 8, pendSeq := 5 }

def sndClosed := sndQ { open0 with state := .closed }

def sndIdle := sndQ .reset

def held0 : QEntry := ent 0xC3 1 2 3

def sres : State := upd (epS big 5 { open0 with pos := 15, credits := 4 }) fun t => { t with xc := { t.xc with run := some (.send 5 128 100 t.pad.h[23] 7) }, xcq := { t.xcq with started := [⟨held0, false, none⟩] } }

def selE (mask : Nat) (rot : Bool) : QEntry := ent 0xC4 0 (W (mask + if rot then 65536 else 0)) 0

def selQ (xs : List (Nat × Endpoint)) (mask : Nat) (rot : Bool) : State := xq (upd (xs.foldl (fun s x => epS s x.1 x.2) big) fun t => { t with xc := { t.xc with selrot := 3 } }) (selE mask rot)

def listens1 : Endpoint := { Endpoint.reset with state := .listen }

def selBad := selQ [] 8 true

def selNone := selQ [] 0 true

def selTwo := selQ [(3, recv0), (7, recv0)] 0x88 true

def selWait := selQ [(3, listens1)] 8 true

def selRun : State := upd (epS big 5 recv0) fun t => { t with xc := { t.xc with run := some (.select 0x20 true) }, xcq := { t.xcq with started := [⟨held0, false, none⟩] } }

def dnE : QEntry := ent 0xC5 0 5 0

def dnQ (x : Endpoint) : State := xq (epS big 5 x) dnE

def rec1 : RingRec := ⟨0, 1, 100, 3, 2⟩

def pad1 : RingRec := ⟨3, 2, 0, 2, 1⟩

def rec2 : RingRec := ⟨3, 3, 0, 2, 1⟩

def dnSend := dnQ open0

def dnTwo := dnQ { recv0 with recs := [rec1, rec2] }

def dnPad := dnQ { recv0 with recs := [rec1, pad1, rec2] }

def dnLast := dnQ { recv0 with state := .draining, recs := [rec1] }

def dnMore := dnQ { recv0 with state := .draining, recs := [rec1, rec2] }

theorem witness_receiveOpens_1 :
      (Starts openQ 0 (0 : LTile) Eng.xc (193 : BitVec 8) openE others1) ∧
      (bit openE.vb 4 = false) ∧
      (if bit openE.vb 5 = true then openE.vb &&& (4194240 : Word) = (0 : Word) ∧ openE.vc &&& (4160749568 : Word) = (0 : Word) else openE.vb &&& (18446744073709535424 : Word) = (0 : Word) ∧ openE.vc &&& (18446744073575333888 : Word) = (0 : Word)) ∧
      ((((openQ.tile 0).epAt (fld openE.vb 0 4)).state = EpState.idle ∨ ((openQ.tile 0).epAt (fld openE.vb 0 4)).state = EpState.closed) ∧ fld openE.vc 0 27 ≤ 100000 ∧ if bit openE.vb 5 = true then (16 ≤ if bit openE.vb 5 = true then fld openE.vc 32 32 else hLen (handleOf (openQ.tile 0) (fld openE.vb 8 6)) / 64) ∧ (if bit openE.vb 5 = true then fld openE.vc 32 32 else hLen (handleOf (openQ.tile 0) (fld openE.vb 8 6)) / 64) ≤ 4194304 ∧ openQ.rangeMapped 0 ((if bit openE.vb 5 = true then fld openE.vc 32 32 else hLen (handleOf (openQ.tile 0) (fld openE.vb 8 6)) / 64) * 64 / 65536 + 2) (fld openE.vb 22 42 * 64) ((if bit openE.vb 5 = true then fld openE.vc 32 32 else hLen (handleOf (openQ.tile 0) (fld openE.vb 8 6)) / 64) * 64) = true else hValid (handleOf (openQ.tile 0) (fld openE.vb 8 6)) = true ∧ hR (handleOf (openQ.tile 0) (fld openE.vb 8 6)) = true ∧ hRmt (handleOf (openQ.tile 0) (fld openE.vb 8 6)) = true ∧ hOwn (handleOf (openQ.tile 0) (fld openE.vb 8 6)) = false ∧ hLen (handleOf (openQ.tile 0) (fld openE.vb 8 6)) % 64 = 0 ∧ 128 ≤ hLen (handleOf (openQ.tile 0) (fld openE.vb 8 6))) ∧
      (((openQ.tile 0).epAt (fld openE.vb 0 4)).held = none) :=
    ⟨⟨by decide +kernel, by decide +kernel, by decide +kernel, by decide +kernel, by decide +kernel, by decide +kernel, by decide +kernel, by decide +kernel⟩, by decide +kernel, by decide +kernel, by decide +kernel, by decide +kernel⟩

theorem witness_receiveOpens_2_1 :
      (Starts openHeld 0 (0 : LTile) Eng.xc (193 : BitVec 8) openE others1) ∧
      (bit openE.vb 4 = false) ∧
      (if bit openE.vb 5 = true then openE.vb &&& (4194240 : Word) = (0 : Word) ∧ openE.vc &&& (4160749568 : Word) = (0 : Word) else openE.vb &&& (18446744073709535424 : Word) = (0 : Word) ∧ openE.vc &&& (18446744073575333888 : Word) = (0 : Word)) ∧
      ((((openHeld.tile 0).epAt (fld openE.vb 0 4)).state = EpState.idle ∨ ((openHeld.tile 0).epAt (fld openE.vb 0 4)).state = EpState.closed) ∧ fld openE.vc 0 27 ≤ 100000 ∧ if bit openE.vb 5 = true then (16 ≤ if bit openE.vb 5 = true then fld openE.vc 32 32 else hLen (handleOf (openHeld.tile 0) (fld openE.vb 8 6)) / 64) ∧ (if bit openE.vb 5 = true then fld openE.vc 32 32 else hLen (handleOf (openHeld.tile 0) (fld openE.vb 8 6)) / 64) ≤ 4194304 ∧ openHeld.rangeMapped 0 ((if bit openE.vb 5 = true then fld openE.vc 32 32 else hLen (handleOf (openHeld.tile 0) (fld openE.vb 8 6)) / 64) * 64 / 65536 + 2) (fld openE.vb 22 42 * 64) ((if bit openE.vb 5 = true then fld openE.vc 32 32 else hLen (handleOf (openHeld.tile 0) (fld openE.vb 8 6)) / 64) * 64) = true else hValid (handleOf (openHeld.tile 0) (fld openE.vb 8 6)) = true ∧ hR (handleOf (openHeld.tile 0) (fld openE.vb 8 6)) = true ∧ hRmt (handleOf (openHeld.tile 0) (fld openE.vb 8 6)) = true ∧ hOwn (handleOf (openHeld.tile 0) (fld openE.vb 8 6)) = false ∧ hLen (handleOf (openHeld.tile 0) (fld openE.vb 8 6)) % 64 = 0 ∧ 128 ≤ hLen (handleOf (openHeld.tile 0) (fld openE.vb 8 6))) ∧
      (((openHeld.tile 0).epAt (fld openE.vb 0 4)).held = some asked1) :=
    ⟨⟨by decide +kernel, by decide +kernel, by decide +kernel, by decide +kernel, by decide +kernel, by decide +kernel, by decide +kernel, by decide +kernel⟩, by decide +kernel, by decide +kernel, by decide +kernel, by decide +kernel⟩

theorem witness_receiveOpens_2_2 :
      (Starts openBusy 0 (0 : LTile) Eng.xc (193 : BitVec 8) openE others1) ∧
      (bit openE.vb 4 = false) ∧
      (if bit openE.vb 5 = true then openE.vb &&& (4194240 : Word) = (0 : Word) ∧ openE.vc &&& (4160749568 : Word) = (0 : Word) else openE.vb &&& (18446744073709535424 : Word) = (0 : Word) ∧ openE.vc &&& (18446744073575333888 : Word) = (0 : Word)) ∧
      (¬((((openBusy.tile 0).epAt (fld openE.vb 0 4)).state = EpState.idle ∨ ((openBusy.tile 0).epAt (fld openE.vb 0 4)).state = EpState.closed) ∧ fld openE.vc 0 27 ≤ 100000 ∧ if bit openE.vb 5 = true then (16 ≤ if bit openE.vb 5 = true then fld openE.vc 32 32 else hLen (handleOf (openBusy.tile 0) (fld openE.vb 8 6)) / 64) ∧ (if bit openE.vb 5 = true then fld openE.vc 32 32 else hLen (handleOf (openBusy.tile 0) (fld openE.vb 8 6)) / 64) ≤ 4194304 ∧ openBusy.rangeMapped 0 ((if bit openE.vb 5 = true then fld openE.vc 32 32 else hLen (handleOf (openBusy.tile 0) (fld openE.vb 8 6)) / 64) * 64 / 65536 + 2) (fld openE.vb 22 42 * 64) ((if bit openE.vb 5 = true then fld openE.vc 32 32 else hLen (handleOf (openBusy.tile 0) (fld openE.vb 8 6)) / 64) * 64) = true else hValid (handleOf (openBusy.tile 0) (fld openE.vb 8 6)) = true ∧ hR (handleOf (openBusy.tile 0) (fld openE.vb 8 6)) = true ∧ hRmt (handleOf (openBusy.tile 0) (fld openE.vb 8 6)) = true ∧ hOwn (handleOf (openBusy.tile 0) (fld openE.vb 8 6)) = false ∧ hLen (handleOf (openBusy.tile 0) (fld openE.vb 8 6)) % 64 = 0 ∧ 128 ≤ hLen (handleOf (openBusy.tile 0) (fld openE.vb 8 6)))) :=
    ⟨⟨by decide +kernel, by decide +kernel, by decide +kernel, by decide +kernel, by decide +kernel, by decide +kernel, by decide +kernel, by decide +kernel⟩, by decide +kernel, by decide +kernel, by decide +kernel⟩

theorem witness_sendOpens_1 :
      (Starts sendQ 0 (0 : LTile) Eng.xc (193 : BitVec 8) sendE others1) ∧
      (bit sendE.vb 4 = true) ∧
      (sendE.vb &&& (18446744073441116352 : Word) = (0 : Word)) ∧
      (bit sendE.vb 5 = false → fld sendE.vb 8 4 = 0) ∧
      (sendE.vc = (0 : Word)) ∧
      ((((sendQ.tile 0).epAt (fld sendE.vb 0 4)).state = EpState.idle ∨ ((sendQ.tile 0).epAt (fld sendE.vb 0 4)).state = EpState.closed) ∧ if bit sendE.vb 5 = true then (sendQ.part 0).ports.testBit (fld sendE.vb 8 4) = true else fld sendE.vb 16 12 < (sendQ.part 0).count) :=
    ⟨⟨by decide +kernel, by decide +kernel, by decide +kernel, by decide +kernel, by decide +kernel, by decide +kernel, by decide +kernel, by decide +kernel⟩, by decide +kernel, by decide +kernel, by decide +kernel, by decide +kernel, by decide +kernel⟩

theorem witness_sendOpens_2 :
      (Starts sendBadQ 0 (0 : LTile) Eng.xc (193 : BitVec 8) sendBad others1) ∧
      (bit sendBad.vb 4 = true) ∧
      (sendBad.vb &&& (18446744073441116352 : Word) = (0 : Word)) ∧
      (bit sendBad.vb 5 = false → fld sendBad.vb 8 4 = 0) ∧
      (sendBad.vc = (0 : Word)) ∧
      (¬((((sendBadQ.tile 0).epAt (fld sendBad.vb 0 4)).state = EpState.idle ∨ ((sendBadQ.tile 0).epAt (fld sendBad.vb 0 4)).state = EpState.closed) ∧ if bit sendBad.vb 5 = true then (sendBadQ.part 0).ports.testBit (fld sendBad.vb 8 4) = true else fld sendBad.vb 16 12 < (sendBadQ.part 0).count)) :=
    ⟨⟨by decide +kernel, by decide +kernel, by decide +kernel, by decide +kernel, by decide +kernel, by decide +kernel, by decide +kernel, by decide +kernel⟩, by decide +kernel, by decide +kernel, by decide +kernel, by decide +kernel, by decide +kernel⟩

theorem witness_closes_1 :
      (Starts cloIdle 0 (0 : LTile) Eng.xc (194 : BitVec 8) cloE others1) ∧
      (BitVec.toNat cloE.vb < 16) ∧
      (((cloIdle.tile 0).epAt (fld cloE.vb 0 4)).state = EpState.idle) :=
    ⟨⟨by decide +kernel, by decide +kernel, by decide +kernel, by decide +kernel, by decide +kernel, by decide +kernel, by decide +kernel, by decide +kernel⟩, by decide +kernel, by decide +kernel⟩

theorem witness_closes_2_1 :
      (Starts cloClosed 0 (0 : LTile) Eng.xc (194 : BitVec 8) cloE others1) ∧
      (BitVec.toNat cloE.vb < 16) ∧
      (((cloClosed.tile 0).epAt (fld cloE.vb 0 4)).state = EpState.closed) :=
    ⟨⟨by decide +kernel, by decide +kernel, by decide +kernel, by decide +kernel, by decide +kernel, by decide +kernel, by decide +kernel, by decide +kernel⟩, by decide +kernel, by decide +kernel⟩

theorem witness_closes_2_2_1 :
      (Starts cloOpen 0 (0 : LTile) Eng.xc (194 : BitVec 8) cloE others1) ∧
      (BitVec.toNat cloE.vb < 16) ∧
      (((cloOpen.tile 0).epAt (fld cloE.vb 0 4)).state ≠ EpState.idle) ∧
      (((cloOpen.tile 0).epAt (fld cloE.vb 0 4)).state ≠ EpState.closed) ∧
      (((cloOpen.tile 0).epAt (fld cloE.vb 0 4)).send = true) :=
    ⟨⟨by decide +kernel, by decide +kernel, by decide +kernel, by decide +kernel, by decide +kernel, by decide +kernel, by decide +kernel, by decide +kernel⟩, by decide +kernel, by decide +kernel, by decide +kernel, by decide +kernel⟩

theorem witness_closes_2_2_2_1 :
      (Starts cloListen 0 (0 : LTile) Eng.xc (194 : BitVec 8) cloE others1) ∧
      (BitVec.toNat cloE.vb < 16) ∧
      (((cloListen.tile 0).epAt (fld cloE.vb 0 4)).state = EpState.listen) ∧
      (((cloListen.tile 0).epAt (fld cloE.vb 0 4)).send = false) :=
    ⟨⟨by decide +kernel, by decide +kernel, by decide +kernel, by decide +kernel, by decide +kernel, by decide +kernel, by decide +kernel, by decide +kernel⟩, by decide +kernel, by decide +kernel, by decide +kernel⟩

theorem witness_closes_2_2_2_2 :
      (Starts cloDrain 0 (0 : LTile) Eng.xc (194 : BitVec 8) cloE others1) ∧
      (BitVec.toNat cloE.vb < 16) ∧
      (((cloDrain.tile 0).epAt (fld cloE.vb 0 4)).state = EpState.opening ∨ ((cloDrain.tile 0).epAt (fld cloE.vb 0 4)).state = EpState.isOpen ∨ ((cloDrain.tile 0).epAt (fld cloE.vb 0 4)).state = EpState.draining) ∧
      (((cloDrain.tile 0).epAt (fld cloE.vb 0 4)).send = false) :=
    ⟨⟨by decide +kernel, by decide +kernel, by decide +kernel, by decide +kernel, by decide +kernel, by decide +kernel, by decide +kernel, by decide +kernel⟩, by decide +kernel, by decide +kernel, by decide +kernel⟩

theorem witness_sends_1_1 :
      (Starts sndOpen 0 (0 : LTile) Eng.xc (195 : BitVec 8) sndE others1) ∧
      (sndE.vb &&& (18446744069615910912 : Word) = (0 : Word)) ∧
      (sndE.vc &&& (4278190080 : Word) = (0 : Word)) ∧
      (hValid (handleOf (sndOpen.tile 0) (fld sndE.vb 20 6)) = true) ∧
      (hR (handleOf (sndOpen.tile 0) (fld sndE.vb 20 6)) = true) ∧
      (fld sndE.vb 0 20 + fld sndE.vc 0 24 ≤ hLen (handleOf (sndOpen.tile 0) (fld sndE.vb 20 6))) ∧
      (fld sndE.vb 0 20 % 8 = 0) ∧
      (((sndOpen.tile 0).epAt (fld sndE.vb 28 4)).send = true) ∧
      (((sndOpen.tile 0).epAt (fld sndE.vb 28 4)).state = EpState.isOpen) ∧
      (((sndOpen.tile 0).epAt (fld sndE.vb 28 4)).pend.toNat ≠ 8) ∧
      (msgUnits (fld sndE.vc 0 24) ≤ ((sndOpen.tile 0).epAt (fld sndE.vb 28 4)).runits) :=
    ⟨⟨by decide +kernel, by decide +kernel, by decide +kernel, by decide +kernel, by decide +kernel, by decide +kernel, by decide +kernel, by decide +kernel⟩, by decide +kernel, by decide +kernel, by decide +kernel, by decide +kernel, by decide +kernel, by decide +kernel, by decide +kernel, by decide +kernel, by decide +kernel, by decide +kernel⟩

theorem witness_sends_1_2_1 :
      (Starts sndSmall 0 (0 : LTile) Eng.xc (195 : BitVec 8) sndE others1) ∧
      (sndE.vb &&& (18446744069615910912 : Word) = (0 : Word)) ∧
      (sndE.vc &&& (4278190080 : Word) = (0 : Word)) ∧
      (hValid (handleOf (sndSmall.tile 0) (fld sndE.vb 20 6)) = true) ∧
      (hR (handleOf (sndSmall.tile 0) (fld sndE.vb 20 6)) = true) ∧
      (fld sndE.vb 0 20 + fld sndE.vc 0 24 ≤ hLen (handleOf (sndSmall.tile 0) (fld sndE.vb 20 6))) ∧
      (fld sndE.vb 0 20 % 8 = 0) ∧
      (((sndSmall.tile 0).epAt (fld sndE.vb 28 4)).send = true) ∧
      (((sndSmall.tile 0).epAt (fld sndE.vb 28 4)).state = EpState.isOpen) ∧
      (((sndSmall.tile 0).epAt (fld sndE.vb 28 4)).pend.toNat ≠ 8) ∧
      (((sndSmall.tile 0).epAt (fld sndE.vb 28 4)).runits < msgUnits (fld sndE.vc 0 24)) :=
    ⟨⟨by decide +kernel, by decide +kernel, by decide +kernel, by decide +kernel, by decide +kernel, by decide +kernel, by decide +kernel, by decide +kernel⟩, by decide +kernel, by decide +kernel, by decide +kernel, by decide +kernel, by decide +kernel, by decide +kernel, by decide +kernel, by decide +kernel, by decide +kernel, by decide +kernel⟩

theorem witness_sends_1_2_2_1 :
      (Starts sndLate 0 (0 : LTile) Eng.xc (195 : BitVec 8) sndE others1) ∧
      (sndE.vb &&& (18446744069615910912 : Word) = (0 : Word)) ∧
      (sndE.vc &&& (4278190080 : Word) = (0 : Word)) ∧
      (hValid (handleOf (sndLate.tile 0) (fld sndE.vb 20 6)) = true) ∧
      (hR (handleOf (sndLate.tile 0) (fld sndE.vb 20 6)) = true) ∧
      (fld sndE.vb 0 20 + fld sndE.vc 0 24 ≤ hLen (handleOf (sndLate.tile 0) (fld sndE.vb 20 6))) ∧
      (fld sndE.vb 0 20 % 8 = 0) ∧
      (((sndLate.tile 0).epAt (fld sndE.vb 28 4)).send = true) ∧
      (((sndLate.tile 0).epAt (fld sndE.vb 28 4)).state = EpState.isOpen) ∧
      (((sndLate.tile 0).epAt (fld sndE.vb 28 4)).pend.toNat = 8) :=
    ⟨⟨by decide +kernel, by decide +kernel, by decide +kernel, by decide +kernel, by decide +kernel, by decide +kernel, by decide +kernel, by decide +kernel⟩, by decide +kernel, by decide +kernel, by decide +kernel, by decide +kernel, by decide +kernel, by decide +kernel, by decide +kernel, by decide +kernel, by decide +kernel⟩

theorem witness_sends_1_2_2_2_1 :
      (Starts sndClosed 0 (0 : LTile) Eng.xc (195 : BitVec 8) sndE others1) ∧
      (sndE.vb &&& (18446744069615910912 : Word) = (0 : Word)) ∧
      (sndE.vc &&& (4278190080 : Word) = (0 : Word)) ∧
      (hValid (handleOf (sndClosed.tile 0) (fld sndE.vb 20 6)) = true) ∧
      (hR (handleOf (sndClosed.tile 0) (fld sndE.vb 20 6)) = true) ∧
      (fld sndE.vb 0 20 + fld sndE.vc 0 24 ≤ hLen (handleOf (sndClosed.tile 0) (fld sndE.vb 20 6))) ∧
      (fld sndE.vb 0 20 % 8 = 0) ∧
      (((sndClosed.tile 0).epAt (fld sndE.vb 28 4)).send = true) ∧
      (((sndClosed.tile 0).epAt (fld sndE.vb 28 4)).state = EpState.closed) :=
    ⟨⟨by decide +kernel, by decide +kernel, by decide +kernel, by decide +kernel, by decide +kernel, by decide +kernel, by decide +kernel, by decide +kernel⟩, by decide +kernel, by decide +kernel, by decide +kernel, by decide +kernel, by decide +kernel, by decide +kernel, by decide +kernel, by decide +kernel⟩

theorem witness_sends_1_2_2_2_2 :
      (Starts sndIdle 0 (0 : LTile) Eng.xc (195 : BitVec 8) sndE others1) ∧
      (sndE.vb &&& (18446744069615910912 : Word) = (0 : Word)) ∧
      (sndE.vc &&& (4278190080 : Word) = (0 : Word)) ∧
      (hValid (handleOf (sndIdle.tile 0) (fld sndE.vb 20 6)) = true) ∧
      (hR (handleOf (sndIdle.tile 0) (fld sndE.vb 20 6)) = true) ∧
      (fld sndE.vb 0 20 + fld sndE.vc 0 24 ≤ hLen (handleOf (sndIdle.tile 0) (fld sndE.vb 20 6))) ∧
      (fld sndE.vb 0 20 % 8 = 0) ∧
      (((sndIdle.tile 0).epAt (fld sndE.vb 28 4)).send = false ∨ ((sndIdle.tile 0).epAt (fld sndE.vb 28 4)).state ≠ EpState.isOpen ∧ ((sndIdle.tile 0).epAt (fld sndE.vb 28 4)).state ≠ EpState.closed) :=
    ⟨⟨by decide +kernel, by decide +kernel, by decide +kernel, by decide +kernel, by decide +kernel, by decide +kernel, by decide +kernel, by decide +kernel⟩, by decide +kernel, by decide +kernel, by decide +kernel, by decide +kernel, by decide +kernel, by decide +kernel, by decide +kernel⟩

theorem witness_sends_2 :
      (sres.runs 0 = some 0) ∧
      ((sres.tile 0).pad.ecc = []) ∧
      ((sres.tile 0).pad.corrWords = []) ∧
      ((sres.tile 0).xc.run = some (XcRun.send 5 128 100 (buf 65536 100000) (7 : BitVec 32))) ∧
      ((sres.tile 0).xcq.started = [{ e := held0, ready := false, ret := none : Started }]) ∧
      ((sent (sres.tile 0) { ((sres.tile 0).epAt 5) with stall := ((sres.tile 0).epAt 5).stall + BitVec.ofNat 64 11 : Endpoint } (5) ((sres.part 0).relOf 0) 128 100 (buf 65536 100000) (7 : BitVec 32)).snd.snd = true) :=
    ⟨by decide +kernel, by decide +kernel, by decide +kernel, by decide +kernel, by decide +kernel, by decide +kernel⟩

theorem witness_selections_1_1 :
      (Starts selBad 0 (0 : LTile) Eng.xc (196 : BitVec 8) (selE 8 true) others1) ∧
      (BitVec.toNat (selE 8 true).vb < 2 ^ 17) ∧
      (¬((List.filter (fun (j : Nat) => (fld (selE 8 true).vb 0 16).testBit j) (List.range 16)).length ≤ 8 ∧ ∀ (j : Fin 16), (fld (selE 8 true).vb 0 16).testBit ↑j = true → ((selBad.tile 0).epAt ↑j).send = false ∧ ((selBad.tile 0).epAt ↑j).state ≠ EpState.idle ∧ ((selBad.tile 0).epAt ↑j).state ≠ EpState.opening)) :=
    ⟨⟨by decide +kernel, by decide +kernel, by decide +kernel, by decide +kernel, by decide +kernel, by decide +kernel, by decide +kernel, by decide +kernel⟩, by decide +kernel, by decide +kernel⟩

theorem witness_selections_1_2_1 :
      (Starts selNone 0 (0 : LTile) Eng.xc (196 : BitVec 8) (selE 0 true) others1) ∧
      (BitVec.toNat (selE 0 true).vb < 2 ^ 17) ∧
      (fld (selE 0 true).vb 0 16 = 0) :=
    ⟨⟨by decide +kernel, by decide +kernel, by decide +kernel, by decide +kernel, by decide +kernel, by decide +kernel, by decide +kernel, by decide +kernel⟩, by decide +kernel, by decide +kernel⟩

theorem witness_selections_1_2_2_1 :
      (Starts selTwo 0 (0 : LTile) Eng.xc (196 : BitVec 8) (selE 136 true) others1) ∧
      (BitVec.toNat (selE 136 true).vb < 2 ^ 17) ∧
      ((List.filter (fun (j : Nat) => (fld (selE 136 true).vb 0 16).testBit j) (List.range 16)).length ≤ 8 ∧ ∀ (j : Fin 16), (fld (selE 136 true).vb 0 16).testBit ↑j = true → ((selTwo.tile 0).epAt ↑j).send = false ∧ ((selTwo.tile 0).epAt ↑j).state ≠ EpState.idle ∧ ((selTwo.tile 0).epAt ↑j).state ≠ EpState.opening) ∧
      (chosen (selTwo.tile 0) (fld (selE 136 true).vb 0 16) (bit (selE 136 true).vb 16) (7 : Fin 16)) :=
    ⟨⟨by decide +kernel, by decide +kernel, by decide +kernel, by decide +kernel, by decide +kernel, by decide +kernel, by decide +kernel, by decide +kernel⟩, by decide +kernel, by decide +kernel, by decide +kernel⟩

theorem witness_selections_1_2_2_2 :
      (Starts selWait 0 (0 : LTile) Eng.xc (196 : BitVec 8) (selE 8 true) others1) ∧
      (BitVec.toNat (selE 8 true).vb < 2 ^ 17) ∧
      ((List.filter (fun (j : Nat) => (fld (selE 8 true).vb 0 16).testBit j) (List.range 16)).length ≤ 8 ∧ ∀ (j : Fin 16), (fld (selE 8 true).vb 0 16).testBit ↑j = true → ((selWait.tile 0).epAt ↑j).send = false ∧ ((selWait.tile 0).epAt ↑j).state ≠ EpState.idle ∧ ((selWait.tile 0).epAt ↑j).state ≠ EpState.opening) ∧
      (fld (selE 8 true).vb 0 16 ≠ 0) ∧
      (∀ (j : Fin 16), (fld (selE 8 true).vb 0 16).testBit ↑j = true → ¬selects ((selWait.tile 0).epAt ↑j)) :=
    ⟨⟨by decide +kernel, by decide +kernel, by decide +kernel, by decide +kernel, by decide +kernel, by decide +kernel, by decide +kernel, by decide +kernel⟩, by decide +kernel, by decide +kernel, by decide +kernel, by decide +kernel⟩

theorem witness_selections_2 :
      (selRun.runs 0 = some 0) ∧
      ((selRun.tile 0).pad.corrWords = []) ∧
      ((selRun.tile 0).xc.run = some (XcRun.select 32 true)) ∧
      ((selRun.tile 0).xcq.started = [{ e := held0, ready := false, ret := none : Started }]) ∧
      (chosen (selRun.tile 0) 32 true (5 : Fin 16)) :=
    ⟨by decide +kernel, by decide +kernel, by decide +kernel, by decide +kernel, by decide +kernel⟩

theorem witness_consumes_1 :
      (Starts dnSend 0 (0 : LTile) Eng.xc (197 : BitVec 8) dnE others1) ∧
      (BitVec.toNat dnE.vb < 16) ∧
      (((dnSend.tile 0).epAt (fld dnE.vb 0 4)).send = true ∨ ((dnSend.tile 0).epAt (fld dnE.vb 0 4)).recs = [] ∨ ∃ (r : RingRec), ∃ (rs : List RingRec), ((dnSend.tile 0).epAt (fld dnE.vb 0 4)).recs = r :: rs ∧ r.kind = 2) :=
    ⟨⟨by decide +kernel, by decide +kernel, by decide +kernel, by decide +kernel, by decide +kernel, by decide +kernel, by decide +kernel, by decide +kernel⟩, by decide +kernel, .inl (by decide +kernel)⟩

theorem witness_consumes_2_1 :
      (Starts dnTwo 0 (0 : LTile) Eng.xc (197 : BitVec 8) dnE others1) ∧
      (BitVec.toNat dnE.vb < 16) ∧
      (((dnTwo.tile 0).epAt (fld dnE.vb 0 4)).send = false) ∧
      (((dnTwo.tile 0).epAt (fld dnE.vb 0 4)).recs = [rec1, rec2]) ∧
      (rec1.kind ≠ 2) ∧
      (((dnTwo.tile 0).epAt (fld dnE.vb 0 4)).state = EpState.isOpen) ∧
      (∀ (q : RingRec), q ∈ [rec2].head? → q.kind ≠ 2) :=
    ⟨⟨by decide +kernel, by decide +kernel, by decide +kernel, by decide +kernel, by decide +kernel, by decide +kernel, by decide +kernel, by decide +kernel⟩, by decide +kernel, by decide +kernel, by decide +kernel, by decide +kernel, by decide +kernel, by decide +kernel⟩

theorem witness_consumes_2_2_1 :
      (Starts dnPad 0 (0 : LTile) Eng.xc (197 : BitVec 8) dnE others1) ∧
      (BitVec.toNat dnE.vb < 16) ∧
      (((dnPad.tile 0).epAt (fld dnE.vb 0 4)).send = false) ∧
      (((dnPad.tile 0).epAt (fld dnE.vb 0 4)).recs = [rec1, pad1, rec2]) ∧
      (rec1.kind ≠ 2) ∧
      (((dnPad.tile 0).epAt (fld dnE.vb 0 4)).state = EpState.isOpen) ∧
      ([pad1, rec2] = [pad1, rec2]) ∧
      (pad1.kind = 2) :=
    ⟨⟨by decide +kernel, by decide +kernel, by decide +kernel, by decide +kernel, by decide +kernel, by decide +kernel, by decide +kernel, by decide +kernel⟩, by decide +kernel, by decide +kernel, by decide +kernel, by decide +kernel, by decide +kernel, by decide +kernel, by decide +kernel⟩

theorem witness_consumes_2_2_2_1 :
      (Starts dnLast 0 (0 : LTile) Eng.xc (197 : BitVec 8) dnE others1) ∧
      (BitVec.toNat dnE.vb < 16) ∧
      (((dnLast.tile 0).epAt (fld dnE.vb 0 4)).send = false) ∧
      (((dnLast.tile 0).epAt (fld dnE.vb 0 4)).recs = [rec1]) ∧
      (rec1.kind ≠ 2) ∧
      (((dnLast.tile 0).epAt (fld dnE.vb 0 4)).state = EpState.draining) :=
    ⟨⟨by decide +kernel, by decide +kernel, by decide +kernel, by decide +kernel, by decide +kernel, by decide +kernel, by decide +kernel, by decide +kernel⟩, by decide +kernel, by decide +kernel, by decide +kernel, by decide +kernel, by decide +kernel⟩

theorem witness_consumes_2_2_2_2 :
      (Starts dnMore 0 (0 : LTile) Eng.xc (197 : BitVec 8) dnE others1) ∧
      (BitVec.toNat dnE.vb < 16) ∧
      (((dnMore.tile 0).epAt (fld dnE.vb 0 4)).send = false) ∧
      (((dnMore.tile 0).epAt (fld dnE.vb 0 4)).recs = [rec1, rec2]) ∧
      (rec1.kind ≠ 2) ∧
      (rec2 ∈ [rec2].head?) ∧
      (((dnMore.tile 0).epAt (fld dnE.vb 0 4)).state = EpState.draining) ∧
      (rec2.kind ≠ 2) :=
    ⟨⟨by decide +kernel, by decide +kernel, by decide +kernel, by decide +kernel, by decide +kernel, by decide +kernel, by decide +kernel, by decide +kernel⟩, by decide +kernel, by decide +kernel, by decide +kernel, by decide +kernel, by decide +kernel, by decide +kernel, by decide +kernel⟩

end T06

namespace T07

def others1 := [ent 0x99 1 2 3]

def W (n : Nat) : Word := BitVec.ofNat 64 n

def words (ws : List Nat) : List Byte := ws.flatMap (leBytes 8)

def dWrite := words [1 + 16 + 32 + 3*256 + 23*2^12 + 12*2^18 + 136*2^32, 64 + 128*2^32, 1, 0]

def dRed := words [2 + 23*2^12 + 12*2^18 + 384*2^32, 64 + 128*2^32, 5*2^16, 0]

def dDma := words [5 + 23*2^12, 4096, 2*2^56, 0]

def dCb := words [3 + 16 + 23*2^12 + 256*2^32, 64 + 128*2^32, 3*2^28, 0]

def dAnn := words [4 + 3*256 + 23*2^12 + 12*2^18, 64 + 128*2^32, 1 + 2^32 + 5*2^36 + 7 * 2^40 + 2^60, 999]

def dmaW := words [1 + 13*2^12 + 1*2^32, 8, 64, 0, 0, 0, 0, 0]

def node0 : TreeNode := ⟨false, none, [], [], []⟩

/-- A tile whose handle 20 holds a descriptor. -/
def withDesc (d : List Byte) : State :=
  let s := upd demo fun t =>
    let t := { t with pad := { t.pad with h := ((((t.pad.h.set 20 (buf 131072 8192)).set 21 (buf 262144 16384)).set 23 (buf 65536 20000)).set 13 (buf 8192 128)).set 1 (buf 131072 8192) } }
    let t := fillMem t t.pad.h[23] 4096 dmaW
    fillMem t t.pad.h[20] 0 d
  (s.modPart 0 (fun x => { x with ports := 0xFFFF, count := 2, trees := Tab.put [] (4096 * 5) node0 })).setPort 5 { s.port 5 with state := .active }

def curOf (s : State) : XCur := match ((s.tile 0).reach (s.env 0 0) (handleOf (s.tile 0) 20) 0).2 with | .ok c => c | _ => ⟨XDesc.ofWords 0 0 0 0, 0, none, 0⟩

def putE (n : Nat) : QEntry := ent 0xC0 (W (20 * 2^20)) (W n) 0

def putQ (n : Nat) : State := qd (withDesc dWrite) .xc (putE n)

def curWrite : XCur := curOf (putQ 1024)

/-- The walker's last descriptor is at hand. -/
def walking (d : List Byte) (g : XCur → XCur) : State := upd (withDesc d) fun t => { t with bl := { t.bl with firing := some (0, 1), run := true }, xc := { t.xc with walkCur := some (g (curOf (withDesc d))) } }

def walked (t : Tile) : Tile := { t with xc := { t.xc with walkCur := none, walked := t.xc.walked + 1 }, bl := { t.bl with firing := some (1, 1) } }

def wWrite := walking dWrite id

def cWrite := curOf (withDesc dWrite)

def wRed := walking dRed fun c => { c with sent := 4 }

def cRed : XCur := { curOf (withDesc dRed) with sent := 4 }

def waitedRed : Tile := let t := wRed.tile 0; { t with xc := { t.xc with redwait := t.xc.redwait + BitVec.ofNat 64 9 } }

def wRedAll := walking dRed id

def cRedAll : XCur := curOf (withDesc dRed)

def wCb := walking dCb id

def cCb := curOf (withDesc dCb)

def wAnn := walking dAnn id

def cAnn := curOf (withDesc dAnn)

def wDma := walking dDma id

def cDma := curOf (withDesc dDma)

def dDesc : DmaDesc := cDma.dma.getD ⟨0, false, false, 0, 0, 0, 0, 0, 0, 0, 0, 0, 0, 0⟩

def queuedDma : Tile := let t := wDma.tile 0; { t with xc := { t.xc with streams := t.xc.streams.set 2 { t.xc.streams[2] with queue := t.xc.streams[2].queue ++ [dDesc] } } }

def fullDma : State := upd wDma fun t => { t with xc := { t.xc with streams := t.xc.streams.set 2 { t.xc.streams[2] with queue := List.replicate 8 dDesc } } }

def w0 : WriteBody := ⟨1,2,[3],none,false,none,some 1⟩

def up5 := withDesc dWrite

def down4 : State := demo.setPort 4 { demo.port 4 with state := .down }

theorem witness_puts_1 :
      (Starts (putQ 0) 0 (0 : LTile) Eng.xc (192 : BitVec 8) (putE 0) others1) ∧
      (BitVec.toNat (putE 0).va < 2 ^ 26) ∧
      (BitVec.toNat (putE 0).vb ≤ 1024) ∧
      (hValid (handleOf ((putQ 0).tile 0) (fld (putE 0).va 20 6)) = true) ∧
      (hR (handleOf ((putQ 0).tile 0) (fld (putE 0).va 20 6)) = true) ∧
      (fld (putE 0).va 0 20 % 32 = 0) ∧
      (BitVec.toNat (putE 0).vb = 0) :=
    ⟨⟨by decide +kernel, by decide +kernel, by decide +kernel, by decide +kernel, by decide +kernel, by decide +kernel, by decide +kernel, by decide +kernel⟩, by decide +kernel, by decide +kernel, by decide +kernel, by decide +kernel, by decide +kernel, by decide +kernel⟩

theorem witness_puts_2 :
      (Starts (putQ 1024) 0 (0 : LTile) Eng.xc (192 : BitVec 8) (putE 1024) others1) ∧
      (BitVec.toNat (putE 1024).va < 2 ^ 26) ∧
      (BitVec.toNat (putE 1024).vb ≤ 1024) ∧
      (hValid (handleOf ((putQ 1024).tile 0) (fld (putE 1024).va 20 6)) = true) ∧
      (hR (handleOf ((putQ 1024).tile 0) (fld (putE 1024).va 20 6)) = true) ∧
      (fld (putE 1024).va 0 20 % 32 = 0) ∧
      (BitVec.toNat (putE 1024).vb ≠ 0) ∧
      (reaches (putQ 1024) 0 (0) (handleOf ((putQ 1024).tile 0) (fld (putE 1024).va 20 6)) (fld (putE 1024).va 0 20) curWrite) :=
    ⟨⟨by decide +kernel, by decide +kernel, by decide +kernel, by decide +kernel, by decide +kernel, by decide +kernel, by decide +kernel, by decide +kernel⟩, by decide +kernel, by decide +kernel, by decide +kernel, by decide +kernel, by decide +kernel, by decide +kernel, by decide +kernel⟩

theorem witness_writesSent :
      (Issues wWrite 0 (0 : LTile) true 1 cWrite) ∧
      (movesOn wWrite 0 (0) (wWrite.tile 0) true (walked (wWrite.tile 0))) :=
    ⟨⟨by decide +kernel, by decide +kernel, by decide +kernel, by decide +kernel, by decide +kernel⟩, by unfold movesOn; rw [if_pos rfl]; exact ⟨0, 1, by decide +kernel, .inl ⟨by decide, rfl⟩⟩⟩

theorem witness_reducesSent_1 :
      (Issues wRed 0 (0 : LTile) true 2 cRed) ∧
      ((wRed.part 0).trees.find? (4096 * cRed.d.tree + (wRed.part 0).relOf 0) = some node0) ∧
      (cRed.sent ≤ cRed.d.len / 64) ∧
      (cRed.d.len / 64 ≠ 0 → cRed.sent < cRed.d.len / 64) ∧
      (cRed.d.len / 64 - cRed.sent ≤ 4 - node0.own.length) ∧
      (movesOn wRed 0 0 { (wRed.tile 0) with xc := { (wRed.tile 0).xc with redwait := (wRed.tile 0).xc.redwait + BitVec.ofNat 64 9 : Xc } : Tile } true (walked waitedRed)) :=
    ⟨⟨by decide +kernel, by decide +kernel, by decide +kernel, by decide +kernel, by decide +kernel⟩, by decide +kernel, by decide +kernel, by decide +kernel, by decide +kernel, by unfold movesOn; rw [if_pos rfl]; exact ⟨0, 1, by decide +kernel, .inl ⟨by decide, rfl⟩⟩⟩

theorem witness_reducesSent_2 :
      (Issues wRedAll 0 (0 : LTile) true 2 cRedAll) ∧
      ((wRedAll.part 0).trees.find? (4096 * cRedAll.d.tree + (wRedAll.part 0).relOf 0) = some node0) ∧
      (cRedAll.sent ≤ cRedAll.d.len / 64) ∧
      (cRedAll.d.len / 64 ≠ 0 → cRedAll.sent < cRedAll.d.len / 64) ∧
      (0 < 4 - node0.own.length) ∧
      (4 - node0.own.length < cRedAll.d.len / 64 - cRedAll.sent) :=
    ⟨⟨by decide +kernel, by decide +kernel, by decide +kernel, by decide +kernel, by decide +kernel⟩, by decide +kernel, by decide +kernel, by decide +kernel, by decide +kernel, by decide +kernel⟩

theorem witness_boardAndAnnounce_1 :
      (movesOn wCb 0 (0) (wCb.tile 0) true (walked (wCb.tile 0))) ∧
      (Issues wCb 0 (0 : LTile) true 3 cCb) :=
    ⟨by unfold movesOn; rw [if_pos rfl]; exact ⟨0, 1, by decide +kernel, .inl ⟨by decide, rfl⟩⟩, ⟨by decide +kernel, by decide +kernel, by decide +kernel, by decide +kernel, by decide +kernel⟩⟩

theorem witness_boardAndAnnounce_2 :
      (movesOn wAnn 0 (0) (wAnn.tile 0) true (walked (wAnn.tile 0))) ∧
      (Issues wAnn 0 (0 : LTile) true 4 cAnn) :=
    ⟨by unfold movesOn; rw [if_pos rfl]; exact ⟨0, 1, by decide +kernel, .inl ⟨by decide, rfl⟩⟩, ⟨by decide +kernel, by decide +kernel, by decide +kernel, by decide +kernel, by decide +kernel⟩⟩

theorem witness_dmaAccepted_1 :
      (Issues wDma 0 (0 : LTile) true 5 cDma) ∧
      (cDma.dma = some dDesc) ∧
      (cDma.d.stream = 2) ∧
      ((wDma.tile 0).xc.streams[(2 : Fin 4)].queue.length < 8) ∧
      (movesOn wDma 0 0 { (wDma.tile 0) with xc := { (wDma.tile 0).xc with streams := (wDma.tile 0).xc.streams.set 2 { (wDma.tile 0).xc.streams[(2 : Fin 4)] with queue := (wDma.tile 0).xc.streams[(2 : Fin 4)].queue ++ [dDesc] : Machine.Stream } (by decide) : Xc } : Tile } true (walked queuedDma)) :=
    ⟨⟨by decide +kernel, by decide +kernel, by decide +kernel, by decide +kernel, by decide +kernel⟩, by decide +kernel, by decide +kernel, by decide +kernel, by unfold movesOn; rw [if_pos rfl]; exact ⟨0, 1, by decide +kernel, .inl ⟨by decide, rfl⟩⟩⟩

theorem witness_dmaAccepted_2 :
      (Issues fullDma 0 (0 : LTile) true 5 cDma) ∧
      (cDma.dma = some dDesc) ∧
      (cDma.d.stream = 2) ∧
      (8 ≤ (fullDma.tile 0).xc.streams[(2 : Fin 4)].queue.length) :=
    ⟨⟨by decide +kernel, by decide +kernel, by decide +kernel, by decide +kernel, by decide +kernel⟩, by decide +kernel, by decide +kernel, by decide +kernel⟩

theorem witness_asked_1 :
      (0 < (demo.part 0).count) ∧
      ((demo.seat ((demo.part 0).logical 0)).valid = true) ∧
      ((demo.seat ((demo.part 0).logical 0)).part = 0) :=
    ⟨by decide +kernel, by decide +kernel, by decide +kernel⟩

theorem witness_asked_2_1 :
      ((demo.part 0).count ≤ 2) ∧
      (w0.writer = some 1) :=
    ⟨by decide +kernel, by decide +kernel⟩

theorem witness_asked_2_2_1 :
      ((up5.port 5).state ≠ PortState.down) :=
    by decide +kernel

theorem witness_asked_2_2_2_1 :
      ((down4.port 4).state = PortState.down) :=
    by decide +kernel

theorem witness_asked_2_2_2_2_2 :
      ((up5.part 0).trees.find? (4096 * 5 + (up5.part 0).relOf 0) = some node0) :=
    by decide +kernel

end T07

namespace T08

def big0 := upd demo fun t => { t with pad := { t.pad with h := (((t.pad.h.set 20 (buf 131072 8192)).set 21 (buf 262144 16384)).set 23 (buf 65536 20000)).set 13 (buf 8192 128) } }

def big := (big0.modPart 0 (fun x => { x with ports := 0xFFFF, count := 2, flows := Tab.put [] 7 ⟨4, 0, 0, []⟩ })).setPort 5 { big0.port 5 with state := .active }

def pk0 : Packet := ⟨.tile 1, .tile 1, 0, [], .ctl (.timeReq 1 1)⟩

def pk (src : Place) (b : Body) : Packet := ⟨src, .tile 0, 0, [⟨0, false, 3⟩], b⟩

def sentTo (s : State) (src : Place) (b : Body) : State := { s with net := [pk0, pk src b, pk0] }

def wPlain : WriteBody := ⟨20, 12, rnd 4 24, some 3, true, none, some 1⟩

def wShut : WriteBody := ⟨14, 120, rnd 4 24, none, true, none, some 1⟩

def wMute : WriteBody := ⟨13, 120, rnd 4 24, none, true, none, none⟩

def sPlain := sentTo big (.tile 1) (.write wPlain)

def sShut := sentTo big (.port 5) (.write wShut)

def sShutTile := sentTo big (.tile 1) (.write wShut)

def sMute := sentTo big (.tile 1) (.write wMute)

def ann1 : Body := .ctl (.announce none 3 7 0 5 0 0)

def sAnn := sentTo big (.port 5) ann1

def fail1 : Body := .ctl (.writeFail 0 4 1 3)

def sFail := sentTo big (.port 5) fail1

def n0 : Ends := ⟨5, 3, 0, 1⟩

def pkOther : Packet := ⟨.tile 1, .tile 0, 3, [], .marker n0⟩

def sOther : State := { big with net := [pk0, pkOther] }

def epS (s : State) (k : Nat) (x : Endpoint) : State := upd s fun t => withEp t k x

def rc0 : Endpoint := { Endpoint.reset with state := .isOpen, peerep := 3, peertile := 1, runits := 16, seq := 9, handle := 20, wpos := 4 }

def req1 : Body := .ctl (.openReq n0)

def sListen := epS (sentTo big (.port 5) req1) 5 { rc0 with state := .listen }

def sHold := epS (sentTo big (.port 5) req1) 5 { rc0 with state := .idle }

def sBusy := epS (sentTo big (.port 5) req1) 5 rc0

def e0 := ent 0xC0 1 2 3

def runS (s : State) (r : XcRun) : State := upd s fun t => { t with xc := { t.xc with run := some r }, xcq := { t.xcq with started := [⟨e0, false, none⟩] } }

def sd0 : Endpoint := { rc0 with send := true }

def rep1 : Body := .ctl (.openRep n0 4 99)

def sRep := runS (epS (sentTo big (.port 5) rep1) 5 { sd0 with state := .opening }) (.openSend 5)

def ask1 : OpenAsk := ⟨some 5, n0, 77⟩

def sAsk := epS big 5 { rc0 with state := .idle, held := some ask1 }

def pass1 : Body := .ctl (.passes 5 1 40)

def sPass := epS (sentTo big (.port 5) pass1) 5 sd0

def trunc1 : Body := .ctl (.truncNotice n0 40)

def sTrunc := epS (sentTo big (.tile 1) trunc1) 5 sd0

def close1 : Body := .ctl (.closeNotice n0)

def sClose := epS (sentTo big (.tile 1) close1) 5 sd0

def sCloseRun := runS sClose (.send 5 0 0 0 0)

def f0 : Flit := ⟨n0, 9, 100, 77, 3, false, 0, rnd 4 64⟩

def flQ (y : Endpoint) (f : Flit) : State := epS (sentTo big (.tile 1) (.flit f)) 5 y

def f2 : Flit := { f0 with idx := 2 }

def fLate : Flit := { f0 with seq := 8 }

def flIdle := flQ .reset f0

def flIdle2 := flQ .reset f2

def flLate := flQ rc0 fLate

def flOpen := flQ rc0 f0

def flFar := flQ { rc0 with rloc := true, dva := 65536 } f0

def fPad : Flit := { f0 with pad := true, data := [], units := 5 }

def rec1 : RingRec := ⟨0, 1, 1, 1, 1⟩

def padFull := flQ { rc0 with recs := [rec1] } fPad

def asm1 : Asm := ⟨9, 1000, 77, 17, false, 2, 5⟩

def cut := epS big 5 { rc0 with asm := some asm1 }

def cutFar := epS big 5 { rc0 with asm := some asm1, rloc := true, dva := 65536 }

def mkQ (y : Endpoint) : State := epS (sentTo big (.tile 1) (.marker n0)) 5 y

def mkMore := mkQ { rc0 with recs := [rec1] }

def mkNone := mkQ rc0

def mkCut := mkQ { rc0 with asm := some asm1 }

theorem witness_remoteWrites_1 :
      (Arrives sPlain 1 (pk (Place.tile 1) (Body.write wPlain)) 0) ∧
      ((pk (Place.tile 1) (Body.write wPlain)).body = Body.write wPlain) ∧
      (wPlain.data.length ≤ 64) ∧
      (refusal (handleOf (sPlain.tile 0) wPlain.handle) wPlain.off wPlain.data.length = none) :=
    ⟨⟨by decide +kernel, by decide +kernel, by decide +kernel, by decide +kernel, by decide +kernel, by decide +kernel, by decide +kernel, by decide +kernel, by decide +kernel, by decide +kernel, by decide +kernel, by decide +kernel⟩, by decide +kernel, by decide +kernel, by decide +kernel⟩

theorem witness_remoteWrites_2_1_1 :
      (Arrives sShut 1 (pk (Place.port 5) (Body.write wShut)) 0) ∧
      ((pk (Place.port 5) (Body.write wShut)).body = Body.write wShut) ∧
      (refusal (handleOf (sShut.tile 0) wShut.handle) wShut.off wShut.data.length = some 2) ∧
      ((pk (Place.port 5) (Body.write wShut)).src = Place.port 5) ∧
      (wShut.writer = some 1) ∧
      ((sShut.port 5).state ≠ PortState.down) :=
    ⟨⟨by decide +kernel, by decide +kernel, by decide +kernel, by decide +kernel, by decide +kernel, by decide +kernel, by decide +kernel, by decide +kernel, by decide +kernel, by decide +kernel, by decide +kernel, by decide +kernel⟩, by decide +kernel, by decide +kernel, by decide +kernel, by decide +kernel, by decide +kernel⟩

theorem witness_remoteWrites_2_1_2_1 :
      (Arrives sShutTile 1 (pk (Place.tile 1) (Body.write wShut)) 0) ∧
      ((pk (Place.tile 1) (Body.write wShut)).body = Body.write wShut) ∧
      (refusal (handleOf (sShutTile.tile 0) wShut.handle) wShut.off wShut.data.length = some 2) ∧
      ((pk (Place.tile 1) (Body.write wShut)).src = Place.tile 1) ∧
      (wShut.writer = some 1) :=
    ⟨⟨by decide +kernel, by decide +kernel, by decide +kernel, by decide +kernel, by decide +kernel, by decide +kernel, by decide +kernel, by decide +kernel, by decide +kernel, by decide +kernel, by decide +kernel, by decide +kernel⟩, by decide +kernel, by decide +kernel, by decide +kernel, by decide +kernel⟩

theorem witness_remoteWrites_2_1_2_2 :
      (Arrives sMute 1 (pk (Place.tile 1) (Body.write wMute)) 0) ∧
      ((pk (Place.tile 1) (Body.write wMute)).body = Body.write wMute) ∧
      (refusal (handleOf (sMute.tile 0) wMute.handle) wMute.off wMute.data.length = some 4) ∧
      (wMute.writer = none) :=
    ⟨⟨by decide +kernel, by decide +kernel, by decide +kernel, by decide +kernel, by decide +kernel, by decide +kernel, by decide +kernel, by decide +kernel, by decide +kernel, by decide +kernel, by decide +kernel, by decide +kernel⟩, by decide +kernel, by decide +kernel, by decide +kernel⟩

theorem witness_remoteWrites_2_2 :
      (Arrives sAnn 1 (pk (Place.port 5) ann1) 0) ∧
      ((pk (Place.port 5) ann1).body = Body.ctl (Ctl.announce none 3 7 0 5 0 0)) :=
    ⟨⟨by decide +kernel, by decide +kernel, by decide +kernel, by decide +kernel, by decide +kernel, by decide +kernel, by decide +kernel, by decide +kernel, by decide +kernel, by decide +kernel, by decide +kernel, by decide +kernel⟩, by decide +kernel⟩

theorem witness_refusalsNoted_1 :
      (Arrives sFail 1 (pk (Place.port 5) fail1) 0) ∧
      ((pk (Place.port 5) fail1).body = Body.ctl (Ctl.writeFail 0 4 1 3)) :=
    ⟨⟨by decide +kernel, by decide +kernel, by decide +kernel, by decide +kernel, by decide +kernel, by decide +kernel, by decide +kernel, by decide +kernel, by decide +kernel, by decide +kernel, by decide +kernel, by decide +kernel⟩, by decide +kernel⟩

theorem witness_refusalsNoted_2 :
      (sOther.net[1]? = some pkOther) ∧
      (pkOther.dst = Place.tile 0) ∧
      (pkOther.body = Body.marker n0) ∧
      (∀ (y : Packet), y ∈ List.take 1 sOther.net → ¬(y.src = pkOther.src ∧ y.dst = pkOther.dst ∧ y.body.vc = pkOther.body.vc)) ∧
      ((sOther.seat 0).hold = false) ∧
      ((sOther.part pkOther.part).refused = false) ∧
      ((sOther.seat 0).valid = true) ∧
      ((sOther.seat 0).part ≠ pkOther.part ∨ (sOther.tile 0).pad.wiping = true) :=
    ⟨by decide +kernel, by decide +kernel, by decide +kernel, by decide +kernel, by decide +kernel, by decide +kernel, by decide +kernel, by decide +kernel⟩

theorem witness_opensAnswered_1_1 :
      (Arrives sListen 1 (pk (Place.port 5) req1) 0) ∧
      ((pk (Place.port 5) req1).body = Body.ctl (Ctl.openReq n0)) ∧
      (n0.dep < 16) ∧
      (((sListen.tile 0).epAt n0.dep).state = EpState.listen) ∧
      (((sListen.tile 0).epAt n0.dep).held = none) ∧
      (((sListen.tile 0).epAt n0.dep).send = false) :=
    ⟨⟨by decide +kernel, by decide +kernel, by decide +kernel, by decide +kernel, by decide +kernel, by decide +kernel, by decide +kernel, by decide +kernel, by decide +kernel, by decide +kernel, by decide +kernel, by decide +kernel⟩, by decide +kernel, by decide +kernel, by decide +kernel, by decide +kernel, by decide +kernel⟩

theorem witness_opensAnswered_1_2_1 :
      (Arrives sHold 1 (pk (Place.port 5) req1) 0) ∧
      ((pk (Place.port 5) req1).body = Body.ctl (Ctl.openReq n0)) ∧
      (n0.dep < 16) ∧
      (((sHold.tile 0).epAt n0.dep).state = EpState.idle ∨ ((sHold.tile 0).epAt n0.dep).state = EpState.closed ∧ ((sHold.tile 0).epAt n0.dep).send = false) ∧
      (((sHold.tile 0).epAt n0.dep).held = none) :=
    ⟨⟨by decide +kernel, by decide +kernel, by decide +kernel, by decide +kernel, by decide +kernel, by decide +kernel, by decide +kernel, by decide +kernel, by decide +kernel, by decide +kernel, by decide +kernel, by decide +kernel⟩, by decide +kernel, by decide +kernel, by decide +kernel, by decide +kernel⟩

theorem witness_opensAnswered_1_2_2 :
      (Arrives sBusy 1 (pk (Place.port 5) req1) 0) ∧
      ((pk (Place.port 5) req1).body = Body.ctl (Ctl.openReq n0)) ∧
      (n0.dep < 16) ∧
      (((sBusy.tile 0).epAt n0.dep).held.isSome = true ∨ ((sBusy.tile 0).epAt n0.dep).state = EpState.opening ∨ ((sBusy.tile 0).epAt n0.dep).state = EpState.isOpen ∨ ((sBusy.tile 0).epAt n0.dep).state = EpState.draining ∨ (((sBusy.tile 0).epAt n0.dep).state = EpState.listen ∨ ((sBusy.tile 0).epAt n0.dep).state = EpState.closed) ∧ ((sBusy.tile 0).epAt n0.dep).send = true) :=
    ⟨⟨by decide +kernel, by decide +kernel, by decide +kernel, by decide +kernel, by decide +kernel, by decide +kernel, by decide +kernel, by decide +kernel, by decide +kernel, by decide +kernel, by decide +kernel, by decide +kernel⟩, by decide +kernel, by decide +kernel, by decide +kernel⟩

theorem witness_opensAnswered_2_1 :
      (Arrives sRep 1 (pk (Place.port 5) rep1) 0) ∧
      ((pk (Place.port 5) rep1).body = Body.ctl (Ctl.openRep n0 4 99)) ∧
      (n0.dep < 16) ∧
      (((sRep.tile 0).epAt n0.dep).state = EpState.opening) ∧
      ((sRep.tile 0).xc.run = some (XcRun.openSend n0.dep)) ∧
      ((sRep.tile 0).xcq.started = [{ e := e0, ready := false, ret := none : Started }]) ∧
      (4 < 256) :=
    ⟨⟨by decide +kernel, by decide +kernel, by decide +kernel, by decide +kernel, by decide +kernel, by decide +kernel, by decide +kernel, by decide +kernel, by decide +kernel, by decide +kernel, by decide +kernel, by decide +kernel⟩, by decide +kernel, by decide +kernel, by decide +kernel, by decide +kernel, by decide +kernel, by decide +kernel⟩

theorem witness_opensAnswered_2_2 :
      ((sAsk.seat 0).valid = true) ∧
      ((sAsk.tile 0).pad.corrWords = []) ∧
      (((sAsk.tile 0).epAt 5).held = some ask1) :=
    ⟨by decide +kernel, by decide +kernel, by decide +kernel⟩

theorem witness_senderTold_1 :
      (Arrives sPass 1 (pk (Place.port 5) pass1) 0) ∧
      (n0.dep < 16) ∧
      (((sPass.tile 0).epAt n0.dep).send = true) ∧
      (((sPass.tile 0).epAt n0.dep).state = EpState.isOpen) ∧
      ((pk (Place.port 5) pass1).body = Body.ctl (Ctl.passes n0.dep 1 40)) :=
    ⟨⟨by decide +kernel, by decide +kernel, by decide +kernel, by decide +kernel, by decide +kernel, by decide +kernel, by decide +kernel, by decide +kernel, by decide +kernel, by decide +kernel, by decide +kernel, by decide +kernel⟩, by decide +kernel, by decide +kernel, by decide +kernel, by decide +kernel⟩

theorem witness_senderTold_2_1 :
      (Arrives sTrunc 1 (pk (Place.tile 1) trunc1) 0) ∧
      (n0.dep < 16) ∧
      (((sTrunc.tile 0).epAt n0.dep).send = true) ∧
      (((sTrunc.tile 0).epAt n0.dep).state = EpState.isOpen) ∧
      ((pk (Place.tile 1) trunc1).body = Body.ctl (Ctl.truncNotice n0 (40 : BitVec 32))) ∧
      (bound ((sTrunc.tile 0).epAt n0.dep) (pk (Place.tile 1) trunc1) n0) :=
    ⟨⟨by decide +kernel, by decide +kernel, by decide +kernel, by decide +kernel, by decide +kernel, by decide +kernel, by decide +kernel, by decide +kernel, by decide +kernel, by decide +kernel, by decide +kernel, by decide +kernel⟩, by decide +kernel, by decide +kernel, by decide +kernel, by decide +kernel, ⟨by decide +kernel, by decide +kernel, show _ = false from by decide +kernel⟩⟩

theorem witness_senderTold_2_2_1 :
      (Arrives sClose 1 (pk (Place.tile 1) close1) 0) ∧
      (n0.dep < 16) ∧
      (((sClose.tile 0).epAt n0.dep).send = true) ∧
      (((sClose.tile 0).epAt n0.dep).state = EpState.isOpen) ∧
      ((pk (Place.tile 1) close1).body = Body.ctl (Ctl.closeNotice n0)) ∧
      (bound ((sClose.tile 0).epAt n0.dep) (pk (Place.tile 1) close1) n0) ∧
      (∀ (j o len : Nat) (h : Word) (tag : BitVec 32), (sClose.tile 0).xc.run ≠ some (XcRun.send j o len h tag)) :=
    ⟨⟨by decide +kernel, by decide +kernel, by decide +kernel, by decide +kernel, by decide +kernel, by decide +kernel, by decide +kernel, by decide +kernel, by decide +kernel, by decide +kernel, by decide +kernel, by decide +kernel⟩, by decide +kernel, by decide +kernel, by decide +kernel, by decide +kernel, ⟨by decide +kernel, by decide +kernel, show _ = false from by decide +kernel⟩, noSend (by decide +kernel)⟩

theorem witness_senderTold_2_2_2 :
      (Arrives sCloseRun 1 (pk (Place.tile 1) close1) 0) ∧
      (n0.dep < 16) ∧
      (((sCloseRun.tile 0).epAt n0.dep).send = true) ∧
      (((sCloseRun.tile 0).epAt n0.dep).state = EpState.isOpen) ∧
      ((pk (Place.tile 1) close1).body = Body.ctl (Ctl.closeNotice n0)) ∧
      (bound ((sCloseRun.tile 0).epAt n0.dep) (pk (Place.tile 1) close1) n0) ∧
      ((sCloseRun.tile 0).xc.run = some (XcRun.send n0.dep 0 0 (0 : Word) (0 : BitVec 32))) ∧
      ((sCloseRun.tile 0).xcq.started = [{ e := e0, ready := false, ret := none : Started }]) :=
    ⟨⟨by decide +kernel, by decide +kernel, by decide +kernel, by decide +kernel, by decide +kernel, by decide +kernel, by decide +kernel, by decide +kernel, by decide +kernel, by decide +kernel, by decide +kernel, by decide +kernel⟩, by decide +kernel, by decide +kernel, by decide +kernel, by decide +kernel, ⟨by decide +kernel, by decide +kernel, show _ = false from by decide +kernel⟩, by decide +kernel, by decide +kernel⟩

theorem witness_flits_1_1 :
      (Arrives flIdle 1 (pk (Place.tile 1) (Body.flit f0)) 0) ∧
      ((pk (Place.tile 1) (Body.flit f0)).body = Body.flit f0) ∧
      (f0.ends.dep < 16) ∧
      (((flIdle.tile 0).epAt f0.ends.dep).send = true ∨ ((flIdle.tile 0).epAt f0.ends.dep).state ≠ EpState.isOpen ∨ ¬bound ((flIdle.tile 0).epAt f0.ends.dep) (pk (Place.tile 1) (Body.flit f0)) f0.ends) ∧
      (f0.idx = 0) :=
    ⟨⟨by decide +kernel, by decide +kernel, by decide +kernel, by decide +kernel, by decide +kernel, by decide +kernel, by decide +kernel, by decide +kernel, by decide +kernel, by decide +kernel, by decide +kernel, by decide +kernel⟩, by decide +kernel, by decide +kernel, .inr (.inl (by decide +kernel)), by decide +kernel⟩

theorem witness_flits_1_2 :
      (Arrives flIdle2 1 (pk (Place.tile 1) (Body.flit f2)) 0) ∧
      ((pk (Place.tile 1) (Body.flit f2)).body = Body.flit f2) ∧
      (f2.ends.dep < 16) ∧
      (((flIdle2.tile 0).epAt f2.ends.dep).send = true ∨ ((flIdle2.tile 0).epAt f2.ends.dep).state ≠ EpState.isOpen ∨ ¬bound ((flIdle2.tile 0).epAt f2.ends.dep) (pk (Place.tile 1) (Body.flit f2)) f2.ends) ∧
      (f2.idx ≠ 0) :=
    ⟨⟨by decide +kernel, by decide +kernel, by decide +kernel, by decide +kernel, by decide +kernel, by decide +kernel, by decide +kernel, by decide +kernel, by decide +kernel, by decide +kernel, by decide +kernel, by decide +kernel⟩, by decide +kernel, by decide +kernel, .inr (.inl (by decide +kernel)), by decide +kernel⟩

theorem witness_flits_2_1 :
      (Arrives flLate 1 (pk (Place.tile 1) (Body.flit fLate)) 0) ∧
      ((pk (Place.tile 1) (Body.flit fLate)).body = Body.flit fLate) ∧
      (fLate.ends.dep < 16) ∧
      (((flLate.tile 0).epAt fLate.ends.dep).send = false) ∧
      (((flLate.tile 0).epAt fLate.ends.dep).state = EpState.isOpen) ∧
      (bound ((flLate.tile 0).epAt fLate.ends.dep) (pk (Place.tile 1) (Body.flit fLate)) fLate.ends) ∧
      (fLate.seq ≠ ((flLate.tile 0).epAt fLate.ends.dep).seq ∨ fLate.pad = false ∧ fLate.idx ≠ (((flLate.tile 0).epAt fLate.ends.dep).asm.getD { fLate with pad := false, got := 0, since := flLate.now : Asm }).got ∨ fLate.pad = true ∧ ((flLate.tile 0).epAt fLate.ends.dep).asm.isSome = true) :=
    ⟨⟨by decide +kernel, by decide +kernel, by decide +kernel, by decide +kernel, by decide +kernel, by decide +kernel, by decide +kernel, by decide +kernel, by decide +kernel, by decide +kernel, by decide +kernel, by decide +kernel⟩, by decide +kernel, by decide +kernel, by decide +kernel, by decide +kernel, ⟨by decide +kernel, by decide +kernel, show _ = false from by decide +kernel⟩, by decide +kernel⟩

theorem witness_flits_2_2_1 :
      (Arrives flOpen 1 (pk (Place.tile 1) (Body.flit f0)) 0) ∧
      ((pk (Place.tile 1) (Body.flit f0)).body = Body.flit f0) ∧
      (f0.ends.dep < 16) ∧
      (((flOpen.tile 0).epAt f0.ends.dep).send = false) ∧
      (((flOpen.tile 0).epAt f0.ends.dep).state = EpState.isOpen) ∧
      (bound ((flOpen.tile 0).epAt f0.ends.dep) (pk (Place.tile 1) (Body.flit f0)) f0.ends) ∧
      (f0.seq = ((flOpen.tile 0).epAt f0.ends.dep).seq) ∧
      (f0.pad = false) ∧
      (f0.idx = (((flOpen.tile 0).epAt f0.ends.dep).asm.getD { f0 with pad := false, got := 0, since := flOpen.now : Asm }).got) ∧
      (((flOpen.tile 0).epAt f0.ends.dep).rloc = false) ∧
      (f0.data.length ≤ 64) ∧
      ((f0.idx + 2) * 64 ≤ 2 ^ 20) :=
    ⟨⟨by decide +kernel, by decide +kernel, by decide +kernel, by decide +kernel, by decide +kernel, by decide +kernel, by decide +kernel, by decide +kernel, by decide +kernel, by decide +kernel, by decide +kernel, by decide +kernel⟩, by decide +kernel, by decide +kernel, by decide +kernel, by decide +kernel, ⟨by decide +kernel, by decide +kernel, show _ = false from by decide +kernel⟩, by decide +kernel, by decide +kernel, by decide +kernel, by decide +kernel, by decide +kernel, by decide +kernel⟩

theorem witness_flits_2_2_2 :
      (Arrives flFar 1 (pk (Place.tile 1) (Body.flit f0)) 0) ∧
      ((pk (Place.tile 1) (Body.flit f0)).body = Body.flit f0) ∧
      (f0.ends.dep < 16) ∧
      (((flFar.tile 0).epAt f0.ends.dep).send = false) ∧
      (((flFar.tile 0).epAt f0.ends.dep).state = EpState.isOpen) ∧
      (bound ((flFar.tile 0).epAt f0.ends.dep) (pk (Place.tile 1) (Body.flit f0)) f0.ends) ∧
      (f0.seq = ((flFar.tile 0).epAt f0.ends.dep).seq) ∧
      (f0.pad = false) ∧
      (f0.idx = (((flFar.tile 0).epAt f0.ends.dep).asm.getD { f0 with pad := false, got := 0, since := flFar.now : Asm }).got) ∧
      (((flFar.tile 0).epAt f0.ends.dep).rloc = true) :=
    ⟨⟨by decide +kernel, by decide +kernel, by decide +kernel, by decide +kernel, by decide +kernel, by decide +kernel, by decide +kernel, by decide +kernel, by decide +kernel, by decide +kernel, by decide +kernel, by decide +kernel⟩, by decide +kernel, by decide +kernel, by decide +kernel, by decide +kernel, ⟨by decide +kernel, by decide +kernel, show _ = false from by decide +kernel⟩, by decide +kernel, by decide +kernel, by decide +kernel, by decide +kernel⟩

theorem witness_padsAndTruncations_1 :
      (Arrives padFull 1 (pk (Place.tile 1) (Body.flit fPad)) 0) ∧
      ((pk (Place.tile 1) (Body.flit fPad)).body = Body.flit fPad) ∧
      (fPad.ends.dep < 16) ∧
      (((padFull.tile 0).epAt fPad.ends.dep).send = false) ∧
      (((padFull.tile 0).epAt fPad.ends.dep).state = EpState.isOpen) ∧
      (bound ((padFull.tile 0).epAt fPad.ends.dep) (pk (Place.tile 1) (Body.flit fPad)) fPad.ends) ∧
      (fPad.seq = ((padFull.tile 0).epAt fPad.ends.dep).seq) ∧
      (fPad.pad = true) ∧
      (((padFull.tile 0).epAt fPad.ends.dep).asm = none) ∧
      (((padFull.tile 0).epAt fPad.ends.dep).rloc = false) :=
    ⟨⟨by decide +kernel, by decide +kernel, by decide +kernel, by decide +kernel, by decide +kernel, by decide +kernel, by decide +kernel, by decide +kernel, by decide +kernel, by decide +kernel, by decide +kernel, by decide +kernel⟩, by decide +kernel, by decide +kernel, by decide +kernel, by decide +kernel, ⟨by decide +kernel, by decide +kernel, show _ = false from by decide +kernel⟩, by decide +kernel, by decide +kernel, by decide +kernel, by decide +kernel⟩

theorem witness_padsAndTruncations_2_1 :
      ((cut.seat 0).valid = true) ∧
      ((cut.tile 0).pad.corrWords = []) ∧
      ((cut.tile 0).pad.ecc = []) ∧
      (canonical (cut.tile 0) = true) ∧
      (((cut.tile 0).epAt 5).asm = some asm1) ∧
      (((cut.tile 0).epAt 5).rloc = false) :=
    ⟨by decide +kernel, by decide +kernel, by decide +kernel, by decide +kernel, by decide +kernel, by decide +kernel⟩

theorem witness_padsAndTruncations_2_2 :
      ((cutFar.seat 0).valid = true) ∧
      ((cutFar.tile 0).pad.corrWords = []) ∧
      ((cutFar.tile 0).pad.ecc = []) ∧
      (canonical (cutFar.tile 0) = true) ∧
      (((cutFar.tile 0).epAt 5).asm = some asm1) ∧
      (((cutFar.tile 0).epAt 5).rloc = true) :=
    ⟨by decide +kernel, by decide +kernel, by decide +kernel, by decide +kernel, by decide +kernel, by decide +kernel⟩

theorem witness_closeMarkers_1 :
      (Arrives mkMore 1 (pk (Place.tile 1) (Body.marker n0)) 0) ∧
      ((pk (Place.tile 1) (Body.marker n0)).body = Body.marker n0) ∧
      (n0.dep < 16) ∧
      (bound ((mkMore.tile 0).epAt n0.dep) (pk (Place.tile 1) (Body.marker n0)) n0) ∧
      (((mkMore.tile 0).epAt n0.dep).send = false) ∧
      (((mkMore.tile 0).epAt n0.dep).state = EpState.isOpen) ∧
      (((mkMore.tile 0).epAt n0.dep).asm = none) ∧
      (((mkMore.tile 0).epAt n0.dep).recs ≠ []) :=
    ⟨⟨by decide +kernel, by decide +kernel, by decide +kernel, by decide +kernel, by decide +kernel, by decide +kernel, by decide +kernel, by decide +kernel, by decide +kernel, by decide +kernel, by decide +kernel, by decide +kernel⟩, by decide +kernel, by decide +kernel, ⟨by decide +kernel, by decide +kernel, show _ = false from by decide +kernel⟩, by decide +kernel, by decide +kernel, by decide +kernel, by decide +kernel⟩

theorem witness_closeMarkers_2_1 :
      (Arrives mkNone 1 (pk (Place.tile 1) (Body.marker n0)) 0) ∧
      ((pk (Place.tile 1) (Body.marker n0)).body = Body.marker n0) ∧
      (n0.dep < 16) ∧
      (bound ((mkNone.tile 0).epAt n0.dep) (pk (Place.tile 1) (Body.marker n0)) n0) ∧
      (((mkNone.tile 0).epAt n0.dep).send = false) ∧
      (((mkNone.tile 0).epAt n0.dep).state = EpState.isOpen) ∧
      (((mkNone.tile 0).epAt n0.dep).asm = none) ∧
      (((mkNone.tile 0).epAt n0.dep).recs = []) :=
    ⟨⟨by decide +kernel, by decide +kernel, by decide +kernel, by decide +kernel, by decide +kernel, by decide +kernel, by decide +kernel, by decide +kernel, by decide +kernel, by decide +kernel, by decide +kernel, by decide +kernel⟩, by decide +kernel, by decide +kernel, ⟨by decide +kernel, by decide +kernel, show _ = false from by decide +kernel⟩, by decide +kernel, by decide +kernel, by decide +kernel, by decide +kernel⟩

theorem witness_closeMarkers_2_2 :
      (Arrives mkCut 1 (pk (Place.tile 1) (Body.marker n0)) 0) ∧
      ((pk (Place.tile 1) (Body.marker n0)).body = Body.marker n0) ∧
      (n0.dep < 16) ∧
      (bound ((mkCut.tile 0).epAt n0.dep) (pk (Place.tile 1) (Body.marker n0)) n0) ∧
      (((mkCut.tile 0).epAt n0.dep).send = false) ∧
      (((mkCut.tile 0).epAt n0.dep).state = EpState.isOpen) ∧
      (((mkCut.tile 0).epAt n0.dep).asm = some asm1) ∧
      (((mkCut.tile 0).epAt n0.dep).rloc = false) :=
    ⟨⟨by decide +kernel, by decide +kernel, by decide +kernel, by decide +kernel, by decide +kernel, by decide +kernel, by decide +kernel, by decide +kernel, by decide +kernel, by decide +kernel, by decide +kernel, by decide +kernel⟩, by decide +kernel, by decide +kernel, ⟨by decide +kernel, by decide +kernel, show _ = false from by decide +kernel⟩, by decide +kernel, by decide +kernel, by decide +kernel, by decide +kernel⟩

end T08

namespace T09

def big := demo.modPart 0 (fun x => { x with ports := 0xFFFF, count := 2 })

def sWb : State := upd big fun t => { t with pad := { t.pad with ecc := [(5, 1), (900, 3)], wb := [5] } }

def sRow : State := upd sWb fun t => { t with pad := { t.pad with scrubRow := 16383 } }

def spare4 : State := big.setSeat 4 ⟨5, 0, false, false⟩

def wiping4 : State := big.setSiteTile 4 (big.siteTile 4).wipe

def rp (k : Nat) (o : Option WriteBody) : RedPkt := ⟨rnd k 64, o, [⟨k, false, 1⟩]⟩

def w0 : WriteBody := ⟨1,2,[],none,false,none,some 1⟩

def node1 (parent : Option Nat) : TreeNode := ⟨true, parent, [1, 4], [rp 1 (some w0), rp 2 none], [[rp 3 none], [rp 4 none, rp 5 none]]⟩

def upper (n : Nat) : TreeNode := ⟨true, none, [9, 0], [], [[], List.replicate n (rp 6 none)]⟩

def mrg (parent : Option Nat) (n : Nat) : State := big.modPart 0 fun x => { x with trees := Tab.put (Tab.put [] (4096 * 5) (node1 parent)) (4096 * 5 + 7) (upper n) }

def mrgRoot := mrg none 0

def mrgUp := mrg (some 7) 3

def mrgFull := mrg (some 7) 4

def req (p : Nat) (it : Chalk) : ChalkReq := ⟨p, it, ⟨0, false, 0⟩⟩

def gr (it : Chalk) (fl : List ChalkFlight) : State := { big with board := { big.board with turn := 3, flight := fl, reqs := [req 3 it, req 0 it, req 3 it] } }

def itData : Chalk := .data 2 8 [1,2] false true

def itCount : Chalk := .data 2 8 [] false true

def itNone : Chalk := .data 2 8 [] false false

def bigFlight : ChalkFlight := ⟨0, .data 1 2 (List.replicate 4096 0) false false, none, [0]⟩

def grData := gr itData []

def grCount := gr itCount []

def grNone := gr itNone []

def grFull := gr itData [bigFlight]

def fli (it : Chalk) (left : List Nat) : ChalkFlight := ⟨0, it, none, left⟩

def chalked (sub : Nat) (it : Chalk) : State :=
  upd { big with board := { big.board with flight := [fli it [1], fli it [1, 0], fli it [0]] } } fun t =>
    { t with xc := { t.xc with cbsub := t.xc.cbsub.set 2 (BitVec.ofNat 14 sub) }, pad := { t.pad with h := t.pad.h.set 20 (buf 131072 8192) } }

def itBig : Chalk := .data 2 64 (rnd 1 320) false true

def itSmall : Chalk := .data 2 64 (rnd 1 128) true true

def chNone := chalked 0 itSmall

def chBad := chalked (1 + 14 * 256) itSmall

def chGood := chalked (3 + 3 * 16 + 20 * 256) itBig

def chCtr := chalked 0 (.counter 15)

def chGroup := chalked (3 + 6 * 16 + 20 * 256) (.groupCount 2 64)

theorem witness_scratchpadAlone_1 :
      ((sWb.siteTile 0).pad.wb ≠ []) ∧
      ((sWb.siteTile 0).pad.ecc.rising = true) ∧
      ((sWb.siteTile 0).pad.wiping = false) ∧
      (sWb.clocked 0 = true) ∧
      (∀ (w : Nat), w ∈ (sWb.siteTile 0).pad.wb → eccWeight (Tab.get 0 (sWb.siteTile 0).pad.ecc w) < 3) :=
    ⟨by decide +kernel, by decide +kernel, by decide +kernel, by decide +kernel, by decide +kernel⟩

theorem witness_scratchpadAlone_2_1 :
      ((big.siteTile 4).pad.wb = []) :=
    by decide +kernel

theorem witness_scratchpadAlone_2_2_1 :
      ((sRow.siteTile 0).pad.wiping = false) ∧
      (sRow.clocked 0 = true) ∧
      ((sRow.siteTile 0).pad.corrWords = []) ∧
      (∀ (e : Nat × Nat), e ∈ (sRow.siteTile 0).pad.ecc → e.fst / 8 ≠ (sRow.siteTile 0).pad.scrubRow) ∧
      (sRow.seatedAt 0 = some 0) ∧
      ((sRow.seat 0).valid = true) ∧
      ((sRow.seat 0).part = 0) ∧
      ((sRow.seat 0).site = 0) :=
    ⟨by decide +kernel, by decide +kernel, by decide +kernel, by decide +kernel, by decide +kernel, by decide +kernel, by decide +kernel, by decide +kernel⟩

theorem witness_scratchpadAlone_2_2_2_1 :
      ((spare4.siteTile 4).pad.wiping = false) ∧
      (spare4.clocked 4 = true) ∧
      ((spare4.siteTile 4).pad.corrWords = []) ∧
      (∀ (e : Nat × Nat), e ∈ (spare4.siteTile 4).pad.ecc → e.fst / 8 ≠ (spare4.siteTile 4).pad.scrubRow) ∧
      (spare4.seatedAt 4 = none) :=
    ⟨by decide +kernel, by decide +kernel, by decide +kernel, by decide +kernel, by decide +kernel⟩

theorem witness_scratchpadAlone_2_2_2_2_1 :
      ((wiping4.siteTile 4).pad.wiping = true) :=
    by decide +kernel

theorem witness_scratchpadAlone_2_2_2_2_2_1 :
      ((wiping4.siteTile 4).pad.wiping = true) :=
    by decide +kernel

theorem witness_scratchpadAlone_2_2_2_2_2_2 :
      ((big.siteTile 4).pad.wiping = false) :=
    by decide +kernel

theorem witness_merges_1 :
      ((mrgRoot.part 0).trees.find? (4096 * BitVec.toNat (5 : BitVec 10) + BitVec.toNat (0 : BitVec 12)) = some (node1 none)) ∧
      ((node1 none).own = [rp 1 (some w0), rp 2 none]) ∧
      ([rp 1 (some w0), rp 3 none, rp 4 none] = rp 1 (some w0) :: List.filterMap (fun (x : List RedPkt) => x.head?) (node1 none).qs) ∧
      (∀ (q : List RedPkt), q ∈ (node1 none).qs → q ≠ []) ∧
      ((mrgRoot.part 0).refused = false) ∧
      ((node1 none).parent = none) ∧
      ((rp 1 (some w0)).out = some w0) :=
    ⟨by decide +kernel, by decide +kernel, by decide +kernel, by decide +kernel, by decide +kernel, by decide +kernel, by decide +kernel⟩

theorem witness_merges_2_1 :
      ((mrgUp.part 0).trees.find? (4096 * BitVec.toNat (5 : BitVec 10) + BitVec.toNat (0 : BitVec 12)) = some (node1 (some 7))) ∧
      ((node1 (some 7)).own = [rp 1 (some w0), rp 2 none]) ∧
      ([rp 1 (some w0), rp 3 none, rp 4 none] = rp 1 (some w0) :: List.filterMap (fun (x : List RedPkt) => x.head?) (node1 (some 7)).qs) ∧
      (∀ (q : List RedPkt), q ∈ (node1 (some 7)).qs → q ≠ []) ∧
      ((mrgUp.part 0).refused = false) ∧
      ((node1 (some 7)).parent = some 7) ∧
      (7 ≠ BitVec.toNat (0 : BitVec 12)) ∧
      ((mrgUp.part 0).trees.find? (4096 * BitVec.toNat (5 : BitVec 10) + 7) = some (upper 3)) ∧
      (nth (upper 3).qs (List.findIdx (fun (x : Nat) => x == BitVec.toNat (0 : BitVec 12)) (upper 3).kids) [] = List.replicate 3 (rp 6 none)) ∧
      ((List.replicate 3 (rp 6 none)).length < 4) :=
    ⟨by decide +kernel, by decide +kernel, by decide +kernel, by decide +kernel, by decide +kernel, by decide +kernel, by decide +kernel, by decide +kernel, by decide +kernel, by decide +kernel⟩

theorem witness_merges_2_2 :
      ((mrgFull.part 0).trees.find? (4096 * BitVec.toNat (5 : BitVec 10) + BitVec.toNat (0 : BitVec 12)) = some (node1 (some 7))) ∧
      ((node1 (some 7)).own = [rp 1 (some w0), rp 2 none]) ∧
      ([rp 1 (some w0), rp 3 none, rp 4 none] = rp 1 (some w0) :: List.filterMap (fun (x : List RedPkt) => x.head?) (node1 (some 7)).qs) ∧
      (∀ (q : List RedPkt), q ∈ (node1 (some 7)).qs → q ≠ []) ∧
      ((mrgFull.part 0).refused = false) ∧
      ((node1 (some 7)).parent = some 7) ∧
      (7 ≠ BitVec.toNat (0 : BitVec 12)) ∧
      ((mrgFull.part 0).trees.find? (4096 * BitVec.toNat (5 : BitVec 10) + 7) = some (upper 4)) ∧
      (4 ≤ (nth (upper 4).qs (List.findIdx (fun (x : Nat) => x == BitVec.toNat (0 : BitVec 12)) (upper 4).kids) []).length) :=
    ⟨by decide +kernel, by decide +kernel, by decide +kernel, by decide +kernel, by decide +kernel, by decide +kernel, by decide +kernel, by decide +kernel, by decide +kernel⟩

theorem witness_grants_1 :
      (grData.board.reqs = [req 3 itData] ++ [req 0 itData, req 3 itData]) ∧
      ((req 0 itData).part = 0) ∧
      (∀ (y : ChalkReq), y ∈ [req 3 itData] → y.part ≠ 0) ∧
      (0 < 8) ∧
      (∀ (y : ChalkReq), y ∈ grData.board.reqs → (0 + 15 - grData.board.turn % 8) % 8 ≤ (y.part + 15 - grData.board.turn % 8) % 8 ∧ y.part < 8) ∧
      ((req 0 itData).item = Chalk.data 2 8 [(1 : Byte), (2 : Byte)] false true) ∧
      ([(1 : Byte), (2 : Byte)] ≠ []) ∧
      (¬∃ (l : Nat), l ∈ (grData.part 0).tiles ∧ 12 ≤ grData.board.backlog l) :=
    ⟨by decide +kernel, by decide +kernel, by decide +kernel, by decide +kernel, by decide +kernel, by decide +kernel, by decide +kernel, by decide +kernel⟩

theorem witness_grants_2_1 :
      (grCount.board.reqs = [req 3 itCount] ++ [req 0 itCount, req 3 itCount]) ∧
      ((req 0 itCount).part = 0) ∧
      (∀ (y : ChalkReq), y ∈ [req 3 itCount] → y.part ≠ 0) ∧
      (0 < 8) ∧
      (∀ (y : ChalkReq), y ∈ grCount.board.reqs → (0 + 15 - grCount.board.turn % 8) % 8 ≤ (y.part + 15 - grCount.board.turn % 8) % 8 ∧ y.part < 8) ∧
      ((req 0 itCount).item = Chalk.data 2 8 [] false true) :=
    ⟨by decide +kernel, by decide +kernel, by decide +kernel, by decide +kernel, by decide +kernel, by decide +kernel⟩

theorem witness_grants_2_2_1 :
      (grNone.board.reqs = [req 3 itNone] ++ [req 0 itNone, req 3 itNone]) ∧
      ((req 0 itNone).part = 0) ∧
      (∀ (y : ChalkReq), y ∈ [req 3 itNone] → y.part ≠ 0) ∧
      (0 < 8) ∧
      (∀ (y : ChalkReq), y ∈ grNone.board.reqs → (0 + 15 - grNone.board.turn % 8) % 8 ≤ (y.part + 15 - grNone.board.turn % 8) % 8 ∧ y.part < 8) ∧
      ((req 0 itNone).item = Chalk.data 2 8 [] false false) :=
    ⟨by decide +kernel, by decide +kernel, by decide +kernel, by decide +kernel, by decide +kernel, by decide +kernel⟩

theorem witness_grants_2_2_2 :
      (grFull.board.reqs = [req 3 itData] ++ [req 0 itData, req 3 itData]) ∧
      ((req 0 itData).part = 0) ∧
      (∀ (y : ChalkReq), y ∈ [req 3 itData] → y.part ≠ 0) ∧
      (0 < 8) ∧
      (∀ (y : ChalkReq), y ∈ grFull.board.reqs → (0 + 15 - grFull.board.turn % 8) % 8 ≤ (y.part + 15 - grFull.board.turn % 8) % 8 ∧ y.part < 8) ∧
      ((req 0 itData).item = Chalk.data 2 8 [(1 : Byte), (2 : Byte)] false true) ∧
      ([(1 : Byte), (2 : Byte)] ≠ []) ∧
      (∃ (l : Nat), l ∈ (grFull.part 0).tiles ∧ 12 ≤ grFull.board.backlog l) :=
    ⟨by decide +kernel, by decide +kernel, by decide +kernel, by decide +kernel, by decide +kernel, by decide +kernel, by decide +kernel, by decide +kernel⟩

theorem witness_chalkArrives_1 :
      (onWay chNone.board 0 [fli itSmall [1]] (fli itSmall [1, 0]) [fli itSmall [0]]) ∧
      ((chNone.seat 0).valid = true) ∧
      ((chNone.seat 0).part = (fli itSmall [1, 0]).part) ∧
      ((chNone.tile 0).pad.wiping = false) ∧
      ((chNone.tile 0).pad.ecc = []) ∧
      ((chNone.tile 0).pad.corrWords = []) ∧
      (canonical (chNone.tile 0) = true) ∧
      (∀ (y : Sample), y ∈ chNone.faults.samples → ¬(y.tile = 0 ∧ y.state = SampleState.live)) ∧
      ((fli itSmall [1, 0]).item = Chalk.data 2 64 (rnd 1 128) true true) ∧
      ((nth (chNone.tile 0).xc.cbsub.toList 2 (0 : BitVec 14)).toNat % 2 = 0) :=
    ⟨by decide +kernel, by decide +kernel, by decide +kernel, by decide +kernel, by decide +kernel, by decide +kernel, by decide +kernel, by decide +kernel, by decide +kernel, by decide +kernel⟩

theorem witness_chalkArrives_2_1 :
      (onWay chBad.board 0 [fli itSmall [1]] (fli itSmall [1, 0]) [fli itSmall [0]]) ∧
      ((chBad.seat 0).valid = true) ∧
      ((chBad.seat 0).part = (fli itSmall [1, 0]).part) ∧
      ((chBad.tile 0).pad.wiping = false) ∧
      ((chBad.tile 0).pad.ecc = []) ∧
      ((chBad.tile 0).pad.corrWords = []) ∧
      (canonical (chBad.tile 0) = true) ∧
      (∀ (y : Sample), y ∈ chBad.faults.samples → ¬(y.tile = 0 ∧ y.state = SampleState.live)) ∧
      ((fli itSmall [1, 0]).item = Chalk.data 2 64 (rnd 1 128) true true) ∧
      ((nth (chBad.tile 0).xc.cbsub.toList 2 (0 : BitVec 14)).toNat % 2 = 1) ∧
      (refusal (handleOf (chBad.tile 0) ((nth (chBad.tile 0).xc.cbsub.toList 2 (0 : BitVec 14)).toNat / 256 % 64)) 64 (rnd 1 128).length ≠ none) :=
    ⟨by decide +kernel, by decide +kernel, by decide +kernel, by decide +kernel, by decide +kernel, by decide +kernel, by decide +kernel, by decide +kernel, by decide +kernel, by decide +kernel, by decide +kernel⟩

theorem witness_chalkArrives_2_2_1 :
      (onWay chGood.board 0 [fli itBig [1]] (fli itBig [1, 0]) [fli itBig [0]]) ∧
      ((chGood.seat 0).valid = true) ∧
      ((chGood.seat 0).part = (fli itBig [1, 0]).part) ∧
      ((chGood.tile 0).pad.wiping = false) ∧
      ((chGood.tile 0).pad.ecc = []) ∧
      ((chGood.tile 0).pad.corrWords = []) ∧
      (canonical (chGood.tile 0) = true) ∧
      (∀ (y : Sample), y ∈ chGood.faults.samples → ¬(y.tile = 0 ∧ y.state = SampleState.live)) ∧
      ((fli itBig [1, 0]).item = Chalk.data 2 64 (rnd 1 320) false true) ∧
      ((nth (chGood.tile 0).xc.cbsub.toList 2 (0 : BitVec 14)).toNat % 2 = 1) ∧
      (refusal (handleOf (chGood.tile 0) ((nth (chGood.tile 0).xc.cbsub.toList 2 (0 : BitVec 14)).toNat / 256 % 64)) 64 (rnd 1 320).length = none) ∧
      ((rnd 1 320).length ≤ 4096) :=
    ⟨by decide +kernel, by decide +kernel, by decide +kernel, by decide +kernel, by decide +kernel, by decide +kernel, by decide +kernel, by decide +kernel, by decide +kernel, by decide +kernel, by decide +kernel, by decide +kernel⟩

theorem witness_chalkArrives_2_2_2_1 :
      (onWay chCtr.board 0 [fli (Chalk.counter 15) [1]] (fli (Chalk.counter 15) [1, 0]) [fli (Chalk.counter 15) [0]]) ∧
      ((chCtr.seat 0).valid = true) ∧
      ((chCtr.seat 0).part = (fli (Chalk.counter 15) [1, 0]).part) ∧
      ((chCtr.tile 0).pad.wiping = false) ∧
      ((chCtr.tile 0).pad.ecc = []) ∧
      ((chCtr.tile 0).pad.corrWords = []) ∧
      (canonical (chCtr.tile 0) = true) ∧
      (∀ (y : Sample), y ∈ chCtr.faults.samples → ¬(y.tile = 0 ∧ y.state = SampleState.live)) ∧
      ((fli (Chalk.counter 15) [1, 0]).item = Chalk.counter 15) ∧
      (15 < 16) :=
    ⟨by decide +kernel, by decide +kernel, by decide +kernel, by decide +kernel, by decide +kernel, by decide +kernel, by decide +kernel, by decide +kernel, by decide +kernel, by decide +kernel⟩

theorem witness_chalkArrives_2_2_2_2 :
      (onWay chGroup.board 0 [fli (Chalk.groupCount 2 64) [1]] (fli (Chalk.groupCount 2 64) [1, 0]) [fli (Chalk.groupCount 2 64) [0]]) ∧
      ((chGroup.seat 0).valid = true) ∧
      ((chGroup.seat 0).part = (fli (Chalk.groupCount 2 64) [1, 0]).part) ∧
      ((chGroup.tile 0).pad.wiping = false) ∧
      ((chGroup.tile 0).pad.ecc = []) ∧
      ((chGroup.tile 0).pad.corrWords = []) ∧
      (canonical (chGroup.tile 0) = true) ∧
      (∀ (y : Sample), y ∈ chGroup.faults.samples → ¬(y.tile = 0 ∧ y.state = SampleState.live)) ∧
      ((fli (Chalk.groupCount 2 64) [1, 0]).item = Chalk.groupCount 2 64) ∧
      ((nth (chGroup.tile 0).xc.cbsub.toList 2 (0 : BitVec 14)).toNat % 4 = 3) ∧
      (refusal (handleOf (chGroup.tile 0) ((nth (chGroup.tile 0).xc.cbsub.toList 2 (0 : BitVec 14)).toNat / 256 % 64)) 64 0 = none) :=
    ⟨by decide +kernel, by decide +kernel, by decide +kernel, by decide +kernel, by decide +kernel, by decide +kernel, by decide +kernel, by decide +kernel, by decide +kernel, by decide +kernel, by decide +kernel⟩

end T09

namespace T10

def big0 := upd demo fun t => let t := { t with pad := { t.pad with h := t.pad.h.set 23 (buf 65536 20000) } }
  fillMem t t.pad.h[23] 0 (rnd 3 8)

def big1 := big0.modPart 0 (fun x => { x with ports := 0xFFFF, count := 2, keyWork := 7, keyRet := 8, lkKey := 8, lkBase := 4096, lkSize := 1024, slots := [⟨2, 3, .active⟩], reg := ⟨.of 5, .of 0, 1000, 0⟩, mm := { x.mm with tlb := [⟨65536, 65536, 131072, true, false⟩, ⟨131072, 65536, 0, true, true⟩] } })

def big := { big1 with up := { big1.up with ready := BitVec.allOnes _ } }

def noLocker := { big1 with up := { big1.up with ready := 0 } }

def d0 : DmaDesc := ⟨1, true, true, 2, buf 65536 20000, buf 65536 20000, 1, 48, 65536 + 70, 0, 16, 0, 0, 0⟩

def stq (s : State) (d : DmaDesc) : State := upd s fun t => { t with xc := { t.xc with streams := t.xc.streams.set 2 { t.xc.streams[2] with queue := [d, d0] } } }

def frame0 := (32*2+3)*2^31

def pa0 := frame0 + 131072 + 70

def sTo := stq big d0

def dFrom : DmaDesc := { d0 with op := 2 }

def sFrom := stq big dFrom

def sPoison := stq { big with hbm := { big.hbm with poison := [pa0 / 64] } } dFrom

def dNone : DmaDesc := { d0 with rows := 0 }

def sNone := stq big dNone

def sUnmapped := stq (big.modPart 0 fun x => { x with mm := { x.mm with tlb := [] } }) d0

def indexed (s : State) : State := upd s fun t => fillMem t t.pad.h[23] 200 (leBytes 4 1)

def dGat : DmaDesc := { d0 with op := 4, aux := 5, off6 := 200, dva := 65536, dstride := 64, len := 32 }

def dGat0 : DmaDesc := { dGat with aux := 1 }

def dSca : DmaDesc := { dGat with op := 5, aux := 2 }

def dSca0 : DmaDesc := { dGat with op := 5, aux := 1 }

def sGat := stq (indexed big) dGat

def sGat0 := stq (indexed big) dGat0

def sSca := stq (indexed big) dSca

def sSca0 := stq (indexed big) dSca0

def pa1 := frame0 + 131072 + 64

def dCopy : DmaDesc := { d0 with op := 3, len := 64, dva := 65536 + 64, aux := 131072 + 4096 }

def sCopy := stq big dCopy

def pa2 := frame0 + 4096

def dSave (off : Nat) : DmaDesc := { d0 with op := 6, len := 64, dva := 65536 + 64, off6 := off }

def dLoad (off : Nat) : DmaDesc := { d0 with op := 7, len := 64, dva := 65536 + 64, off6 := off }

def sSave := stq big (dSave 960)

def sLoad := stq big (dLoad 960)

def sSave0 := stq noLocker (dSave 128)

def sLoad0 := stq big (dLoad 961)

def sDone : State := upd sTo fun t => { t with xc := { t.xc with streams := t.xc.streams.set 2 { t.xc.streams[2] with status := some 5, moved := 9, fault := some 4 } } }

def sFault : State := upd sTo fun t => { t with xc := { t.xc with streams := t.xc.streams.set 2 { t.xc.streams[2] with fault := some 4 } } }

theorem witness_rowsMoved_1 :
      (0 < 8) ∧
      (d0.rows = 1) ∧
      (0 < d0.len) ∧
      (d0.len ≤ 64 - d0.dva % 64) ∧
      (pa0 % 64 + d0.len ≤ 64) ∧
      (d0.dva < 2 ^ 48) ∧
      (affords (sTo.part 0) 64) ∧
      (Streams sTo 0 (0 : LTile) (2 : StreamIx) 1 d0 [d0]) ∧
      (cached (sTo.part 0) d0.dva true pa0 7) ∧
      (soundAt sTo pa0) :=
    ⟨by decide +kernel, by decide +kernel, by decide +kernel, by decide +kernel, by decide +kernel, by decide +kernel, by decide +kernel, ⟨by decide +kernel, by decide +kernel, by decide +kernel, by decide +kernel, by decide +kernel, by decide +kernel, by decide +kernel, by decide +kernel, by decide +kernel, by decide +kernel, by decide +kernel⟩, by first | exact ⟨⟨65536, 65536, 131072, true, false⟩, by decide +kernel, by decide +kernel, by decide +kernel⟩ | exact ⟨⟨131072, 65536, 0, true, true⟩, by decide +kernel, by decide +kernel, by decide +kernel⟩, by decide +kernel⟩

theorem witness_rowsMoved_2_1 :
      (0 < 8) ∧
      (dFrom.rows = 1) ∧
      (0 < dFrom.len) ∧
      (dFrom.len ≤ 64 - dFrom.dva % 64) ∧
      (pa0 % 64 + dFrom.len ≤ 64) ∧
      (dFrom.dva < 2 ^ 48) ∧
      (affords (sFrom.part 0) 64) ∧
      (Streams sFrom 0 (0 : LTile) (2 : StreamIx) 2 dFrom [d0]) ∧
      (cached (sFrom.part 0) dFrom.dva false pa0 7) ∧
      (soundAt sFrom pa0) :=
    ⟨by decide +kernel, by decide +kernel, by decide +kernel, by decide +kernel, by decide +kernel, by decide +kernel, by decide +kernel, ⟨by decide +kernel, by decide +kernel, by decide +kernel, by decide +kernel, by decide +kernel, by decide +kernel, by decide +kernel, by decide +kernel, by decide +kernel, by decide +kernel, by decide +kernel⟩, by first | exact ⟨⟨65536, 65536, 131072, true, false⟩, by decide +kernel, by decide +kernel, by decide +kernel⟩ | exact ⟨⟨131072, 65536, 0, true, true⟩, by decide +kernel, by decide +kernel, by decide +kernel⟩, by decide +kernel⟩

theorem witness_rowsMoved_2_2 :
      (0 < 8) ∧
      (dFrom.rows = 1) ∧
      (0 < dFrom.len) ∧
      (dFrom.len ≤ 64 - dFrom.dva % 64) ∧
      (pa0 % 64 + dFrom.len ≤ 64) ∧
      (dFrom.dva < 2 ^ 48) ∧
      (affords (sPoison.part 0) 64) ∧
      (Streams sPoison 0 (0 : LTile) (2 : StreamIx) 2 dFrom [d0]) ∧
      (cached (sPoison.part 0) dFrom.dva false pa0 7) ∧
      (pa0 / 64 ∈ sPoison.hbm.poison) ∧
      ((nth sPoison.hbm.heat.toList (pa0 / 2 ^ 36) { temp := 0, mult := 1, cool := 0, hot := false, half := false : Stack }).hot = false) :=
    ⟨by decide +kernel, by decide +kernel, by decide +kernel, by decide +kernel, by decide +kernel, by decide +kernel, by decide +kernel, ⟨by decide +kernel, by decide +kernel, by decide +kernel, by decide +kernel, by decide +kernel, by decide +kernel, by decide +kernel, by decide +kernel, by decide +kernel, by decide +kernel, by decide +kernel⟩, by first | exact ⟨⟨65536, 65536, 131072, true, false⟩, by decide +kernel, by decide +kernel, by decide +kernel⟩ | exact ⟨⟨131072, 65536, 0, true, true⟩, by decide +kernel, by decide +kernel, by decide +kernel⟩, by decide +kernel, by decide +kernel⟩

theorem witness_rowsNotMoved_1 :
      ((Instr.toHbm, 1) ∈ [(Instr.toHbm, 1), (Instr.fromHbm, 2)]) ∧
      (Streams sNone 0 (0 : LTile) (2 : StreamIx) 1 dNone [d0]) ∧
      (0 < 8) ∧
      (dNone.rows = 0 ∨ dNone.len = 0) :=
    ⟨by simp, ⟨by decide +kernel, by decide +kernel, by decide +kernel, by decide +kernel, by decide +kernel, by decide +kernel, by decide +kernel, by decide +kernel, by decide +kernel, by decide +kernel, by decide +kernel⟩, by decide +kernel, by decide +kernel⟩

theorem witness_rowsNotMoved_2 :
      ((Instr.toHbm, 1) ∈ [(Instr.toHbm, 1), (Instr.fromHbm, 2)]) ∧
      (Streams sUnmapped 0 (0 : LTile) (2 : StreamIx) 1 d0 [d0]) ∧
      (0 < 8) ∧
      (0 < d0.rows) ∧
      (0 < d0.len) ∧
      (d0.dva < 2 ^ 48) ∧
      ((sUnmapped.part 0).mm.tlb = []) ∧
      ((sUnmapped.part 0).mm.valid.force = false) ∧
      (affords (sUnmapped.part 0) 64) :=
    ⟨by simp, ⟨by decide +kernel, by decide +kernel, by decide +kernel, by decide +kernel, by decide +kernel, by decide +kernel, by decide +kernel, by decide +kernel, by decide +kernel, by decide +kernel, by decide +kernel⟩, by decide +kernel, by decide +kernel, by decide +kernel, by decide +kernel, by decide +kernel, by decide +kernel, by decide +kernel⟩

theorem witness_lookups_1 :
      (0 < 8) ∧
      (dGat.rows = 1) ∧
      (0 < dGat.len) ∧
      (dGat.len ≤ 64) ∧
      (dGat.off6 < 2 ^ 20) ∧
      (affords (sGat.part 0) 64) ∧
      (Streams sGat 0 (0 : LTile) (2 : StreamIx) 4 dGat [d0]) ∧
      (leVal (bytesAt (sGat.tile 0) dGat.ih dGat.off6 4) < dGat.aux) ∧
      (dGat.dva + leVal (bytesAt (sGat.tile 0) dGat.ih dGat.off6 4) * dGat.dstride < 2 ^ 48) ∧
      (dGat.len ≤ 64 - (dGat.dva + leVal (bytesAt (sGat.tile 0) dGat.ih dGat.off6 4) * dGat.dstride) % 64) ∧
      (pa1 % 64 + dGat.len ≤ 64) ∧
      (cached (sGat.part 0) (dGat.dva + leVal (bytesAt (sGat.tile 0) dGat.ih dGat.off6 4) * dGat.dstride) false pa1 7) ∧
      (soundAt sGat pa1) :=
    ⟨by decide +kernel, by decide +kernel, by decide +kernel, by decide +kernel, by decide +kernel, by decide +kernel, ⟨by decide +kernel, by decide +kernel, by decide +kernel, by decide +kernel, by decide +kernel, by decide +kernel, by decide +kernel, by decide +kernel, by decide +kernel, by decide +kernel, by decide +kernel⟩, by decide +kernel, by decide +kernel, by decide +kernel, by decide +kernel, by first | exact ⟨⟨65536, 65536, 131072, true, false⟩, by decide +kernel, by decide +kernel, by decide +kernel⟩ | exact ⟨⟨131072, 65536, 0, true, true⟩, by decide +kernel, by decide +kernel, by decide +kernel⟩, by decide +kernel⟩

theorem witness_lookups_2_1 :
      (0 < 8) ∧
      (dGat0.rows = 1) ∧
      (0 < dGat0.len) ∧
      (dGat0.len ≤ 64) ∧
      (dGat0.off6 < 2 ^ 20) ∧
      (affords (sGat0.part 0) 64) ∧
      (Streams sGat0 0 (0 : LTile) (2 : StreamIx) 4 dGat0 [d0]) ∧
      (dGat0.aux ≤ leVal (bytesAt (sGat0.tile 0) dGat0.ih dGat0.off6 4)) :=
    ⟨by decide +kernel, by decide +kernel, by decide +kernel, by decide +kernel, by decide +kernel, by decide +kernel, ⟨by decide +kernel, by decide +kernel, by decide +kernel, by decide +kernel, by decide +kernel, by decide +kernel, by decide +kernel, by decide +kernel, by decide +kernel, by decide +kernel, by decide +kernel⟩, by decide +kernel⟩

theorem witness_lookups_2_2_1 :
      (0 < 8) ∧
      (dSca.rows = 1) ∧
      (0 < dSca.len) ∧
      (dSca.len ≤ 64) ∧
      (dSca.off6 < 2 ^ 20) ∧
      (affords (sSca.part 0) 64) ∧
      (Streams sSca 0 (0 : LTile) (2 : StreamIx) 5 dSca [d0]) ∧
      (leVal (bytesAt (sSca.tile 0) dSca.ih dSca.off6 4) < dSca.aux) ∧
      (dSca.dva + leVal (bytesAt (sSca.tile 0) dSca.ih dSca.off6 4) * dSca.dstride < 2 ^ 48) ∧
      (dSca.len ≤ 64 - (dSca.dva + leVal (bytesAt (sSca.tile 0) dSca.ih dSca.off6 4) * dSca.dstride) % 64) ∧
      (pa1 % 64 + dSca.len ≤ 64) ∧
      (cached (sSca.part 0) (dSca.dva + leVal (bytesAt (sSca.tile 0) dSca.ih dSca.off6 4) * dSca.dstride) true pa1 7) ∧
      (soundAt sSca pa1) :=
    ⟨by decide +kernel, by decide +kernel, by decide +kernel, by decide +kernel, by decide +kernel, by decide +kernel, ⟨by decide +kernel, by decide +kernel, by decide +kernel, by decide +kernel, by decide +kernel, by decide +kernel, by decide +kernel, by decide +kernel, by decide +kernel, by decide +kernel, by decide +kernel⟩, by decide +kernel, by decide +kernel, by decide +kernel, by decide +kernel, by first | exact ⟨⟨65536, 65536, 131072, true, false⟩, by decide +kernel, by decide +kernel, by decide +kernel⟩ | exact ⟨⟨131072, 65536, 0, true, true⟩, by decide +kernel, by decide +kernel, by decide +kernel⟩, by decide +kernel⟩

theorem witness_lookups_2_2_2 :
      (0 < 8) ∧
      (dSca0.rows = 1) ∧
      (0 < dSca0.len) ∧
      (dSca0.len ≤ 64) ∧
      (dSca0.off6 < 2 ^ 20) ∧
      (affords (sSca0.part 0) 64) ∧
      (Streams sSca0 0 (0 : LTile) (2 : StreamIx) 5 dSca0 [d0]) ∧
      (dSca0.aux ≤ leVal (bytesAt (sSca0.tile 0) dSca0.ih dSca0.off6 4)) :=
    ⟨by decide +kernel, by decide +kernel, by decide +kernel, by decide +kernel, by decide +kernel, by decide +kernel, ⟨by decide +kernel, by decide +kernel, by decide +kernel, by decide +kernel, by decide +kernel, by decide +kernel, by decide +kernel, by decide +kernel, by decide +kernel, by decide +kernel, by decide +kernel⟩, by decide +kernel⟩

theorem witness_unitsCopied_1 :
      (0 < 8) ∧
      (dCopy.rows = 1) ∧
      (dCopy.len = 64) ∧
      (dCopy.dva < 2 ^ 48) ∧
      (pa1 % 64 = 0) ∧
      (Streams sCopy 0 (0 : LTile) (2 : StreamIx) 3 dCopy [d0]) ∧
      (dCopy.aux < 2 ^ 48) ∧
      (affords (sCopy.part 0) 128) ∧
      (cached (sCopy.part 0) dCopy.dva false pa1 7) ∧
      (soundAt sCopy pa1) ∧
      (cached (sCopy.part 0) dCopy.aux true pa2 8) ∧
      (soundAt sCopy pa2) ∧
      (pa2 % 64 = 0) :=
    ⟨by decide +kernel, by decide +kernel, by decide +kernel, by decide +kernel, by decide +kernel, ⟨by decide +kernel, by decide +kernel, by decide +kernel, by decide +kernel, by decide +kernel, by decide +kernel, by decide +kernel, by decide +kernel, by decide +kernel, by decide +kernel, by decide +kernel⟩, by decide +kernel, by decide +kernel, by first | exact ⟨⟨65536, 65536, 131072, true, false⟩, by decide +kernel, by decide +kernel, by decide +kernel⟩ | exact ⟨⟨131072, 65536, 0, true, true⟩, by decide +kernel, by decide +kernel, by decide +kernel⟩, by decide +kernel, by first | exact ⟨⟨65536, 65536, 131072, true, false⟩, by decide +kernel, by decide +kernel, by decide +kernel⟩ | exact ⟨⟨131072, 65536, 0, true, true⟩, by decide +kernel, by decide +kernel, by decide +kernel⟩, by decide +kernel, by decide +kernel⟩

theorem witness_unitsCopied_2_1 :
      (0 < 8) ∧
      ((dSave 960).rows = 1) ∧
      ((dSave 960).len = 64) ∧
      ((dSave 960).dva < 2 ^ 48) ∧
      (pa1 % 64 = 0) ∧
      (Streams sSave 0 (0 : LTile) (2 : StreamIx) 6 (dSave 960) [d0]) ∧
      (sSave.up.ready.getLsbD 29 = true ∧ (dSave 960).off6 + 64 ≤ (sSave.part 0).lkSize) ∧
      (affords (sSave.part 0) 64) ∧
      (cached (sSave.part 0) (dSave 960).dva false pa1 7) ∧
      (soundAt sSave pa1) ∧
      (((sSave.part 0).lkBase + (dSave 960).off6) % 64 = 0) ∧
      (¬((sSave.part 0).lkBase + (dSave 960).off6) / 64 ∈ sSave.locker.poison) ∧
      (¬((sSave.part 0).lkBase + (dSave 960).off6) / 64 ∈ sSave.locker.bad) :=
    ⟨by decide +kernel, by decide +kernel, by decide +kernel, by decide +kernel, by decide +kernel, ⟨by decide +kernel, by decide +kernel, by decide +kernel, by decide +kernel, by decide +kernel, by decide +kernel, by decide +kernel, by decide +kernel, by decide +kernel, by decide +kernel, by decide +kernel⟩, by decide +kernel, by decide +kernel, by first | exact ⟨⟨65536, 65536, 131072, true, false⟩, by decide +kernel, by decide +kernel, by decide +kernel⟩ | exact ⟨⟨131072, 65536, 0, true, true⟩, by decide +kernel, by decide +kernel, by decide +kernel⟩, by decide +kernel, by decide +kernel, by decide +kernel, by decide +kernel⟩

theorem witness_unitsCopied_2_2_1 :
      (0 < 8) ∧
      ((dLoad 960).rows = 1) ∧
      ((dLoad 960).len = 64) ∧
      ((dLoad 960).dva < 2 ^ 48) ∧
      (pa1 % 64 = 0) ∧
      (Streams sLoad 0 (0 : LTile) (2 : StreamIx) 7 (dLoad 960) [d0]) ∧
      (sLoad.up.ready.getLsbD 29 = true ∧ (dLoad 960).off6 + 64 ≤ (sLoad.part 0).lkSize) ∧
      (affords (sLoad.part 0) 64) ∧
      (cached (sLoad.part 0) (dLoad 960).dva true pa1 7) ∧
      (soundAt sLoad pa1) ∧
      (¬((sLoad.part 0).lkBase + (dLoad 960).off6) / 64 ∈ sLoad.locker.poison) ∧
      (¬((sLoad.part 0).lkBase + (dLoad 960).off6) / 64 ∈ sLoad.locker.bad) :=
    ⟨by decide +kernel, by decide +kernel, by decide +kernel, by decide +kernel, by decide +kernel, ⟨by decide +kernel, by decide +kernel, by decide +kernel, by decide +kernel, by decide +kernel, by decide +kernel, by decide +kernel, by decide +kernel, by decide +kernel, by decide +kernel, by decide +kernel⟩, by decide +kernel, by decide +kernel, by first | exact ⟨⟨65536, 65536, 131072, true, false⟩, by decide +kernel, by decide +kernel, by decide +kernel⟩ | exact ⟨⟨131072, 65536, 0, true, true⟩, by decide +kernel, by decide +kernel, by decide +kernel⟩, by decide +kernel, by decide +kernel, by decide +kernel⟩

theorem witness_unitsCopied_2_2_2_1 :
      (0 < 8) ∧
      ((dSave 128).rows = 1) ∧
      ((dSave 128).len = 64) ∧
      ((dSave 128).dva < 2 ^ 48) ∧
      (pa1 % 64 = 0) ∧
      (Streams sSave0 0 (0 : LTile) (2 : StreamIx) 6 (dSave 128) [d0]) ∧
      (sSave0.up.ready.getLsbD 29 = false) :=
    ⟨by decide +kernel, by decide +kernel, by decide +kernel, by decide +kernel, by decide +kernel, ⟨by decide +kernel, by decide +kernel, by decide +kernel, by decide +kernel, by decide +kernel, by decide +kernel, by decide +kernel, by decide +kernel, by decide +kernel, by decide +kernel, by decide +kernel⟩, by decide +kernel⟩

theorem witness_unitsCopied_2_2_2_2 :
      (0 < 8) ∧
      ((dLoad 961).rows = 1) ∧
      ((dLoad 961).len = 64) ∧
      ((dLoad 961).dva < 2 ^ 48) ∧
      (pa1 % 64 = 0) ∧
      (Streams sLoad0 0 (0 : LTile) (2 : StreamIx) 7 (dLoad 961) [d0]) ∧
      (sLoad0.up.ready.getLsbD 29 = true) ∧
      ((sLoad0.part 0).lkSize < (dLoad 961).off6 + 64) :=
    ⟨by decide +kernel, by decide +kernel, by decide +kernel, by decide +kernel, by decide +kernel, ⟨by decide +kernel, by decide +kernel, by decide +kernel, by decide +kernel, by decide +kernel, by decide +kernel, by decide +kernel, by decide +kernel, by decide +kernel, by decide +kernel, by decide +kernel⟩, by decide +kernel, by decide +kernel⟩

theorem witness_descriptorsComplete :
      ((sDone.seat 0).valid = true) ∧
      ((sDone.seat 0).part = 0) ∧
      ((sDone.tile 0).pad.corrWords = []) ∧
      (∀ (y : Sample), y ∈ sDone.faults.samples → ¬(y.tile = 0 ∧ y.state = SampleState.live)) ∧
      (((sDone.tile 0).stream 2).queue = [d0, d0]) ∧
      (((sDone.tile 0).stream 2).status = some 5) :=
    ⟨by decide +kernel, by decide +kernel, by decide +kernel, by decide +kernel, by decide +kernel, by decide +kernel⟩

theorem witness_faultsEnded_1_1_1 :
      (BitVec.toNat (2 : BitVec 14) / 4 < (sFault.part 0).count) ∧
      (((sFault.tile ((sFault.part 0).logical (BitVec.toNat (2 : BitVec 14) / 4))).stream ↑(⟨BitVec.toNat (2 : BitVec 14) % 4, (by decide)⟩ : Fin 4)).fault.isSome = true) :=
    ⟨by decide +kernel, by decide +kernel⟩

theorem witness_faultsEnded_1_2_1 :
      ((sFault.part 0).count ≤ BitVec.toNat (8 : BitVec 14) / 4 ∨ ((sFault.tile ((sFault.part 0).logical (BitVec.toNat (8 : BitVec 14) / 4))).stream ↑(⟨BitVec.toNat (8 : BitVec 14) % 4, (by decide)⟩ : Fin 4)).fault = none) :=
    by decide +kernel

theorem witness_faultsEnded_2 :
      ((sFault.seat 0).valid = true) ∧
      ((sFault.seat 0).part < 8) ∧
      (((sFault.tile 0).stream 2).fault = some 4) :=
    ⟨by decide +kernel, by decide +kernel, by decide +kernel⟩

end T10

namespace T11

def bigx := upd demo fun t => let t := { t with pad := { t.pad with h := ((((t.pad.h.set 20 (buf 131072 8192)).set 21 (buf 262144 16384)).set 23 (buf 65536 20000)).set 13 (buf 8192 128)).set 1 (buf 131072 8192) } }
  fillMem t t.pad.h[23] 0 (rnd 3 8)

def big := bigx.modPart 0 (fun x => { x with ports := 0xFFFF, count := 2, keyWork := 7, keyRet := 8, lkKey := 8, lkBase := 4096, lkSize := 1024, slots := [⟨2, 3, .active⟩], reg := ⟨.of 5, .of 0, 1000, 0⟩, mm := { x.mm with tlb := [⟨65536, 65536, 131072, true, false⟩, ⟨131072, 65536, 0, true, true⟩] } })

def big2 := { big with up := { big.up with ready := BitVec.allOnes _ } }

def m0 := big2.modPart 0 fun x => { x with func := 0, mm := { x.mm with invalBusy := true, root := ⟨5, 9⟩ }, reg := ⟨⟨5, 6⟩, ⟨0, 3⟩, 5000, 9⟩, slots := [⟨2, 3, .active⟩, ⟨1, 5, .retiring⟩] }

def m1 := m0.modPart 0 fun x => { x with state := .loaded }

def m3 := (upd m1 fun t => t.setStream 2 { t.stream 2 with queue := [⟨1,false,false,0,0,0,1,1,0,0,0,0,0,0⟩] }).modPart 0 fun x => { x with reg := { x.reg with tokens := 127 } }

def w0 := m1.modPart 0 fun x => { x with mm := { x.mm with tlb := [⟨65536, 65536, 131072, true, false⟩, ⟨131072, 65536, 0, true, true⟩] } }

def w1 := w0.modPart 0 fun x => { x with mm := { x.mm with apMode := true } }

def w2 := w1.modPart 0 fun x => { x with refused := true }

def pt0 := { m0 with hbm := { m0.hbm with bad := [67*2^25+4], weak := [9, 8] } }

def pt1 := pt0.modPart 0 fun x => { x with slots := [] }

def inval0 := w0.modPart 0 fun x => { x with mm := { x.mm with invalBusy := true } }

theorem witness_tokensRefill_2_1 :
      ((m1.part 0).reg.rate.force ≠ 0) ∧
      (¬starved m1 0) :=
    ⟨by decide +kernel, by decide +kernel⟩

theorem witness_tokensRefill_2_2 :
      ((m3.part 0).reg.rate.force ≠ 0) ∧
      (starved m3 0) :=
    ⟨by decide +kernel, by decide +kernel⟩

theorem witness_windowAccesses_1_2_1 :
      (Windows w0 0 0) ∧
      (affords (w0.part 0) 64) ∧
      ((w0.part 0).mm.apMode = false) ∧
      (cached (w0.part 0) ((w0.part 0).mm.apBase * 2 ^ 36 + BitVec.toNat (65540 : BitVec 36)) false (67 * 2 ^ 31 + 131076) 7) ∧
      (soundAt w0 (67 * 2 ^ 31 + 131076)) ∧
      (0 < 20) ∧
      (20 ≤ 64 - ((w0.part 0).mm.apBase * 2 ^ 36 + BitVec.toNat (65540 : BitVec 36)) % 64) ∧
      ((67 * 2 ^ 31 + 131076) % 64 = ((w0.part 0).mm.apBase * 2 ^ 36 + BitVec.toNat (65540 : BitVec 36)) % 64) :=
    ⟨⟨by decide +kernel, by decide +kernel, by decide +kernel, by decide +kernel, by decide +kernel⟩, by decide +kernel, by decide +kernel, by first | exact ⟨⟨65536, 65536, 131072, true, false⟩, by decide +kernel, by decide +kernel, by decide +kernel⟩ | exact ⟨⟨131072, 65536, 0, true, true⟩, by decide +kernel, by decide +kernel, by decide +kernel⟩, by decide +kernel, by decide +kernel, by decide +kernel, by decide +kernel⟩

theorem witness_windowAccesses_1_2_2_1 :
      (Windows w1 0 0) ∧
      (affords (w1.part 0) 64) ∧
      ((w1.part 0).mm.apMode = true) ∧
      ((w1.part 0).placeFault ((w1.part 0).mm.apBase % 8 * 2 ^ 36 + BitVec.toNat (65540 : BitVec 36)) = none) ∧
      ((w1.part 0).physOf ((w1.part 0).mm.apBase % 8 * 2 ^ 36 + BitVec.toNat (65540 : BitVec 36)) = some (67 * 2 ^ 31 + 65540)) ∧
      (soundAt w1 (67 * 2 ^ 31 + 65540)) ∧
      (0 < 20) ∧
      (20 ≤ 64 - ((w1.part 0).mm.apBase % 8 * 2 ^ 36 + BitVec.toNat (65540 : BitVec 36)) % 64) :=
    ⟨⟨by decide +kernel, by decide +kernel, by decide +kernel, by decide +kernel, by decide +kernel⟩, by decide +kernel, by decide +kernel, by decide +kernel, by decide +kernel, by decide +kernel, by decide +kernel, by decide +kernel⟩

theorem witness_windowAccesses_1_2_2_2_1 :
      (Windows w1 0 0) ∧
      (affords (w1.part 0) 64) ∧
      ((w1.part 0).mm.apMode = true) ∧
      ((w1.part 0).placeFault ((w1.part 0).mm.apBase % 8 * 2 ^ 36 + ((2 : BitVec 36) ^ 31 * (3 : BitVec 36)).toNat) ≠ none) :=
    ⟨⟨by decide +kernel, by decide +kernel, by decide +kernel, by decide +kernel, by decide +kernel⟩, by decide +kernel, by decide +kernel, by decide +kernel⟩

theorem witness_windowAccesses_1_2_2_2_2 :
      (Windows w1 0 0) ∧
      (affords (w1.part 0) 64) ∧
      ((w1.part 0).mm.apMode = true) ∧
      ((w1.part 0).placeFault ((w1.part 0).mm.apBase % 8 * 2 ^ 36 + ((2 : BitVec 36) ^ 31 * (3 : BitVec 36)).toNat) ≠ none) :=
    ⟨⟨by decide +kernel, by decide +kernel, by decide +kernel, by decide +kernel, by decide +kernel⟩, by decide +kernel, by decide +kernel, by decide +kernel⟩

theorem witness_windowAccesses_2_1 :
      (0 < 8) ∧
      ((w2.part 0).state ≠ PartState.none) ∧
      ((w2.part 0).func = 0) ∧
      (∀ (q : Nat), q < 0 → ¬((w2.part q).state ≠ PartState.none ∧ (w2.part q).func = 0)) ∧
      ((w2.part 0).refused = true) :=
    ⟨by decide +kernel, by decide +kernel, by decide +kernel, by decide +kernel, by decide +kernel⟩

theorem witness_windowAccesses_2_2 :
      (0 < 8) ∧
      ((w2.part 0).state ≠ PartState.none) ∧
      ((w2.part 0).func = 0) ∧
      (∀ (q : Nat), q < 0 → ¬((w2.part q).state ≠ PartState.none ∧ (w2.part q).func = 0)) ∧
      ((w2.part 0).refused = true) :=
    ⟨by decide +kernel, by decide +kernel, by decide +kernel, by decide +kernel, by decide +kernel⟩

theorem witness_windowAccesses_1_1 :
      (Windows w0 0 0) ∧
      (affords (w0.part 0) 64) ∧
      ((w0.part 0).mm.apMode = false) ∧
      (cached (w0.part 0) ((w0.part 0).mm.apBase * 2 ^ 36 + BitVec.toNat (65540 : BitVec 36)) true (67 * 2 ^ 31 + 131076) 7) ∧
      (soundAt w0 (67 * 2 ^ 31 + 131076)) ∧
      (w0.hbm.cells.rising = true ∧ w0.hbm.keys.rising = true) ∧
      (rnd 3 60 ≠ []) ∧
      ((rnd 3 60).length ≤ 64 - ((w0.part 0).mm.apBase * 2 ^ 36 + BitVec.toNat (65540 : BitVec 36)) % 64) ∧
      ((67 * 2 ^ 31 + 131076) % 64 = ((w0.part 0).mm.apBase * 2 ^ 36 + BitVec.toNat (65540 : BitVec 36)) % 64) :=
    ⟨⟨by decide +kernel, by decide +kernel, by decide +kernel, by decide +kernel, by decide +kernel⟩, by decide +kernel, by decide +kernel, by first | exact ⟨⟨65536, 65536, 131072, true, false⟩, by decide +kernel, by decide +kernel, by decide +kernel⟩ | exact ⟨⟨131072, 65536, 0, true, true⟩, by decide +kernel, by decide +kernel, by decide +kernel⟩, by decide +kernel, by decide +kernel, by decide +kernel, by decide +kernel, by decide +kernel⟩

theorem witness_patrolled_1 :
      (67 * 2 ^ 25 + 4 ∈ pt0.hbm.bad) ∧
      (pt0.pcOwner ((67 * 2 ^ 25 + 4) / 2 ^ 25) = some (0, 0)) :=
    ⟨by decide +kernel, by decide +kernel⟩

theorem witness_patrolled_2_1 :
      (67 * 2 ^ 25 + 4 ∈ pt1.hbm.bad) ∧
      (pt1.pcOwner ((67 * 2 ^ 25 + 4) / 2 ^ 25) = none) :=
    ⟨by decide +kernel, by decide +kernel⟩

theorem witness_memoryApplies_2_1 :
      ((inval0.part 0).mm.invalBusy = true) :=
    by decide +kernel

end T11

namespace T12

def bigx := upd demo fun t => let t := { t with pad := { t.pad with h := ((((t.pad.h.set 20 (buf 131072 8192)).set 21 (buf 262144 16384)).set 23 (buf 65536 20000)).set 13 (buf 8192 128)).set 1 (buf 131072 8192) } }
  fillMem t t.pad.h[23] 0 (rnd 3 8)

def big := bigx.modPart 0 (fun x => { x with ports := 0xFFFF, count := 2, keyWork := 7, keyRet := 8, lkKey := 8, lkBase := 4096, lkSize := 1024, slots := [⟨2, 3, .active⟩], reg := ⟨.of 5, .of 0, 1000, 0⟩, mm := { x.mm with tlb := [⟨65536, 65536, 131072, true, false⟩, ⟨131072, 65536, 0, true, true⟩] } })

def D (rem root rec : Bool) (mask ch : Nat) : BellDesc := ⟨rec, true, 7, rem, root, 4, ch, mask⟩

def A (w : Who) (t : Nat) (f : BitVec 8) (fl : Bool) : Arr := ⟨w, t, f, fl, 3, 70, some (9, 4)⟩

def E (d : BellDesc) (ar ah : List Arr) : Bell := ⟨some d, 6, ar, ah, some 100, false, none, [(0, List.replicate 16 3)], false⟩

def S (b : Nat) (e : Bell) : State := { (big.modPart 0 fun x => { x with bells := Tab.put [(2, Bell.idle)] b e, modIndex := 5, step := 12, veto := true, threshold := some 20, rel63 := [5,4], slots := [⟨2,3,.active⟩] }) with now := 1000 }

def up1 (k : Nat) (s : State) : State := s.setPort k { s.port k with state := .active }

def ow (tl : Nat) (ep : BitVec 32) : OnWay := ⟨tl, 7, ep, 3, true, 0, 0, some 8⟩

def s1 (d : BellDesc) (ar : List Arr) (ep : BitVec 32) := up1 4 ((S 7 (E d ar [])).modPart 0 fun x => { x with onWay := [ow 5 6, ow 0 ep, ow 0 6] })

def loc := D false false false 3 0

def tree := D true false false 3 4

def N (rel : Bool) (ep : BitVec 32) : Notice := ⟨rel, 7, true, 2, true, 5, ep, 9, 8⟩

def s2 (d : BellDesc) (n : Notice) (q : Nat) := let s := s1 d [] 6; { s with net := [⟨.port 3, .root, 0, [], .ctl (.bell n)⟩, ⟨.port q, .root, 0, [], .ctl (.bell n)⟩] }

def full := [A (.tile 1) 1 1 true, A (.port 2) 90 1 true, A (.tile 0) 300 4 false]

def s3 (b : Nat) (d : BellDesc) := up1 4 (S b (E d full []))

def down4 := (S 63 (E tree full [])).setPort 4 { Port.reset with state := .down }

def v1 := (S 7 { E tree full [] with noticeSent := true})

def root := D true true false 3 4

def R (b : Nat) : Rel := ⟨b, 6, 5, true, 2, true, 3, 4, some (1, 2), true, true, true⟩

def rtree := D true false true 3 4

def sr (st : PartState) := (up1 2 (up1 4 (S 7 (E rtree full full)))).modPart 0 fun x => { x with actions := 1, state := st }

def sh (st : PartState) := (up1 2 (S 7 { E rtree [] [] with held := some (R 7, .work, 50) })).modPart 0 fun x => { x with actions := 5, state := st }

def sl := (S 63 (E root [] [])).modPart 0 fun x => { x with tol := 1500, rel63 := (List.range 17).map (fun k => 10000 - k * k) }

def fl (n : Nat) (ws : List Announce) : Flow := ⟨11, 0, n, ws⟩

def an (d c : Nat) (w : Option Word) : Announce := ⟨w, 3, d, c, 5, 64, 40⟩

def sf (x : Flow) (b : Body) := { (S 7 Bell.idle).modPart 0 fun y => { y with flows := [(9, x), (12, x)] } with net := [⟨.tile 1, .port 11, 0, [], b⟩] }

def ann (f n : Nat) : Body := .ctl (.announce (some 9) 3 f 1 n 5 64)

def rf (b : Nat) (fr : Bool) (left : List Nat) : RelFlight := ⟨R b, left, fr⟩

def sq (b : Nat) (fr : Bool) (n : Nat) (g : Tile → Tile) := (upd (S b (E loc [] [])) fun t => g { t with bl := { t.bl with bells := t.bl.bells.setIfInBounds b { TileBell.reset with exists_ := true, member := true, next := 7, out := 1 } } }).modPart 0 fun x => { x with rels := [rf b true [1], rf b fr [1, 0]], proctor := { x.proctor with n := .of n, pendingN := some n } }

def phw (count : Nat) (stop se : Bool) (next : Nat) (ag : Nat) : List Byte := leBytes 8 (7 + count * 2^16 + next * 2^32 + (if stop then 2^52 else 0) + (if se then 2^53 + 3*2^54 else 0)) ++ leBytes 8 ag ++ List.replicate 16 0

def wk (count : Nat) (stop se : Bool) (next ag : Nat) (b : Bl → Bl) (t : Tile) : Tile :=
  let t := { t with pad := { t.pad with h := t.pad.h.set 1 (buf 131072 8192) } }
  let t := fillMem t t.pad.h[1] 64 (phw count stop se next ag)
  { t with bl := b { t.bl with run := true, pos := 64, bells := t.bl.bells.set 7 { TileBell.reset with exists_ := true, member := true, next := 7, out := 1 } } }

def R0 (st : Nat) : RelFlight := ⟨{ R 7 with status := st }, [1,0], false⟩

def sw (st : Nat) (g : Tile → Tile) := (upd (S 7 (E loc [] [])) g).modPart 0 fun x => { x with rels := [R0 st], proctor := { x.proctor with n := .of 1 } }

def fe (ag : Option Nat) (stopping : Bool) (b : Bl) : Bl := { b with firing := some (2, 2), again := ag, stopping := stopping }

def ph0 : Phase := ((T |> wk 0 true true 128 2 id).phaseOk 64).getD ⟨0, 0, 0, false, false, 0, 0⟩

def sAdv := sw 0 (wk 0 true true 128 2 id)

def sRep := sw 2 (wk 0 true true 128 2 id)

def fires (stop se : Bool) (next : Nat) (ag : Option Nat) (stp : Bool) : State := upd (S 7 (E loc [] [])) (wk 2 stop se next 5 (fe ag stp))

def firePh (stop se : Bool) (next : Nat) (ag : Option Nat) (stp : Bool) : Phase × Bool := (((fires stop se next ag stp).tile 0).phaseAt 64).getD (⟨0, 0, 0, false, false, 0, 0⟩, true)

def nextPh : Phase := (((fires false true 64 none false).tile 0).phaseOk 64).getD ⟨0, 0, 0, false, false, 0, 0⟩

def desc1 : List Byte := [1 + 16 + 32 + 3*256 + 23*2^12 + 12*2^18 + 136*2^32, 64 + 128*2^32, 1, 0].flatMap (leBytes 8)

def hasDesc (t : Tile) : Tile := fillMem (wk 1 true true 128 2 id t) (buf 131072 8192) 96 desc1

def sDesc := sw 0 hasDesc

def curDesc : XCur := match ((sDesc.tile 0).reach (sDesc.env 0 0) (handleOf (sDesc.tile 0) 1) 96).2 with | .ok c => c | _ => ⟨XDesc.ofWords 0 0 0 0, 0, none, 0⟩

def phDesc : Phase := ((T |> wk 1 true true 128 2 id).phaseOk 64).getD ⟨0, 0, 0, false, false, 0, 0⟩

def other (t : Tile) : Tile := fillMem (wk 0 true true 128 2 id t) (buf 131072 8192) 64 [5]

def sOther := sw 2 other

def phOther : Phase × Bool := ((T |> other).phaseAt 64).getD (⟨0, 0, 0, false, false, 0, 0⟩, true)

theorem witness_arrivalsCounted_1 :
      (((s1 loc [] (6 : BitVec 32)).part 0).onWay[1]? = some (ow 0 (6 : BitVec 32))) ∧
      (∀ (y : OnWay), y ∈ List.take 1 ((s1 loc [] (6 : BitVec 32)).part 0).onWay → ¬(y.tile = (ow 0 (6 : BitVec 32)).tile ∧ y.bell = (ow 0 (6 : BitVec 32)).bell)) :=
    ⟨by decide +kernel, by decide +kernel⟩

theorem witness_arrivalsCounted_2_1 :
      (Next (s2 loc (N false (6 : BitVec 32)) 2) 1 { src := Place.port 2, dst := Place.root, part := 0, tags := [], body := Body.ctl (Ctl.bell (N false (6 : BitVec 32))) : Packet }) ∧
      ((N false (6 : BitVec 32)).release = false) ∧
      (∀ (d : BellDesc), ¬((((s2 loc (N false (6 : BitVec 32)) 2).part 0).bell (N false (6 : BitVec 32)).bell).desc = some d ∧ d.remote = true ∧ 2 < 16 ∧ d.children.testBit 2 = true)) :=
    ⟨⟨by decide +kernel, by decide +kernel⟩, by decide +kernel, someFree (by decide +kernel)⟩

theorem witness_arrivalsCounted_2_2_1 :
      (Next (s2 tree (N false (6 : BitVec 32)) 2) 1 { src := Place.port 2, dst := Place.root, part := 0, tags := [], body := Body.ctl (Ctl.bell (N false (6 : BitVec 32))) : Packet }) ∧
      ((N false (6 : BitVec 32)).release = false) ∧
      ((((s2 tree (N false (6 : BitVec 32)) 2).part 0).bell (N false (6 : BitVec 32)).bell).desc = some tree ∧ tree.remote = true ∧ 2 < 16 ∧ tree.children.testBit 2 = true) :=
    ⟨⟨by decide +kernel, by decide +kernel⟩, by decide +kernel, by decide +kernel⟩

theorem witness_arrivalsCounted_2_2_2_1 :
      (Next (s2 tree (N false (8 : BitVec 32)) 2) 1 { src := Place.port 2, dst := Place.root, part := 0, tags := [], body := Body.ctl (Ctl.bell (N false (8 : BitVec 32))) : Packet }) ∧
      ((N false (8 : BitVec 32)).release = false) ∧
      ((((s2 tree (N false (8 : BitVec 32)) 2).part 0).bell (N false (8 : BitVec 32)).bell).desc = some tree ∧ tree.remote = true ∧ 2 < 16 ∧ tree.children.testBit 2 = true) :=
    ⟨⟨by decide +kernel, by decide +kernel⟩, by decide +kernel, by decide +kernel⟩

theorem witness_arrivalsCounted_2_2_2_2 :
      (Next (s2 tree (N false (5 : BitVec 32)) 2) 1 { src := Place.port 2, dst := Place.root, part := 0, tags := [], body := Body.ctl (Ctl.bell (N false (5 : BitVec 32))) : Packet }) ∧
      ((N false (5 : BitVec 32)).release = false) ∧
      ((((s2 tree (N false (5 : BitVec 32)) 2).part 0).bell (N false (5 : BitVec 32)).bell).desc = some tree ∧ tree.remote = true ∧ 2 < 16 ∧ tree.children.testBit 2 = true) :=
    ⟨⟨by decide +kernel, by decide +kernel⟩, by decide +kernel, by decide +kernel⟩

theorem witness_contributions_2_1 :
      (0 < 8) ∧
      ((((s3 7 tree).part 0).bell 7).desc = some tree) ∧
      (¬decider tree) ∧
      (allArrived (((s3 7 tree).part 0).bell 7) tree ((s3 7 tree).part 0).count) ∧
      ((((s3 7 tree).part 0).bell 7).noticeSent = false) ∧
      (uncompared (s3 7 tree) 0 7) ∧
      (tree.parent = 4) ∧
      (((s3 7 tree).port 4).state ≠ PortState.down) :=
    ⟨by decide +kernel, by decide +kernel, by decide +kernel, by decide +kernel, by decide +kernel, by decide +kernel, by decide +kernel, by decide +kernel⟩

theorem witness_contributions_2_2 :
      (0 < 8) ∧
      (((down4.part 0).bell 63).desc = some tree) ∧
      (¬decider tree) ∧
      (allArrived ((down4.part 0).bell 63) tree (down4.part 0).count) ∧
      (((down4.part 0).bell 63).noticeSent = false) ∧
      (uncompared down4 0 63) ∧
      (tree.parent = 4) ∧
      ((down4.port 4).state = PortState.down) :=
    ⟨by decide +kernel, by decide +kernel, by decide +kernel, by decide +kernel, by decide +kernel, by decide +kernel, by decide +kernel, by decide +kernel⟩

theorem witness_contributions_1 :
      (0 < 8) ∧
      (((v1.part 0).bell 7).desc = some tree) ∧
      (decider tree ∨ ¬allArrived ((v1.part 0).bell 7) tree (v1.part 0).count ∨ ((v1.part 0).bell 7).noticeSent = true ∨ ¬uncompared v1 0 7) :=
    ⟨by decide +kernel, by decide +kernel, by decide +kernel⟩

theorem witness_releasesFormed_1 :
      ((((s3 7 root).part 0).bell 7).desc = some root) ∧
      (decider root) ∧
      (allArrived (((s3 7 root).part 0).bell 7) root ((s3 7 root).part 0).count) ∧
      ((((s3 7 root).part 0).bell 7).held = none) ∧
      (uncompared (s3 7 root) 0 7) ∧
      (∀ (y : Slot), y ∈ ((s3 7 root).part 0).slots → y.state ≠ SlotState.released) :=
    ⟨by decide +kernel, by decide +kernel, by decide +kernel, by decide +kernel, by decide +kernel, by decide +kernel⟩

theorem witness_releasesFormed_2_1 :
      ((((s3 63 tree).part 0).bell 63).desc = some tree) ∧
      (¬decider tree ∨ ¬allArrived (((s3 63 tree).part 0).bell 63) tree ((s3 63 tree).part 0).count ∨ (((s3 63 tree).part 0).bell 63).held.isSome = true ∨ ¬uncompared (s3 63 tree) 0 63) :=
    ⟨by decide +kernel, by decide +kernel⟩

theorem witness_releasesFormed_2_2_1 :
      ((((s1 loc [] (6 : BitVec 32)).part 0).bell 7).desc = some loc) ∧
      (decider loc) ∧
      ((((s1 loc [] (6 : BitVec 32)).part 0).bell 7).held = none) ∧
      ((((s1 loc [] (6 : BitVec 32)).part 0).bell 7).timer = some 100) ∧
      (¬(allArrived (((s1 loc [] (6 : BitVec 32)).part 0).bell 7) loc ((s1 loc [] (6 : BitVec 32)).part 0).count ∧ uncompared (s1 loc [] (6 : BitVec 32)) 0 7)) :=
    ⟨by decide +kernel, by decide +kernel, by decide +kernel, by decide +kernel, by decide +kernel⟩

theorem witness_releasesFormed_2_2_2 :
      ((((s3 63 tree).part 0).bell 63).desc = some tree) ∧
      (¬decider tree) ∧
      ((((s3 63 tree).part 0).bell 63).timer = some 100) ∧
      (¬(tree.recess = true ∧ (((s3 63 tree).part 0).state = PartState.preempting ∨ ((s3 63 tree).part 0).state = PartState.preempted))) :=
    ⟨by decide +kernel, by decide +kernel, by decide +kernel, by decide +kernel⟩

theorem witness_releasesForwarded_1 :
      (Next (s2 tree (N true (6 : BitVec 32)) 4) 1 { src := Place.port 4, dst := Place.root, part := 0, tags := [], body := Body.ctl (Ctl.bell (N true (6 : BitVec 32))) : Packet }) ∧
      ((N true (6 : BitVec 32)).release = true) ∧
      ((((s2 tree (N true (6 : BitVec 32)) 4).part 0).bell (N true (6 : BitVec 32)).bell).desc = some tree ∧ tree.remote = true ∧ tree.root = false ∧ 4 = tree.parent ∧ (N true (6 : BitVec 32)).epoch = (((s2 tree (N true (6 : BitVec 32)) 4).part 0).bell (N true (6 : BitVec 32)).bell).epoch ∧ (((s2 tree (N true (6 : BitVec 32)) 4).part 0).bell (N true (6 : BitVec 32)).bell).held = none) :=
    ⟨⟨by decide +kernel, by decide +kernel⟩, by decide +kernel, by decide +kernel⟩

theorem witness_releasesForwarded_2 :
      (Next (s2 tree (N true (6 : BitVec 32)) 2) 1 { src := Place.port 2, dst := Place.root, part := 0, tags := [], body := Body.ctl (Ctl.bell (N true (6 : BitVec 32))) : Packet }) ∧
      ((N true (6 : BitVec 32)).release = true) ∧
      (∀ (d : BellDesc), ¬((((s2 tree (N true (6 : BitVec 32)) 2).part 0).bell (N true (6 : BitVec 32)).bell).desc = some d ∧ d.remote = true ∧ d.root = false ∧ 2 = d.parent ∧ (N true (6 : BitVec 32)).epoch = (((s2 tree (N true (6 : BitVec 32)) 2).part 0).bell (N true (6 : BitVec 32)).bell).epoch ∧ (((s2 tree (N true (6 : BitVec 32)) 2).part 0).bell (N true (6 : BitVec 32)).bell).held = none)) :=
    ⟨⟨by decide +kernel, by decide +kernel⟩, by decide +kernel, someFree (by decide +kernel)⟩

theorem witness_releasesGiven_1 :
      (0 < 8) ∧
      ((((s3 63 tree).part 0).bell 63).desc = some tree) ∧
      ((R 63).bell = 63) ∧
      (tree.recess = false ∨ heldFor (s3 63 tree) 0 63 = none) :=
    ⟨by decide +kernel, by decide +kernel, by decide +kernel, by decide +kernel⟩

theorem witness_releasesGiven_2 :
      (0 < 8) ∧
      ((((sr PartState.running).part 0).bell 7).desc = some rtree) ∧
      ((R 7).bell = 7) ∧
      (rtree.recess = true) ∧
      (heldFor (sr PartState.running) 0 7 = some HoldFor.work) :=
    ⟨by decide +kernel, by decide +kernel, by decide +kernel, by decide +kernel, by decide +kernel⟩

theorem witness_holdsEnd_1 :
      ((((sh PartState.running).part 0).bell 7).desc = some rtree) ∧
      ((R 7).bell = 7) ∧
      ((((sh PartState.running).part 0).bell 7).held = some (R 7, HoldFor.work, 50)) ∧
      (((sh PartState.running).part 0).asked = none) ∧
      (((sh PartState.running).part 0).state ≠ PartState.preempting) :=
    ⟨by decide +kernel, by decide +kernel, by decide +kernel, by decide +kernel, by decide +kernel⟩

theorem witness_holdsEnd_2 :
      ((((sh PartState.preempting).part 0).bell 7).desc = some rtree) ∧
      ((R 7).bell = 7) ∧
      ((((sh PartState.preempting).part 0).bell 7).held = some (R 7, HoldFor.work, 50)) ∧
      (((sh PartState.preempting).part 0).asked = none) ∧
      (((sh PartState.preempting).part 0).state = PartState.preempting) :=
    ⟨by decide +kernel, by decide +kernel, by decide +kernel, by decide +kernel, by decide +kernel⟩

theorem witness_latenessKept_1_1 :
      (((sl.part 0).bell 63).desc = some root) ∧
      (decider root) ∧
      ((sl.part 0).rel63.length = 17) ∧
      ((sl.part 0).tol ≠ 0) ∧
      (List.Pairwise (fun (x1 x2 : Nat) => x1 ≤ x2) (List.map (fun (k : Nat) => 2 * k + 1) (List.range 16))) ∧
      ((List.map (fun (k : Nat) => 2 * k + 1) (List.range 16)).Perm (List.map (fun (k : Nat) => (sl.part 0).rel63.getD k 0 - (sl.part 0).rel63.getD (k + 1) 0) (List.range 16))) :=
    ⟨by decide +kernel, by decide +kernel, by decide +kernel, by decide +kernel, by decide +kernel, by decide +kernel⟩

theorem witness_latenessKept_1_2 :
      ((((S 63 (E root [] [])).part 0).bell 63).desc = some root) ∧
      (decider root) ∧
      (((S 63 (E root [] [])).part 0).rel63.length ≠ 17 ∨ ((S 63 (E root [] [])).part 0).tol = 0) :=
    ⟨by decide +kernel, by decide +kernel, by decide +kernel⟩

theorem witness_flowsCount_1_1 :
      (Next (sf (fl 5 [an 1 100 none]) (Body.count 9 10)) 0 { src := Place.tile 1, dst := Place.port 11, part := 0, tags := [], body := Body.count 9 10 : Packet }) ∧
      (((sf (fl 5 [an 1 100 none]) (Body.count 9 10)).part 0).flows.find? 9 = some (fl 5 [an 1 100 none])) ∧
      (short { (fl 5 [an 1 100 none]) with bytes := (fl 5 [an 1 100 none]).bytes + 10 : Flow }) :=
    ⟨⟨by decide +kernel, by decide +kernel⟩, by decide +kernel, shortOf (by decide +kernel)⟩

theorem witness_flowsCount_1_2_1 :
      (Next (sf (fl 5 [an 1 10 none, an 1 100 none]) (Body.count 9 10)) 0 { src := Place.tile 1, dst := Place.port 11, part := 0, tags := [], body := Body.count 9 10 : Packet }) ∧
      (((sf (fl 5 [an 1 10 none, an 1 100 none]) (Body.count 9 10)).part 0).flows.find? 9 = some (fl 5 [an 1 10 none, an 1 100 none])) ∧
      ((fl 5 [an 1 10 none, an 1 100 none]).waiting = [an 1 10 none, an 1 100 none]) ∧
      ((an 1 10 none).count ≤ (fl 5 [an 1 10 none, an 1 100 none]).bytes + 10) ∧
      (short { (fl 5 [an 1 10 none, an 1 100 none]) with bytes := (fl 5 [an 1 10 none, an 1 100 none]).bytes + 10 - (an 1 10 none).count, waiting := [an 1 100 none] : Flow }) ∧
      (((sf (fl 5 [an 1 10 none, an 1 100 none]) (Body.count 9 10)).part 0).flows.rising = true) :=
    ⟨⟨by decide +kernel, by decide +kernel⟩, by decide +kernel, by decide +kernel, by decide +kernel, shortOf (by decide +kernel), by decide +kernel⟩

theorem witness_flowsCount_1_2_2 :
      (Next (sf (fl 5 []) (Body.count 8 10)) 0 { src := Place.tile 1, dst := Place.port 11, part := 0, tags := [], body := Body.count 8 10 : Packet }) :=
    ⟨by decide +kernel, by decide +kernel⟩

theorem witness_flowsCount_2_1_1 :
      (Next (sf (fl 5 [an 1 100 none]) (ann 9 8)) 0 { src := Place.tile 1, dst := Place.port 11, part := 0, tags := [], body := Body.ctl (Ctl.announce (some (9 : Word)) 3 9 1 8 5 64) : Packet }) ∧
      (((sf (fl 5 [an 1 100 none]) (ann 9 8)).part 0).flows.find? 9 = some (fl 5 [an 1 100 none])) ∧
      ((fl 5 [an 1 100 none]).waiting.length < 4) ∧
      (short { (fl 5 [an 1 100 none]) with waiting := (fl 5 [an 1 100 none]).waiting ++ [{ word := some (9 : Word), ctr := 3, dtile := 1, count := 8, dsth := 5, dstoff := 64, since := (sf (fl 5 [an 1 100 none]) (ann 9 8)).now : Announce }] : Flow }) :=
    ⟨⟨by decide +kernel, by decide +kernel⟩, by decide +kernel, by decide +kernel, shortOf (by decide +kernel)⟩

theorem witness_flowsCount_2_1_2_1 :
      (Next (sf (fl 25 []) (ann 9 8)) 0 { src := Place.tile 1, dst := Place.port 11, part := 0, tags := [], body := Body.ctl (Ctl.announce (some (9 : Word)) 3 9 1 8 5 64) : Packet }) ∧
      (((sf (fl 25 []) (ann 9 8)).part 0).flows.find? 9 = some (fl 25 [])) ∧
      ((fl 25 []).waiting = []) ∧
      (8 ≤ (fl 25 []).bytes) ∧
      (((sf (fl 25 []) (ann 9 8)).part 0).flows.rising = true) :=
    ⟨⟨by decide +kernel, by decide +kernel⟩, by decide +kernel, by decide +kernel, by decide +kernel, by decide +kernel⟩

theorem witness_flowsCount_2_1_2_2_1 :
      (Next (sf (fl 5 (List.replicate 4 (an 1 100 none))) (ann 9 8)) 0 { src := Place.tile 1, dst := Place.port 11, part := 0, tags := [], body := Body.ctl (Ctl.announce (some (9 : Word)) 3 9 1 8 5 64) : Packet }) ∧
      (((sf (fl 5 (List.replicate 4 (an 1 100 none))) (ann 9 8)).part 0).flows.find? 9 = some (fl 5 (List.replicate 4 (an 1 100 none)))) ∧
      (4 ≤ (fl 5 (List.replicate 4 (an 1 100 none))).waiting.length) :=
    ⟨⟨by decide +kernel, by decide +kernel⟩, by decide +kernel, by decide +kernel⟩

theorem witness_flowsCount_2_1_2_2_2 :
      (Next (sf (fl 5 []) (ann 1 8)) 0 { src := Place.tile 1, dst := Place.port 11, part := 0, tags := [], body := Body.ctl (Ctl.announce (some (9 : Word)) 3 1 1 8 5 64) : Packet }) :=
    ⟨by decide +kernel, by decide +kernel⟩

theorem witness_flowsCount_2_2 :
      (((sf (fl 5 [an 1 100 none, an 1 4 none]) (ann 1 8)).part 0).flows.find? (BitVec.toNat (9 : BitVec 8)) = some (fl 5 [an 1 100 none, an 1 4 none])) ∧
      ((fl 5 [an 1 100 none, an 1 4 none]).waiting = [an 1 100 none, an 1 4 none]) ∧
      (short { (fl 5 [an 1 100 none, an 1 4 none]) with bytes := 0, waiting := [an 1 4 none] : Flow }) :=
    ⟨by decide +kernel, by decide +kernel, shortOf (by decide +kernel)⟩

theorem witness_releaseEventsTold_1 :
      (0 < 8) :=
    by decide +kernel

theorem witness_releaseEventsTold_2_1 :
      (0 < 8) :=
    by decide +kernel

theorem witness_releaseEventsTold_2_2_1 :
      (0 < 8) :=
    by decide +kernel

theorem witness_releaseEventsTold_2_2_2 :
      (0 < 8) :=
    by decide +kernel

theorem witness_releasesReach_1 :
      (((sq 7 false 1 id).seat 0).valid = true) ∧
      (((sq 7 false 1 id).seat 0).part = 0) ∧
      (((sq 7 false 1 id).part 0).rels = [rf 7 true [1]] ++ [rf 7 false [1, 0]]) ∧
      (∀ (g : RelFlight), g ∈ [rf 7 true [1]] → ¬(g.rel.bell = 7 ∧ 0 ∈ g.left)) ∧
      ((rf 7 false [1, 0]).rel.bell = 7) ∧
      (0 ∈ (rf 7 false [1, 0]).left) ∧
      (((sq 7 false 1 id).tile 0).pad.corrWords = []) ∧
      (((sq 7 false 1 id).tile 0).pad.ecc = []) ∧
      (((sq 7 false 1 id).tile 0).xc.walkCur = none) ∧
      (((sq 7 false 1 id).tile 0).bl.firing = none) ∧
      (∀ (y : Sample), y ∈ (sq 7 false 1 id).faults.samples → ¬(y.tile = 0 ∧ y.state = SampleState.live)) ∧
      (((sq 7 false 1 id).tile 0).bl.run = false) :=
    ⟨by decide +kernel, by decide +kernel, by decide +kernel, by decide +kernel, by decide +kernel, by decide +kernel, by decide +kernel, by decide +kernel, by decide +kernel, by decide +kernel, by decide +kernel, by decide +kernel⟩

theorem witness_releasesReach_2_1_1 :
      ((sAdv.seat 0).valid = true) ∧
      ((sAdv.seat 0).part = 0) ∧
      ((sAdv.part 0).rels = [] ++ [R0 0]) ∧
      (∀ (g : RelFlight), g ∈ [] → ¬(g.rel.bell = 7 ∧ 0 ∈ g.left)) ∧
      ((R0 0).rel.bell = 7) ∧
      (0 ∈ (R0 0).left) ∧
      ((sAdv.tile 0).pad.corrWords = []) ∧
      ((sAdv.tile 0).pad.ecc = []) ∧
      ((sAdv.tile 0).xc.walkCur = none) ∧
      ((sAdv.tile 0).bl.firing = none) ∧
      (∀ (y : Sample), y ∈ sAdv.faults.samples → ¬(y.tile = 0 ∧ y.state = SampleState.live)) ∧
      ((sAdv.tile 0).bl.run = true) ∧
      ((R0 0).rel.status < 2) ∧
      ((releasedTile (sAdv.tile 0) (7 : BellIx) (R0 0).rel (if 7 = 63 ∧ ((R0 0).rel.status = 2 ∨ (R0 0).rel.status = 4) then ((sAdv.tile 0).sr.restore, []) else (sAdv.tile 0).sr.closeAt 7).fst).phaseOk (sAdv.tile 0).bl.pos.toNat = some ph0) ∧
      (ph0.bell = 7) ∧
      (ph0.count = 0) :=
    ⟨by decide +kernel, by decide +kernel, by decide +kernel, by decide +kernel, by decide +kernel, by decide +kernel, by decide +kernel, by decide +kernel, by decide +kernel, by decide +kernel, by decide +kernel, by decide +kernel, by decide +kernel, by decide +kernel, by decide +kernel, by decide +kernel⟩

theorem witness_releasesReach_2_2_2 :
      ((sRep.seat 0).valid = true) ∧
      ((sRep.seat 0).part = 0) ∧
      ((sRep.part 0).rels = [] ++ [R0 2]) ∧
      (∀ (g : RelFlight), g ∈ [] → ¬(g.rel.bell = 7 ∧ 0 ∈ g.left)) ∧
      ((R0 2).rel.bell = 7) ∧
      (0 ∈ (R0 2).left) ∧
      ((sRep.tile 0).pad.corrWords = []) ∧
      ((sRep.tile 0).pad.ecc = []) ∧
      ((sRep.tile 0).xc.walkCur = none) ∧
      ((sRep.tile 0).bl.firing = none) ∧
      (∀ (y : Sample), y ∈ sRep.faults.samples → ¬(y.tile = 0 ∧ y.state = SampleState.live)) ∧
      ((sRep.tile 0).bl.run = true) ∧
      (2 ≤ (R0 2).rel.status) ∧
      ((releasedTile (sRep.tile 0) (7 : BellIx) (R0 2).rel (if 7 = 63 ∧ ((R0 2).rel.status = 2 ∨ (R0 2).rel.status = 4) then ((sRep.tile 0).sr.restore, []) else (sRep.tile 0).sr.closeAt 7).fst).phaseAt (sRep.tile 0).bl.pos.toNat = some (ph0, false)) ∧
      (ph0.bell = 7) :=
    ⟨by decide +kernel, by decide +kernel, by decide +kernel, by decide +kernel, by decide +kernel, by decide +kernel, by decide +kernel, by decide +kernel, by decide +kernel, by decide +kernel, by decide +kernel, by decide +kernel, by decide +kernel, by decide +kernel, by decide +kernel⟩

theorem witness_releasesReach_2_1_2 :
      ((sDesc.seat 0).valid = true) ∧
      ((sDesc.seat 0).part = 0) ∧
      ((sDesc.part 0).rels = [] ++ [R0 0]) ∧
      (∀ (g : RelFlight), g ∈ [] → ¬(g.rel.bell = 7 ∧ 0 ∈ g.left)) ∧
      ((R0 0).rel.bell = 7) ∧
      (0 ∈ (R0 0).left) ∧
      ((sDesc.tile 0).pad.corrWords = []) ∧
      ((sDesc.tile 0).pad.ecc = []) ∧
      ((sDesc.tile 0).xc.walkCur = none) ∧
      ((sDesc.tile 0).bl.firing = none) ∧
      (∀ (y : Sample), y ∈ sDesc.faults.samples → ¬(y.tile = 0 ∧ y.state = SampleState.live)) ∧
      ((sDesc.tile 0).bl.run = true) ∧
      ((R0 0).rel.status < 2) ∧
      ((releasedTile (sDesc.tile 0) (7 : BellIx) (R0 0).rel (if 7 = 63 ∧ ((R0 0).rel.status = 2 ∨ (R0 0).rel.status = 4) then ((sDesc.tile 0).sr.restore, []) else (sDesc.tile 0).sr.closeAt 7).fst).phaseOk (sDesc.tile 0).bl.pos.toNat = some phDesc) ∧
      (phDesc.bell = 7) ∧
      (phDesc.count ≠ 0) ∧
      (reaches ((if (R0 0).fresh = true then firstReached sDesc 0 (R0 0).rel else sDesc).setPart 0 { ((if (R0 0).fresh = true then firstReached sDesc 0 (R0 0).rel else sDesc).part 0) with rels := List.filter (fun (g : RelFlight) => !g.left.isEmpty) (List.map (fun (g : RelFlight) => if g = R0 0 then { rel := (R0 0).rel, left := List.filter (fun (k : Nat) => decide (k ≠ 0)) (R0 0).left, fresh := false : RelFlight } else g) (sDesc.part 0).rels) : Part }) 0 (0) (handleOf (sDesc.tile 0) 1) ((sDesc.tile 0).bl.pos.toNat + 32) curDesc) :=
    ⟨by decide +kernel, by decide +kernel, by decide +kernel, by decide +kernel, by decide +kernel, by decide +kernel, by decide +kernel, by decide +kernel, by decide +kernel, by decide +kernel, by decide +kernel, by decide +kernel, by decide +kernel, by decide +kernel, by decide +kernel, by decide +kernel, by decide +kernel⟩

theorem witness_releasesReach_2_2_1 :
      ((sOther.seat 0).valid = true) ∧
      ((sOther.seat 0).part = 0) ∧
      ((sOther.part 0).rels = [] ++ [R0 2]) ∧
      (∀ (g : RelFlight), g ∈ [] → ¬(g.rel.bell = 7 ∧ 0 ∈ g.left)) ∧
      ((R0 2).rel.bell = 7) ∧
      (0 ∈ (R0 2).left) ∧
      ((sOther.tile 0).pad.corrWords = []) ∧
      ((sOther.tile 0).pad.ecc = []) ∧
      ((sOther.tile 0).xc.walkCur = none) ∧
      ((sOther.tile 0).bl.firing = none) ∧
      (∀ (y : Sample), y ∈ sOther.faults.samples → ¬(y.tile = 0 ∧ y.state = SampleState.live)) ∧
      ((sOther.tile 0).bl.run = true) ∧
      ((releasedTile (sOther.tile 0) (7 : BellIx) (R0 2).rel (if 7 = 63 ∧ ((R0 2).rel.status = 2 ∨ (R0 2).rel.status = 4) then ((sOther.tile 0).sr.restore, []) else (sOther.tile 0).sr.closeAt 7).fst).phaseAt (sOther.tile 0).bl.pos.toNat = some (phOther.fst, phOther.snd)) ∧
      (phOther.fst.bell ≠ 7) :=
    ⟨by decide +kernel, by decide +kernel, by decide +kernel, by decide +kernel, by decide +kernel, by decide +kernel, by decide +kernel, by decide +kernel, by decide +kernel, by decide +kernel, by decide +kernel, by decide +kernel, by decide +kernel, by decide +kernel⟩

theorem witness_firingsEnd_1 :
      ((fires false true 128 none true).runs 0 = some 0) ∧
      (((fires false true 128 none true).tile 0).pad.corrWords = []) ∧
      (((fires false true 128 none true).tile 0).bl.firing = some (2, 2)) ∧
      (((fires false true 128 none true).tile 0).xc.walkCur = none) ∧
      (((fires false true 128 none true).tile 0).phaseAt ((fires false true 128 none true).tile 0).bl.pos.toNat = some ((firePh false true 128 none true).fst, (firePh false true 128 none true).snd)) ∧
      ((firePh false true 128 none true).fst.se = true → ((fires false true 128 none true).tile 0).core.tokens[(firePh false true 128 none true).fst.token.toNat] < (15 : BitVec 4)) ∧
      (((fires false true 128 none true).tile 0).bl.stopping = true) :=
    ⟨by decide +kernel, by decide +kernel, by decide +kernel, by decide +kernel, by decide +kernel, by decide +kernel, by decide +kernel⟩

theorem witness_firingsEnd_2_1 :
      ((fires false true 128 (some 5) false).runs 0 = some 0) ∧
      (((fires false true 128 (some 5) false).tile 0).pad.corrWords = []) ∧
      (((fires false true 128 (some 5) false).tile 0).bl.firing = some (2, 2)) ∧
      (((fires false true 128 (some 5) false).tile 0).xc.walkCur = none) ∧
      (((fires false true 128 (some 5) false).tile 0).phaseAt ((fires false true 128 (some 5) false).tile 0).bl.pos.toNat = some ((firePh false true 128 (some 5) false).fst, (firePh false true 128 (some 5) false).snd)) ∧
      ((firePh false true 128 (some 5) false).fst.se = true → ((fires false true 128 (some 5) false).tile 0).core.tokens[(firePh false true 128 (some 5) false).fst.token.toNat] < (15 : BitVec 4)) ∧
      (((fires false true 128 (some 5) false).tile 0).bl.stopping = false) ∧
      (((fires false true 128 (some 5) false).tile 0).bl.latched = []) ∧
      (((fires false true 128 (some 5) false).tile 0).bl.again = some (4 + 1)) :=
    ⟨by decide +kernel, by decide +kernel, by decide +kernel, by decide +kernel, by decide +kernel, by decide +kernel, by decide +kernel, by decide +kernel, by decide +kernel⟩

theorem witness_firingsEnd_2_2_1 :
      ((fires true true 128 none false).runs 0 = some 0) ∧
      (((fires true true 128 none false).tile 0).pad.corrWords = []) ∧
      (((fires true true 128 none false).tile 0).bl.firing = some (2, 2)) ∧
      (((fires true true 128 none false).tile 0).xc.walkCur = none) ∧
      (((fires true true 128 none false).tile 0).phaseAt ((fires true true 128 none false).tile 0).bl.pos.toNat = some ((firePh true true 128 none false).fst, (firePh true true 128 none false).snd)) ∧
      ((firePh true true 128 none false).fst.se = true → ((fires true true 128 none false).tile 0).core.tokens[(firePh true true 128 none false).fst.token.toNat] < (15 : BitVec 4)) ∧
      (((fires true true 128 none false).tile 0).bl.stopping = false) ∧
      (((fires true true 128 none false).tile 0).bl.again = some 0 ∨ ((fires true true 128 none false).tile 0).bl.again = none) ∧
      ((firePh true true 128 none false).fst.stop = true) :=
    ⟨by decide +kernel, by decide +kernel, by decide +kernel, by decide +kernel, by decide +kernel, by decide +kernel, by decide +kernel, by decide +kernel, by decide +kernel⟩

theorem witness_firingsEnd_2_2_2_1 :
      ((fires false true 64 none false).runs 0 = some 0) ∧
      (((fires false true 64 none false).tile 0).pad.corrWords = []) ∧
      (((fires false true 64 none false).tile 0).bl.firing = some (2, 2)) ∧
      (((fires false true 64 none false).tile 0).xc.walkCur = none) ∧
      (((fires false true 64 none false).tile 0).phaseAt ((fires false true 64 none false).tile 0).bl.pos.toNat = some ((firePh false true 64 none false).fst, (firePh false true 64 none false).snd)) ∧
      ((firePh false true 64 none false).fst.se = true → ((fires false true 64 none false).tile 0).core.tokens[(firePh false true 64 none false).fst.token.toNat] < (15 : BitVec 4)) ∧
      (((fires false true 64 none false).tile 0).bl.stopping = false) ∧
      (((fires false true 64 none false).tile 0).bl.latched = []) ∧
      (((fires false true 64 none false).tile 0).bl.again = some 0 ∨ ((fires false true 64 none false).tile 0).bl.again = none) ∧
      ((firePh false true 64 none false).fst.stop = false) ∧
      (((fires false true 64 none false).tile 0).phaseOk ((firePh false true 64 none false).fst.next % 2 ^ 20) = some nextPh) :=
    ⟨by decide +kernel, by decide +kernel, by decide +kernel, by decide +kernel, by decide +kernel, by decide +kernel, by decide +kernel, by decide +kernel, by decide +kernel, by decide +kernel, by decide +kernel⟩

theorem witness_firingsEnd_2_2_2_2 :
      ((fires false true 128 none false).runs 0 = some 0) ∧
      (((fires false true 128 none false).tile 0).pad.corrWords = []) ∧
      (((fires false true 128 none false).tile 0).bl.firing = some (2, 2)) ∧
      (((fires false true 128 none false).tile 0).xc.walkCur = none) ∧
      (((fires false true 128 none false).tile 0).phaseAt ((fires false true 128 none false).tile 0).bl.pos.toNat = some ((firePh false true 128 none false).fst, (firePh false true 128 none false).snd)) ∧
      ((firePh false true 128 none false).fst.se = true → ((fires false true 128 none false).tile 0).core.tokens[(firePh false true 128 none false).fst.token.toNat] < (15 : BitVec 4)) ∧
      (((fires false true 128 none false).tile 0).bl.stopping = false) ∧
      (((fires false true 128 none false).tile 0).bl.latched = []) ∧
      (((fires false true 128 none false).tile 0).bl.again = some 0 ∨ ((fires false true 128 none false).tile 0).bl.again = none) ∧
      ((firePh false true 128 none false).fst.stop = false) ∧
      (((fires false true 128 none false).tile 0).phaseOk ((firePh false true 128 none false).fst.next % 2 ^ 20) = none) :=
    ⟨by decide +kernel, by decide +kernel, by decide +kernel, by decide +kernel, by decide +kernel, by decide +kernel, by decide +kernel, by decide +kernel, by decide +kernel, by decide +kernel, by decide +kernel⟩

end T12

namespace T13

def P (st : PortState) (f : Port → Port) : State := let s := (demo.modPart 0 fun x => { x with ports := 0xFFFF, count := 2 }); { s with now := 5000, faults := { s.faults with lifeBase := 77 } }.setPort 3 (f { Port.reset with state := st, since := 40, owner := some 0, admitted := 15, width := 4, vmaj := 4, vmin := 1, cells := [.passes 1 2 3], timeLast := 4000 })

def v1 := (P .retrain fun x => { x with peerValid := true, toWidth := 2, retry := [(1,2,[])] })

def v2 := (P .retrain fun x => { x with toWidth := 2 })

def cap (a b c d cr : Nat) (ln : Nat := 15) : CapRec := ⟨99, 7, a, b, c, d, ln, [cr, 3, 4, 5]⟩

def pn (c : CapRec) (sent : Bool) (ret : Nat) := P .negotiate fun x => { x with partner := some c, capSent := sent, retired := ret, cells := [.cap c, .passes 1 2 3] }

def wb : WriteBody := ⟨3, 64, [1,2], none, false, none, some 1⟩

def v5 := (P .active fun x => { x with toRetire := 6, minw := .of 3 })

def v6 := (P .active fun x => { x with toRetire := 6, vmaj := 3, minw := .of 3 })

def fails3 := P .active fun x => { x with fails := 3 }

def hd (n cls : Nat) : List Byte := (((Ctx.write { wb with data := rnd 2 n, flow := if cls = 3 then some 200 else none } 5 1).slots 4).1.getD 0 (0, [])).2

def e0 : Ends := ⟨3, 9, 4001, 7⟩

def cx (c : Ctx) (f : Part → Part) := (P .active fun x => { x with rxCtx := [(c, 4, 1), (.close e0, 1, 3)] }).modPart 0 f

def e1 : Ends := ⟨3, 9, 1, 7⟩

def v13 := (Ctx.write { wb with data := [] } 1 9)

def tm (b : Body) (d : Place) := { P .active fun x => { x with timeT1 := some 4000 } with net := [⟨.port 3, d, 0, [], b⟩] }

def thb (r : Nat) := (tm (.ctl (.throttle 9 r 4)) .root).modPart 0 fun x => { x with bells := Tab.put [] 63 ⟨some ⟨false, true, 7, true, false, 4, 12, 1⟩, 6, [], [], none, false, none, [], false⟩ }

def thc (r : Nat) : State := { thb r with power := { (thb r).power with notices := [⟨0, 9, 7, 5⟩, ⟨0, 8, 7, 5⟩] } }

theorem witness_portsTrain_2_2_1_1 :
      (((P PortState.train id).port 3).state = PortState.train) :=
    by decide +kernel

theorem witness_portsTrain_2_2_2_2_2_2_1 :
      ((v1.port 3).state = PortState.retrain) :=
    by decide +kernel

theorem witness_portsTrain_2_2_2_2_2_2_2 :
      ((v2.port 3).state = PortState.retrain) :=
    by decide +kernel

theorem witness_portsTrain_2_2_1_2 :
      (((P PortState.train id).port 3).state = PortState.train) ∧
      ((List.filter (fun (k : Nat) => (BitVec.toNat (15 : BitVec 4)).testBit k && !((P PortState.train id).port 3).retired.testBit k) (List.range 4)).length ≠ 0) :=
    ⟨by decide +kernel, by decide +kernel⟩

theorem witness_portsNegotiate_1 :
      (((pn (cap 4 1 3 0 15) true 0).port 3).state = PortState.negotiate) ∧
      (((pn (cap 4 1 3 0 15) true 0).port 3).partner = some (cap 4 1 3 0 15)) :=
    ⟨by decide +kernel, by decide +kernel⟩

theorem witness_portsNegotiate_2_1 :
      (((pn (cap 4 1 3 0 16) false 0).port 3).state = PortState.negotiate) ∧
      (((pn (cap 4 1 3 0 16) false 0).port 3).partner = some (cap 4 1 3 0 16)) :=
    ⟨by decide +kernel, by decide +kernel⟩

theorem witness_portsNegotiate_2_2_1 :
      (((pn (cap 5 1 4 2 16) true 0).port 3).state = PortState.negotiate) ∧
      (((pn (cap 5 1 4 2 16) true 0).port 3).partner = some (cap 5 1 4 2 16)) :=
    ⟨by decide +kernel, by decide +kernel⟩

theorem witness_portsNegotiate_2_2_2_2 :
      (((pn (cap 5 1 4 1 16) true 0).port 3).state = PortState.negotiate) ∧
      (((pn (cap 5 1 4 1 16) true 0).port 3).partner = some (cap 5 1 4 1 16)) ∧
      (16 ≤ (cap 5 1 4 1 16).credits.getD 0 0) ∧
      (((pn (cap 5 1 4 1 16) true 0).port 3).capSent = true) ∧
      (agreed (cap 5 1 4 1 16) = some 65) :=
    ⟨by decide +kernel, by decide +kernel, by decide +kernel, by decide +kernel, by decide +kernel⟩

theorem witness_portsNegotiate_2_2_2_1 :
      (((pn (cap 4 0 3 1 16) true 2).port 3).state = PortState.negotiate) ∧
      (((pn (cap 4 0 3 1 16) true 2).port 3).partner = some (cap 4 0 3 1 16)) ∧
      (16 ≤ (cap 4 0 3 1 16).credits.getD 0 0) ∧
      (((pn (cap 4 0 3 1 16) true 2).port 3).capSent = true) ∧
      (agreed (cap 4 0 3 1 16) = some 64) :=
    ⟨by decide +kernel, by decide +kernel, by decide +kernel, by decide +kernel, by decide +kernel⟩

theorem witness_lanesLost_1 :
      ((v5.port 3).state = PortState.active ∨ (v5.port 3).state = PortState.retrain ∨ (v5.port 3).state = PortState.negotiate) ∧
      (2 ∈ (v5.port 3).lanes) ∧
      ((v5.port 3).retired.testBit 2 = false) :=
    ⟨by decide +kernel, by decide +kernel, by decide +kernel⟩

theorem witness_lanesLost_2 :
      ((v6.port 3).state = PortState.active ∨ (v6.port 3).state = PortState.retrain ∨ (v6.port 3).state = PortState.negotiate) ∧
      (2 ∈ (v6.port 3).lanes) ∧
      ((v6.port 3).retired.testBit 2 = false) :=
    ⟨by decide +kernel, by decide +kernel, by decide +kernel⟩

theorem witness_slotsReceived_1 :
      ((hd 40 1).length = 64) :=
    by decide +kernel

theorem witness_slotsReceived_2_1 :
      ((hd 40 1).length = 64) ∧
      (1 ∈ [1, 3]) :=
    ⟨by decide +kernel, by decide +kernel⟩

theorem witness_slotsReceived_2_2_1 :
      ((hd 48 3).length = 64) :=
    by decide +kernel

theorem witness_slotsReceived_2_2_2_1 :
      ((hd 48 3).length = 64) :=
    by decide +kernel

theorem witness_slotsReceived_2_2_2_2 :
      ((hd 48 3).length = 64) :=
    by decide +kernel

theorem witness_contextsDelivered_1_1 :
      (((cx v13 id).port 3).rxCtx = [(Ctx.write { wb with data := [] : WriteBody } 1 9, 4, 1), (Ctx.close e0, 1, 3)]) ∧
      (admits (cx v13 id) 3 0 1) :=
    ⟨by decide +kernel, by decide +kernel⟩

theorem witness_contextsDelivered_1_2 :
      (((cx (Ctx.write wb 2 9) id).port 3).rxCtx = [(Ctx.write wb 2 9, 4, 1), (Ctx.close e0, 1, 3)]) ∧
      (∀ (p : Nat), ¬admits (cx (Ctx.write wb 2 9) id) (3) p 2) :=
    ⟨by decide +kernel, preAway (by decide +kernel)⟩

theorem witness_contextsDelivered_2_1_1 :
      (((cx (Ctx.msg e1 0 (5 : BitVec 32) (6 : BitVec 32) []) id).port 3).rxCtx = [(Ctx.msg e1 0 (5 : BitVec 32) (6 : BitVec 32) [], 4, 1), (Ctx.close e0, 1, 3)]) ∧
      (admits (cx (Ctx.msg e1 0 (5 : BitVec 32) (6 : BitVec 32) []) id) 3 0 e1.dtile) :=
    ⟨by decide +kernel, by decide +kernel⟩

theorem witness_contextsDelivered_2_1_2 :
      (((cx (Ctx.msg e0 0 (5 : BitVec 32) (6 : BitVec 32) []) id).port 3).rxCtx = [(Ctx.msg e0 0 (5 : BitVec 32) (6 : BitVec 32) [], 4, 1), (Ctx.close e0, 1, 3)]) ∧
      (∀ (p : Nat), ¬admits (cx (Ctx.msg e0 0 (5 : BitVec 32) (6 : BitVec 32) []) id) (3) p e0.dtile) :=
    ⟨by decide +kernel, preAway (by decide +kernel)⟩

theorem witness_contextsDelivered_2_2_1 :
      (((cx (Ctx.msgc e1 16384 (5 : BitVec 32) (rnd 1 70)) id).port 3).rxCtx = [(Ctx.msgc e1 16384 (5 : BitVec 32) (rnd 1 70), 4, 1), (Ctx.close e0, 1, 3)]) ∧
      (admits (cx (Ctx.msgc e1 16384 (5 : BitVec 32) (rnd 1 70)) id) 3 0 e1.dtile) :=
    ⟨by decide +kernel, by decide +kernel⟩

theorem witness_contextsDelivered_2_2_2_1 :
      (((cx (Ctx.pad e1 (16 : BitVec 32) 5) id).port 3).rxCtx = [(Ctx.pad e1 (16 : BitVec 32) 5, 4, 1), (Ctx.close e0, 1, 3)]) ∧
      (admits (cx (Ctx.pad e1 (16 : BitVec 32) 5) id) 3 0 e1.dtile) :=
    ⟨by decide +kernel, by decide +kernel⟩

theorem witness_contextsDelivered_2_2_2_2_1 :
      (((cx (Ctx.close e1) id).port 3).rxCtx = [(Ctx.close e1, 4, 1), (Ctx.close e0, 1, 3)]) ∧
      (admits (cx (Ctx.close e1) id) 3 0 e1.dtile) :=
    ⟨by decide +kernel, by decide +kernel⟩

theorem witness_contextsDelivered_2_2_2_2_2 :
      (((cx (Ctx.close e0) id).port 3).rxCtx = [(Ctx.close e0, 4, 1), (Ctx.close e0, 1, 3)]) ∧
      (∀ (p : Nat), ¬admits (cx (Ctx.close e0) id) (3) p e0.dtile) :=
    ⟨by decide +kernel, preAway (by decide +kernel)⟩

theorem witness_timeAndThrottle_2_1 :
      (Next (tm (Body.ctl (Ctl.timeReq 5 6)) (Place.port 3)) 0 { src := Place.port 3, dst := Place.port 3, part := 0, tags := [], body := Body.ctl (Ctl.timeReq 5 6) : Packet }) :=
    ⟨by decide +kernel, by decide +kernel⟩

theorem witness_timeAndThrottle_2_2_1_1 :
      (Next (tm (Body.ctl (Ctl.timeRep 5 6 9000)) (Place.port 3)) 0 { src := Place.port 3, dst := Place.port 3, part := 0, tags := [], body := Body.ctl (Ctl.timeRep 5 6 9000) : Packet }) ∧
      (((tm (Body.ctl (Ctl.timeRep 5 6 9000)) (Place.port 3)).port 3).timeT1 = some 4000) :=
    ⟨⟨by decide +kernel, by decide +kernel⟩, by decide +kernel⟩

theorem witness_timeAndThrottle_2_2_2 :
      (Next (thc 31) 0 { src := Place.port 3, dst := Place.root, part := 0, tags := [], body := Body.ctl (Ctl.throttle 9 31 4) : Packet }) :=
    ⟨by decide +kernel, by decide +kernel⟩

theorem witness_timeAndThrottle_2_2_1_2 :
      (Next { (tm (Body.ctl (Ctl.timeRep 5 6 9000)) (Place.port 3)) with ports := (tm (Body.ctl (Ctl.timeRep 5 6 9000)) (Place.port 3)).ports.set 3 { ((tm (Body.ctl (Ctl.timeRep 5 6 9000)) (Place.port 3)).port 3) with timeT1 := none : Port } (by decide) : State } 0 { src := Place.port 3, dst := Place.port 3, part := 0, tags := [], body := Body.ctl (Ctl.timeRep 5 6 9000) : Packet }) ∧
      (({ (tm (Body.ctl (Ctl.timeRep 5 6 9000)) (Place.port 3)) with ports := (tm (Body.ctl (Ctl.timeRep 5 6 9000)) (Place.port 3)).ports.set 3 { ((tm (Body.ctl (Ctl.timeRep 5 6 9000)) (Place.port 3)).port 3) with timeT1 := none : Port } (by decide) : State }.port 3).timeT1 = none) :=
    ⟨⟨by decide +kernel, by decide +kernel⟩, by decide +kernel⟩

theorem witness_wireReadBack_1 :
      (fits (Ctl.passes 15 4095 77)) :=
    ⟨by decide +kernel, by decide +kernel, by decide +kernel⟩

theorem witness_wireReadBack_2_1_1 :
      (5 < 2 ^ 64) ∧
      (6 < 2 ^ 32) ∧
      (6 ≤ 7) ∧
      (7 < 2 ^ 64) :=
    ⟨by decide +kernel, by decide +kernel, by decide +kernel, by decide +kernel⟩

theorem witness_wireReadBack_2_2_1 :
      (ctxFits (Ctx.close e0)) :=
    ⟨by decide +kernel, by decide +kernel, by decide +kernel, by decide +kernel⟩

/-- A frame of zeros whose first codeword ends in the coefficients of (x − 1)(x − 2)(x − 4): three syndromes are zero and the fourth is not. -/
def badFrame : List Byte := List.replicate 264 0 ++ [1, 7, 14, 8] ++ List.replicate 4 0
def zeros272 : List Byte := List.replicate 272 0
def z256 : List Byte := List.replicate 256 0
/-- Sequence number 8, acknowledging 19; and a null frame that asks for a resend and acknowledges 19. -/
def L1 : Nat := 8 + 19 * 256
def L3 : Nat := 8 + 19 * 256 + 2 ^ 24 + 2 ^ 30
def rxAt (rx tx : BitVec 8) (r : List (BitVec 8 × Nat × List Byte)) : State := P .active fun x => { x with rxSeq := rx, txSeq := tx, retry := r }
theorem gfMulBits_zero (b n : Nat) : gfMulBits b n 0 = 0 := by
  induction n with
  | zero => rfl
  | succ n ih => simp [gfMulBits, gfDouble, ih]
theorem zero_gfMulBits (n a : Nat) : gfMulBits 0 n a = 0 := by
  induction n generalizing a with
  | zero => rfl
  | succ n ih => simp [gfMulBits, ih]
theorem rsTwo_zeros (k : Nat) : rsTwo 0 0 0 k = none := by
  simp [rsTwo, gfMul, gfMulBits_zero, zero_gfMulBits]
def aWord (f : List Byte) : List Nat := (cwPlaces 0).map (fun i => (nth f i 0).toNat)
theorem decodeBad {f : List Byte} (h : rsDecode (aWord f) = none) : decodeFrame f = .badFec := by
  simp only [aWord] at h
  unfold decodeFrame
  simp only [h]
theorem undecided {w : List Nat} {k : Nat} (h0 : rsSyndrome w 0 = 0) (h1 : rsSyndrome w 1 = 0) (h2 : rsSyndrome w 2 = 0) (h3 : rsSyndrome w 3 = k)
    (hk : k ≠ 0) (h4 : rsOne 0 0 0 k = none) : rsDecode w = none := by
  simp [rsDecode, h0, h1, h2, h3, hk, h4, rsTwo_zeros]
theorem badFec : decodeFrame badFrame = .badFec :=
  decodeBad (undecided (k := rsSyndrome (aWord badFrame) 3) (by decide +kernel) (by decide +kernel) (by decide +kernel) rfl (by decide +kernel) (by decide +kernel))
theorem badCrc : decodeFrame zeros272 = .badCrc [] := by decide +kernel
theorem clean1 : decodeFrame (frameOf L1 z256) = .good L1 z256 [] := by decide +kernel
theorem clean3 : decodeFrame (frameOf L3 z256) = .good L3 z256 [] := by decide +kernel
theorem witness_framesReceived_1 : (fails3.port 3).state = .active ∧ decodeFrame badFrame = .badFec ∧ (fails3.port 3).fails < 16 :=
    ⟨by decide +kernel, badFec, by decide +kernel⟩
theorem witness_framesReceived_2_1 : (fails3.port 3).state = .active ∧ decodeFrame zeros272 = .badCrc [] ∧ (fails3.port 3).fails < 16 :=
    ⟨by decide +kernel, badCrc, by decide +kernel⟩
theorem witness_framesReceived_2_2_1 : ((rxAt 7 30 []).port 3).state = .active ∧ decodeFrame (frameOf L1 z256) = .good L1 z256 [] ∧
      ∀ y, ¬ ackedTo (fixedOn ((rxAt 7 30 []).port 3) [] (rxAt 7 30 []).now) (BitVec.ofNat 8 (L1 / 256)) y := by
  refine ⟨by decide +kernel, clean1, fun y h => ?_⟩
  rw [ackedTo, if_neg (by decide +kernel)] at h
  obtain ⟨pre, n, bits, body, post, h, -⟩ := h
  have e : ((fixedOn ((rxAt 7 30 []).port 3) [] (rxAt 7 30 []).now).retry : List _) = [] := by decide +kernel
  rw [e] at h
  simp at h
theorem witness_framesReceived_2_2_2_1 : ((rxAt 7 20 []).port 3).state = .active ∧ decodeFrame (frameOf L3 z256) = .good L3 z256 [] ∧
      ackedTo (fixedOn ((rxAt 7 20 []).port 3) [] (rxAt 7 20 []).now) (BitVec.ofNat 8 (L3 / 256)) (fixedOn ((rxAt 7 20 []).port 3) [] (rxAt 7 20 []).now) ∧
      (fixedOn ((rxAt 7 20 []).port 3) [] (rxAt 7 20 []).now).retry = [] ∧ L3 / 2 ^ 30 % 2 = 1 :=
    ⟨by decide +kernel, clean3, by rw [ackedTo, if_pos (by decide +kernel)], by decide +kernel, by decide⟩
theorem witness_framesReceived_2_2_2_2 : ((rxAt 7 20 []).port 3).state = .active ∧ decodeFrame (frameOf L1 z256) = .good L1 z256 [] ∧
      ackedTo (fixedOn ((rxAt 7 20 []).port 3) [] (rxAt 7 20 []).now) (BitVec.ofNat 8 (L1 / 256)) (fixedOn ((rxAt 7 20 []).port 3) [] (rxAt 7 20 []).now) ∧
      L1 / 2 ^ 24 % 2 = 0 ∧ L1 / 2 ^ 30 % 2 = 0 ∧ BitVec.ofNat 8 L1 = ((rxAt 7 20 []).port 3).rxSeq + 1 :=
    ⟨by decide +kernel, clean1, by rw [ackedTo, if_pos (by decide +kernel)], by decide, by decide, by decide +kernel⟩
theorem witness_framesReceived_2_2_2_3 : ((rxAt 5 20 []).port 3).state = .active ∧ decodeFrame (frameOf L1 z256) = .good L1 z256 [] ∧
      ackedTo (fixedOn ((rxAt 5 20 []).port 3) [] (rxAt 5 20 []).now) (BitVec.ofNat 8 (L1 / 256)) (fixedOn ((rxAt 5 20 []).port 3) [] (rxAt 5 20 []).now) ∧
      L1 / 2 ^ 24 % 2 = 0 ∧ L1 / 2 ^ 30 % 2 = 0 ∧ 0 < (BitVec.ofNat 8 L1 - (((rxAt 5 20 []).port 3).rxSeq + 1)).toNat ∧
      (BitVec.ofNat 8 L1 - (((rxAt 5 20 []).port 3).rxSeq + 1)).toNat < 128 :=
    ⟨by decide +kernel, clean1, by rw [ackedTo, if_pos (by decide +kernel)], by decide, by decide, by decide +kernel, by decide +kernel⟩
theorem witness_framesReceived_2_2_2_4 : ((rxAt 9 20 []).port 3).state = .active ∧ decodeFrame (frameOf L1 z256) = .good L1 z256 [] ∧
      ackedTo (fixedOn ((rxAt 9 20 []).port 3) [] (rxAt 9 20 []).now) (BitVec.ofNat 8 (L1 / 256)) (fixedOn ((rxAt 9 20 []).port 3) [] (rxAt 9 20 []).now) ∧
      L1 / 2 ^ 24 % 2 = 0 ∧ L1 / 2 ^ 30 % 2 = 0 ∧ 128 ≤ (BitVec.ofNat 8 L1 - (((rxAt 9 20 []).port 3).rxSeq + 1)).toNat :=
    ⟨by decide +kernel, clean1, by rw [ackedTo, if_pos (by decide +kernel)], by decide, by decide, by decide +kernel⟩
theorem witness_framesReceived_2_2_3 : ((rxAt 7 21 [(20, 1, [])]).port 3).state = .active ∧ decodeFrame (frameOf L3 z256) = .good L3 z256 [] ∧
      ackedTo (fixedOn ((rxAt 7 21 [(20, 1, [])]).port 3) [] (rxAt 7 21 [(20, 1, [])]).now) (BitVec.ofNat 8 (L3 / 256))
        (fixedOn ((rxAt 7 21 [(20, 1, [])]).port 3) [] (rxAt 7 21 [(20, 1, [])]).now) ∧
      L3 / 2 ^ 24 % 2 = 1 ∧ (fixedOn ((rxAt 7 21 [(20, 1, [])]).port 3) [] (rxAt 7 21 [(20, 1, [])]).now).retry ≠ [] ∧
      (fixedOn ((rxAt 7 21 [(20, 1, [])]).port 3) [] (rxAt 7 21 [(20, 1, [])]).now).resends = 0 ∧ L3 / 2 ^ 30 % 2 = 1 :=
    ⟨by decide +kernel, clean3, by rw [ackedTo, if_pos (by decide +kernel)], by decide, by decide +kernel, by decide +kernel, by decide⟩

end T13

namespace T14

def reply (k op st : Nat) (d : Bool := false) (ni : Bool := false) : Reply := ⟨k, st, op, d, 77, 0xABCDEF, [1, 2, 3], 9, ni⟩

def C (k op : Nat) (g : Cmd → Cmd := id) : Cmd := g ⟨1, k, op, false, false, false, 8, 55, 0x1234, rnd 3 240, 40, false, false, false, false, 0⟩

def F (g : Fn → Fn) (cs : List Cmd := []) : State := let s := { demo with now := 5000, cmds := cs, up := { demo.up with ready := 1 } }; s.setFn 1 (g { Fn.reset with neg := true, uver := 0x32, rr := ⟨.of 0x10000, .of 10, .of true, 5, 1023, true⟩, ev := ⟨.of 0x20000, .of 6, .of true, 5, 62, true⟩, slots := Mem.writeN [] 512 (rnd 1 256), imodCount := 3, imodDelay := 4 })

def v1 := (F fun x => { x with full := [(2, 5)] })

def v3 := (F fun x => { x with rr := { x.rr with en := .of false } })

def c1 := C 3 0x20

def c2 := C 3 0x20 fun c => { c with silent := true }

def c3 := C 3 0x20 fun c => { c with deferred := true }

def c4 := C 3 0x20 fun c => { c with taken := true }

def c5 := C 3 0x20 fun c => { c with taken := true, silent := true }

def v4 := (F fun x => { x with dones := [reply 3 0x30 0, reply 4 4 4] })

def v6 := (F fun x => { x with classes := .of 1 })

def v7 := (F fun x => { x with gap := some (1,2) })

def v8 := (F fun x => { x with ev := { x.ev with head := 63 } })

def v9 := (F fun x => { x with held := List.replicate 256 ⟨1,none,1,1,[]⟩ })

def e9 : Event := ⟨0x1001,some 2,1,1,[1,2,3]⟩

def v11 := (F fun x => { x with held := [e9, e9] })

def v12 := (F fun x => { x with gap := some (4, 5) })

def v13 := (F fun x => { x with msix := x.msix.set 1 ⟨5, false, false, 2, some 8⟩ })

def v14 := (F fun x => { x with imodDelay := 0, msix := x.msix.set 1 ⟨5, false, false, 2, some 8⟩ })

def cf (op : Nat) : Cmd := C 3 op fun c => { c with taken := true }

def formBare : Form := { code := 0x20, len := 8, masks := [], bad := fun _ => [], pfOnly := true, since := 0x31 }

def cmdFor (g : Cmd → Cmd) : Cmd := g { c1 with plen := 8 }

def sNew := F fun x => { x with neg := false }

def sOld := F fun x => { x with uver := 0x30 }

def v16 := (cmdFor fun c => { c with dup := true })

def pfSide := (F id).setFn 0 { Fn.reset with neg := true, uver := 0x32 }

def v17 := (cmdFor fun c => { c with func := 0 })

theorem witness_commandsSubmitted_1 :
      ((v1.fn 1).full.find? 2 ≠ none) :=
    by decide +kernel

theorem witness_commandsSubmitted_2_2_1 :
      ((v3.fn 1).full.find? 2 = none) ∧
      (¬((v3.fn 1).rr.en.force = true ∧ v3.up.ready.getLsbD 0 = true)) :=
    ⟨by decide +kernel, by decide +kernel⟩

theorem witness_commandsSubmitted_2_2_2_1 :
      (((F id).fn 1).full.find? 2 = none) ∧
      (((F id).fn 1).rr.en.force = true ∧ (F id).up.ready.getLsbD 0 = true) ∧
      (∀ (c : Cmd), c ∈ (F id).cmds → c.opcode ∈ opcodes) :=
    ⟨by decide +kernel, by decide +kernel, by decide +kernel⟩

theorem witness_commandsEnd_2_1 :
      ((F id [C 1 2, c1, C 5 9]).cmds = [C 1 2] ++ [c1, C 5 9]) ∧
      (∀ (d : Cmd), d ∈ [C 1 2] ++ [C 5 9] → ¬(d.func = c1.func ∧ d.slot = c1.slot ∧ d.at_ = c1.at_ ∧ d.seq = c1.seq)) ∧
      (c1.silent = false) :=
    ⟨by decide +kernel, by decide +kernel, by decide +kernel⟩

theorem witness_commandsEnd_1 :
      ((F id [C 1 2, c2, C 5 9]).cmds = [C 1 2] ++ [c2, C 5 9]) ∧
      (∀ (d : Cmd), d ∈ [C 1 2] ++ [C 5 9] → ¬(d.func = c2.func ∧ d.slot = c2.slot ∧ d.at_ = c2.at_ ∧ d.seq = c2.seq)) ∧
      (c2.silent = true) :=
    ⟨by decide +kernel, by decide +kernel, by decide +kernel⟩

theorem witness_commandsEnd_2_2 :
      ((F id [C 1 2, c3, C 5 9]).cmds = [C 1 2] ++ [c3, C 5 9]) ∧
      (∀ (d : Cmd), d ∈ [C 1 2] ++ [C 5 9] → ¬(d.func = c3.func ∧ d.slot = c3.slot ∧ d.at_ = c3.at_ ∧ d.seq = c3.seq)) ∧
      (c3.silent = false) ∧
      (c3.deferred = true) :=
    ⟨by decide +kernel, by decide +kernel, by decide +kernel, by decide +kernel⟩

theorem witness_commandsLate_1_1 :
      (stands (F id [C 1 2, c1, C 5 9]) (1) (3) false c1) :=
    by decide +kernel

theorem witness_commandsLate_1_2_1 :
      (stands (F id [C 1 2, c4, C 5 9]) (1) (3) true c4) ∧
      (c4.silent = false) :=
    ⟨by decide +kernel, by decide +kernel⟩

theorem witness_commandsLate_1_2_2 :
      (stands (F id [C 1 2, c5, C 5 9]) (1) (3) true c5) ∧
      (c5.silent = true) :=
    ⟨by decide +kernel, by decide +kernel⟩

theorem witness_commandsLate_2 :
      ((v4.fn 1).dones = [reply 3 48 0, reply 4 4 4]) :=
    by decide +kernel

theorem witness_repliesWritten_1 :
      (((F (fun (x : Fn) => { x with full := [(3, (9 : Word))], replies := [reply 3 49 4 true, reply 4 4 4] : Fn }) [C 7 32]).fn 1).replies = [reply 3 49 4 true, reply 4 4 4]) ∧
      (∀ (c : Cmd), c ∈ (F (fun (x : Fn) => { x with full := [(3, (9 : Word))], replies := [reply 3 49 4 true, reply 4 4 4] : Fn }) [C 7 32]).cmds → c.opcode ∈ opcodes) ∧
      (roomIn ((F (fun (x : Fn) => { x with full := [(3, (9 : Word))], replies := [reply 3 49 4 true, reply 4 4 4] : Fn }) [C 7 32]).fn 1).rr) :=
    ⟨by decide +kernel, by decide +kernel, by decide +kernel⟩

theorem witness_repliesWritten_2 :
      (((F (fun (x : Fn) => { x with full := [(3, (9 : Word))], rr := { x.rr with head := 0 : Ring }, replies := [reply 3 49 4 true true, reply 4 4 4] : Fn }) [C 7 32]).fn 1).replies = [reply 3 49 4 true true, reply 4 4 4]) ∧
      (∀ (c : Cmd), c ∈ (F (fun (x : Fn) => { x with full := [(3, (9 : Word))], rr := { x.rr with head := 0 : Ring }, replies := [reply 3 49 4 true true, reply 4 4 4] : Fn }) [C 7 32]).cmds → c.opcode ∈ opcodes) ∧
      (¬roomIn ((F (fun (x : Fn) => { x with full := [(3, (9 : Word))], rr := { x.rr with head := 0 : Ring }, replies := [reply 3 49 4 true true, reply 4 4 4] : Fn }) [C 7 32]).fn 1).rr) :=
    ⟨by decide +kernel, by decide +kernel, by decide +kernel⟩

theorem witness_eventsPosted_1 :
      (1 < 9) ∧
      (¬(v6.fn 1).classes.force.testBit ((8193 / 4096 : Nat) - 1) = true) :=
    ⟨by decide +kernel, by decide +kernel⟩

theorem witness_eventsPosted_2_1 :
      (1 < 9) ∧
      (((F id).fn 1).classes.force.testBit ((8193 / 4096 : Nat) - 1) = true) ∧
      (((F id).fn 1).held = []) ∧
      (((F id).fn 1).gap = none) ∧
      (roomIn ((F id).fn 1).ev) :=
    ⟨by decide +kernel, by decide +kernel, by decide +kernel, by decide +kernel, by decide +kernel⟩

theorem witness_eventsPosted_2_2_1 :
      (1 < 9) ∧
      ((v7.fn 1).classes.force.testBit ((8193 / 4096 : Nat) - 1) = true) ∧
      ((v7.fn 1).held ≠ [] ∨ (v7.fn 1).gap ≠ none ∨ ¬roomIn (v7.fn 1).ev) ∧
      ((v7.fn 1).held.length < 256) :=
    ⟨by decide +kernel, by decide +kernel, by decide +kernel, by decide +kernel⟩

theorem witness_eventsPosted_2_2_2 :
      (1 < 9) ∧
      ((v9.fn 1).classes.force.testBit ((8193 / 4096 : Nat) - 1) = true) ∧
      (256 ≤ (v9.fn 1).held.length) :=
    ⟨by decide +kernel, by decide +kernel, by decide +kernel⟩

theorem witness_heldEventsWritten_1 :
      (¬roomIn (v8.fn 1).ev) :=
    by decide +kernel

theorem witness_heldEventsWritten_2_1 :
      (roomIn (v11.fn 1).ev) ∧
      ((v11.fn 1).held = [e9, e9]) :=
    ⟨by decide +kernel, by decide +kernel⟩

theorem witness_heldEventsWritten_2_2_1 :
      (roomIn (v12.fn 1).ev) ∧
      ((v12.fn 1).held = []) ∧
      ((v12.fn 1).gap = some (4, 5)) ∧
      ((v12.fn 1).classes.force.testBit 8 = true) :=
    ⟨by decide +kernel, by decide +kernel, by decide +kernel, by decide +kernel⟩

theorem witness_heldEventsWritten_2_2_2 :
      (roomIn ((F id).fn 1).ev) ∧
      (((F id).fn 1).held = []) ∧
      (((F id).fn 1).gap = none) :=
    ⟨by decide +kernel, by decide +kernel, by decide +kernel⟩

theorem witness_interruptsModerated_2_1 :
      ((v13.fn 1).msix[1].first = some 8) ∧
      ((v13.fn 1).imodDelay ≠ 0) :=
    ⟨by decide +kernel, by decide +kernel⟩

theorem witness_interruptsModerated_2_2 :
      ((v14.fn 1).msix[1].first = some 8) ∧
      ((v14.fn 1).imodDelay = 0) :=
    ⟨by decide +kernel, by decide +kernel⟩

theorem witness_completionsMissing :
      (List.find? (fun (d : Cmd) => d.func == 1 && d.slot == 3 && ([16, 80, 160].contains d.opcode || d.opcode == 48 && !bit (d.arg 0) 8) && (d.taken || !d.deferred && (F id [C 1 2, cf 16]).mayStart d)) (F id [C 1 2, cf 16]).cmds = some (cf 16)) :=
    by decide +kernel

theorem witness_commandOrder :
      ((F id [C 1 2, c1, C 5 9]).cmds = [C 1 2] ++ [c1, C 5 9]) ∧
      (∀ (d : Cmd), d ∈ [C 1 2] → ¬(d.func = c1.func ∧ d.slot = c1.slot ∧ d.at_ = c1.at_ ∧ d.seq = c1.seq)) :=
    ⟨by decide +kernel, by decide +kernel⟩

theorem witness_commandChecks_1 :
      ((sNew.fn (cmdFor id).func).neg = false ∧ formBare.code ≠ 1 ∧ formBare.code ≠ 2) :=
    by decide +kernel

theorem witness_commandChecks_2_1 :
      (¬((sOld.fn (cmdFor id).func).neg = false ∧ formBare.code ≠ 1 ∧ formBare.code ≠ 2)) ∧
      ((sOld.fn (cmdFor id).func).neg = true ∧ (sOld.fn (cmdFor id).func).uver < formBare.since) :=
    ⟨by decide +kernel, by decide +kernel⟩

theorem witness_commandChecks_2_2_1 :
      (¬(((F id).fn v16.func).neg = false ∧ formBare.code ≠ 1 ∧ formBare.code ≠ 2)) ∧
      (¬(((F id).fn v16.func).neg = true ∧ ((F id).fn v16.func).uver < formBare.since)) ∧
      (0 = 0 ∧ v16.dup = true ∨ 0 = 4 ∧ v16.plen ≠ formBare.len ∨ 0 = 6 ∧ v16.flagsBad = true ∨ (∃ (i : Nat), ∃ (m : Word), formBare.masks[i]? = some m ∧ ∃ (j : Nat), j < 8 ∧ 0 = 16 + 8 * i + j ∧ fld (v16.arg i &&& ~~~m) (8 * j) 8 ≠ 0 ∧ ∀ (j' : Nat), j' < j → fld (v16.arg i &&& ~~~m) (8 * j') 8 = 0) ∨ ∃ (o : Nat), (o, true) ∈ formBare.bad v16 ∧ 0 = 16 + o) ∧
      (∀ (b' : Nat), (b' = 0 ∧ v16.dup = true ∨ b' = 4 ∧ v16.plen ≠ formBare.len ∨ b' = 6 ∧ v16.flagsBad = true ∨ (∃ (i : Nat), ∃ (m : Word), formBare.masks[i]? = some m ∧ ∃ (j : Nat), j < 8 ∧ b' = 16 + 8 * i + j ∧ fld (v16.arg i &&& ~~~m) (8 * j) 8 ≠ 0 ∧ ∀ (j' : Nat), j' < j → fld (v16.arg i &&& ~~~m) (8 * j') 8 = 0) ∨ ∃ (o : Nat), (o, true) ∈ formBare.bad v16 ∧ b' = 16 + o) → 0 ≤ b') :=
    ⟨by decide +kernel, by decide +kernel, .inl ⟨rfl, by decide +kernel⟩, fun _ _ => Nat.zero_le _⟩

theorem witness_commandChecks_2_2_2_1 :
      (¬(((F id).fn (cmdFor id).func).neg = false ∧ formBare.code ≠ 1 ∧ formBare.code ≠ 2)) ∧
      (¬(((F id).fn (cmdFor id).func).neg = true ∧ ((F id).fn (cmdFor id).func).uver < formBare.since)) ∧
      (∀ (b : Nat), ¬(b = 0 ∧ (cmdFor id).dup = true ∨ b = 4 ∧ (cmdFor id).plen ≠ formBare.len ∨ b = 6 ∧ (cmdFor id).flagsBad = true ∨ (∃ (i : Nat), ∃ (m : Word), formBare.masks[i]? = some m ∧ ∃ (j : Nat), j < 8 ∧ b = 16 + 8 * i + j ∧ fld ((cmdFor id).arg i &&& ~~~m) (8 * j) 8 ≠ 0 ∧ ∀ (j' : Nat), j' < j → fld ((cmdFor id).arg i &&& ~~~m) (8 * j') 8 = 0) ∨ ∃ (o : Nat), (o, true) ∈ formBare.bad (cmdFor id) ∧ b = 16 + o)) ∧
      (¬((cmdFor id).func = 0 ∨ formBare.pfOnly = false ∧ ∀ (p : Nat), (cmdFor id).part = some p → ((F id).part p).state ≠ PartState.none ∧ ((F id).part p).func = (cmdFor id).func)) :=
    ⟨by decide +kernel, by decide +kernel, by rintro b (⟨_, e⟩ | ⟨_, e⟩ | ⟨_, e⟩ | ⟨i, m, e, _⟩ | ⟨o, e, _⟩) <;> revert e <;> simp [formBare, cmdFor, c1, C, v16, v17], by rintro (e | ⟨e, _⟩) <;> revert e <;> decide +kernel⟩

theorem witness_commandChecks_2_2_2_2 :
      (¬((pfSide.fn v17.func).neg = false ∧ formBare.code ≠ 1 ∧ formBare.code ≠ 2)) ∧
      (¬((pfSide.fn v17.func).neg = true ∧ (pfSide.fn v17.func).uver < formBare.since)) ∧
      (∀ (b : Nat), ¬(b = 0 ∧ v17.dup = true ∨ b = 4 ∧ v17.plen ≠ formBare.len ∨ b = 6 ∧ v17.flagsBad = true ∨ (∃ (i : Nat), ∃ (m : Word), formBare.masks[i]? = some m ∧ ∃ (j : Nat), j < 8 ∧ b = 16 + 8 * i + j ∧ fld (v17.arg i &&& ~~~m) (8 * j) 8 ≠ 0 ∧ ∀ (j' : Nat), j' < j → fld (v17.arg i &&& ~~~m) (8 * j') 8 = 0) ∨ ∃ (o : Nat), (o, true) ∈ formBare.bad v17 ∧ b = 16 + o)) ∧
      (v17.func = 0 ∨ formBare.pfOnly = false ∧ ∀ (p : Nat), v17.part = some p → (pfSide.part p).state ≠ PartState.none ∧ (pfSide.part p).func = v17.func) :=
    ⟨by decide +kernel, by decide +kernel, by rintro b (⟨_, e⟩ | ⟨_, e⟩ | ⟨_, e⟩ | ⟨i, m, e, _⟩ | ⟨o, e, _⟩) <;> revert e <;> simp [formBare, cmdFor, c1, C, v16, v17], .inl (by decide +kernel)⟩

end T14

namespace T15

def cmdW (op : Nat) (plen : Nat) (ps : List Nat) (g : Cmd → Cmd := id) (f : Nat := 0) : Cmd := g ⟨f, 3, op, false, false, false, plen, 55, 0x1234, ((ps.flatMap (leBytes 8)) ++ List.replicate 240 0).take 240, 40, false, false, false, false, 0⟩

def G (g : State → State) (cs : List Cmd) (f : Nat := 0) : State := g (let s := { demo with now := 5000, cmds := cs, up := { demo.up with ready := 0xFFFFFFFFFFFFFFFF#_ } }; s.setFn f { Fn.reset with neg := true, uver := 0x32, rr := ⟨.of 0x10000, .of 10, .of true, 5, 1023, true⟩, ev := ⟨.of 0x20000, .of 6, .of true, 5, 62, true⟩ })

def ng (hi lo : Nat) := cmdW 0x01 8 [hi + lo * 256]

def v1 := (G id [ng 0x32 0x20, cmdW 0x41 0 [] fun c => { c with slot := 9 }])

def qp (w p a2 a3 b : Nat) := cmdW 0x02 32 [w + p * 256, b, a2, a3]

def gq (s : State) : State := s.modPart 0 fun x => { x with lastEnd := 6, keep := true, actions := 1, bx := 3, by_ := 2, ports := 0xFFF1, heldBell := 9, heldEpoch := 7, jobs := 5, swaps := 6, preempts := 7, tests := 8, discarded := 4, unknownFlow := 3, recessHolds := 2, log := ⟨[], 44⟩, slots := [⟨1,2,.active⟩], bells := [(5, { Bell.idle with desc := some ⟨true, true, 1, true, true, 0, 9, 3⟩, hist := [(1, List.replicate 16 9), (65539, List.replicate 16 5)] })] }

def lr (p a1 a2 a3 : Nat) := cmdW 0x70 32 [p, a1, a2, a3]

def lrec (n : Nat) : LogRec := ⟨n, 9, 3, 77, 2, [1,2,3,4,5,6,7,8,9,10]⟩

def gl (s : State) : State := { s.modPart 0 fun x => { x with log := ⟨[lrec 5, lrec 6, lrec 7], 8⟩ } with faults := { s.faults with modLog := ⟨[lrec 5, lrec 6], 7⟩ } }

def dh (out : Bool) (n : Nat) := cmdW 0x30 32 [(if out then 256 else 0), 0x4000, 65540, n]

def gd (s : State) : State := { s.modPart 0 fun x => { x with keyWork := 7, keyRet := 8, reg := ⟨.of 5, .of 0, 1000, 0⟩, slots := [⟨2, 3, .active⟩], mm := { x.mm with tlb := [⟨65536, 65536, 131072, true, false⟩] } } with host := Mem.writeN [] 0x4000 (rnd 3 64) }

def gd0 (s : State) : State := (gd s).modPart 0 fun x => { x with reg := ⟨.of 5, .of 0, 60, 0⟩ }

def gd1 (s : State) : State := (gd s).modPart 0 fun x => { x with refused := true }

def lkc (act lane : Nat) := cmdW 0x80 8 [3 + act * 256 + lane * 65536]

def gk (f : Port → Port) (s : State) : State := s.setPort 3 (f { Port.reset with state := .active, owner := some 0, admitted := 15, width := 2, vmaj := 4, vmin := 1 })

def v2 := (gk fun x => { x with state := .test })

def v3 := (gk fun x => { x with vmaj := 3, retired := 2 })

def ltc := cmdW 0x81 16 [3 + 5 * 256 + 2 * 65536 + 7 * 2^32, 640]

def v4 := (gk fun x => { x with owner := none })

def ltt : LinkTest := ⟨0, 3, 5, 2, 4000, 7⟩

def ltc' := { ltc with taken := true }

def glt (s : State) : State := (gk (fun x => { x with owner := none, state := .test, test := some ltt }) s).setGrade 4 12 { Grade.fresh with state := 2, retirements := 1 }

def short1 := cmdW 0x01 9 [0x3220]

def sShort := G id [short1]

def sTest := G (gk fun x => { x with state := .test }) [lkc 1 0]

def sTest2 := G (gk fun x => { x with state := .test }) [lkc 2 0]

def sTest3 := G (gk fun x => { x with state := .test }) [lkc 3 0]

theorem witness_negotiates_2_1 :
      (Takes (G id [ng 50 32]) (0) (3) formNegotiate (ng 50 32)) ∧
      ((ng 50 32).func = 0) ∧
      (∀ (d : Cmd), d ∈ (G id [ng 50 32]).cmds → d.func = 0 → d.slot = (ng 50 32).slot ∧ d.at_ = (ng 50 32).at_ ∧ d.seq = (ng 50 32).seq) :=
    ⟨⟨by decide +kernel, by decide +kernel⟩, by decide +kernel, by decide +kernel⟩

theorem witness_negotiates_2_2 :
      (Takes (G id [ng 31 0]) (0) (3) formNegotiate (ng 31 0)) ∧
      ((ng 31 0).func = 0) ∧
      (∀ (d : Cmd), d ∈ (G id [ng 31 0]).cmds → d.func = 0 → d.slot = (ng 31 0).slot ∧ d.at_ = (ng 31 0).at_ ∧ d.seq = (ng 31 0).seq) :=
    ⟨⟨by decide +kernel, by decide +kernel⟩, by decide +kernel, by decide +kernel⟩

theorem witness_negotiates_1 :
      (Takes v1 (0) (3) formNegotiate (ng 50 32)) ∧
      ((ng 50 32).func = 0) ∧
      (¬∀ (d : Cmd), d ∈ v1.cmds → d.func = 0 → d.slot = (ng 50 32).slot ∧ d.at_ = (ng 50 32).at_ ∧ d.seq = (ng 50 32).seq) :=
    ⟨⟨by decide +kernel, by decide +kernel⟩, by decide +kernel, by decide +kernel⟩

theorem witness_queriesAnswered_1 :
      (Takes (G gq [qp 1 0 64 0 0]) (0) (3) formQuery (qp 1 0 64 0 0)) :=
    ⟨by decide +kernel, by decide +kernel⟩

theorem witness_queriesAnswered_2_1 :
      (Takes (G gq [qp 2 0 64 640 5]) (0) (3) formQuery (qp 2 0 64 640 5)) :=
    ⟨by decide +kernel, by decide +kernel⟩

theorem witness_queriesAnswered_2_2_1 :
      (Takes (G gq [qp 2 0 64 64 4]) (0) (3) formQuery (qp 2 0 64 64 4)) :=
    ⟨by decide +kernel, by decide +kernel⟩

theorem witness_queriesAnswered_2_2_2_1 :
      (Takes (G gq [qp 3 0 64 64 4]) (0) (3) formQuery (qp 3 0 64 64 4)) :=
    ⟨by decide +kernel, by decide +kernel⟩

theorem witness_queriesAnswered_2_2_2_2 :
      (Takes (G gq [qp 1 3 64 64 4]) (0) (3) formQuery (qp 1 3 64 64 4)) :=
    ⟨by decide +kernel, by decide +kernel⟩

theorem witness_queriesAnswered_2_2_2_2_1 :
      (Takes (G gq [qp 1 3 64 64 4]) (0) (3) formQuery (qp 1 3 64 64 4)) ∧
      (((G gq [qp 1 3 64 64 4]).part (par (qp 1 3 64 64 4) 0 8 3)).state = PartState.none) ∧
      (par (qp 1 3 64 64 4) 0 0 8 = 1) :=
    ⟨⟨by decide +kernel, by decide +kernel⟩, by decide +kernel, by decide +kernel⟩

theorem witness_queriesAnswered_2_2_2_2_2_1 :
      (Takes (G gq [qp 2 3 64 64 4]) (0) (3) formQuery (qp 2 3 64 64 4)) ∧
      (((G gq [qp 2 3 64 64 4]).part (par (qp 2 3 64 64 4) 0 8 3)).state = PartState.none) ∧
      (par (qp 2 3 64 64 4) 0 0 8 = 2) :=
    ⟨⟨by decide +kernel, by decide +kernel⟩, by decide +kernel, by decide +kernel⟩

theorem witness_queriesAnswered_2_2_2_2_2_2 :
      (Takes (G gq [qp 3 3 64 64 4]) (0) (3) formQuery (qp 3 3 64 64 4)) ∧
      (((G gq [qp 3 3 64 64 4]).part (par (qp 3 3 64 64 4) 0 8 3)).state = PartState.none) ∧
      (par (qp 3 3 64 64 4) 0 0 8 = 3) :=
    ⟨⟨by decide +kernel, by decide +kernel⟩, by decide +kernel, by decide +kernel⟩

theorem witness_powerQueried :
      (Takes (G (fun (s : State) => { s with power := { s.power with mw := 99999999999, energy := 123456, host := 900, mgmt := 800, inForce := 700 : Power } : State }) [cmdW 65 0 []]) (0) (3) formPower (cmdW 65 0 [])) :=
    ⟨by decide +kernel, by decide +kernel⟩

theorem witness_recordsRead_1_1 :
      (Takes (G gl [lr 0 0 64 128]) (0) (3) formLog (lr 0 0 64 128)) ∧
      (BitVec.getLsbD ((lr 0 0 64 128).arg 0) 8 = false) :=
    ⟨⟨by decide +kernel, by decide +kernel⟩, by decide +kernel⟩

theorem witness_recordsRead_1_2 :
      (Takes (G gl [lr 3 6 64 128]) (0) (3) formLog (lr 3 6 64 128)) ∧
      (BitVec.getLsbD ((lr 3 6 64 128).arg 0) 8 = false) :=
    ⟨⟨by decide +kernel, by decide +kernel⟩, by decide +kernel⟩

theorem witness_recordsRead_2_1 :
      (Takes (G gl [lr 256 6 64 128]) 0 3 { formLog with pfOnly := true : Form } (lr 256 6 64 128)) ∧
      (BitVec.getLsbD ((lr 256 6 64 128).arg 0) 8 = true) :=
    ⟨⟨by decide +kernel, by decide +kernel⟩, by decide +kernel⟩

theorem witness_recordsRead_2_2 :
      (Takes (G gl [cmdW 113 32 [2, 100, 64, 512]]) (0) (3) formGrade (cmdW 113 32 [2, 100, 64, 512])) :=
    ⟨by decide +kernel, by decide +kernel⟩

theorem witness_hostMemoryMoved_2_1 :
      (Takes (G gd [dh true 20]) (0) (3) formDma (dh true 20)) ∧
      (((G gd [dh true 20]).part (par (dh true 20) 0 0 3)).state ≠ PartState.none) ∧
      ((dh true 20).moved = 0) ∧
      (∀ (d : Cmd), d ∈ (G gd [dh true 20]).cmds → ¬(d.func = 0 ∧ d.slot = 3 ∧ d.opcode = 48 ∧ d.taken = true)) ∧
      (BitVec.getLsbD ((dh true 20).arg 0) 8 = true) ∧
      (((G gd [dh true 20]).part (par (dh true 20) 0 0 3)).refused = false) ∧
      (cached ((G gd [dh true 20]).part (par (dh true 20) 0 0 3)) (par (dh true 20) 2 0 48) false (67 * 2 ^ 31 + 131076) 7) ∧
      (soundAt (G gd [dh true 20]) (67 * 2 ^ 31 + 131076)) ∧
      (affords ((G gd [dh true 20]).part (par (dh true 20) 0 0 3)) 64) ∧
      (0 < par (dh true 20) 3 0 40) ∧
      (par (dh true 20) 3 0 40 ≤ 64 - par (dh true 20) 2 0 48 % 64) ∧
      ((67 * 2 ^ 31 + 131076) % 64 = par (dh true 20) 2 0 48 % 64) :=
    ⟨⟨by decide +kernel, by decide +kernel⟩, by decide +kernel, by decide +kernel, by decide +kernel, by decide +kernel, by decide +kernel, by first | exact ⟨⟨65536, 65536, 131072, true, false⟩, by decide +kernel, by decide +kernel, by decide +kernel⟩ | exact ⟨⟨131072, 65536, 0, true, true⟩, by decide +kernel, by decide +kernel, by decide +kernel⟩, by decide +kernel, by decide +kernel, by decide +kernel, by decide +kernel, by decide +kernel⟩

theorem witness_hostMemoryMoved_2_2_1 :
      (Takes (G gd0 [dh true 20]) (0) (3) formDma (dh true 20)) ∧
      (((G gd0 [dh true 20]).part (par (dh true 20) 0 0 3)).state ≠ PartState.none) ∧
      ((dh true 20).moved = 0) ∧
      (∀ (d : Cmd), d ∈ (G gd0 [dh true 20]).cmds → ¬(d.func = 0 ∧ d.slot = 3 ∧ d.opcode = 48 ∧ d.taken = true)) ∧
      (BitVec.getLsbD ((dh true 20).arg 0) 8 = true) ∧
      (((G gd0 [dh true 20]).part (par (dh true 20) 0 0 3)).refused = false) ∧
      (cached ((G gd0 [dh true 20]).part (par (dh true 20) 0 0 3)) (par (dh true 20) 2 0 48) false (67 * 2 ^ 31 + 131076) 7) ∧
      (soundAt (G gd0 [dh true 20]) (67 * 2 ^ 31 + 131076)) ∧
      (¬affords ((G gd0 [dh true 20]).part (par (dh true 20) 0 0 3)) 64) ∧
      (0 < par (dh true 20) 3 0 40) :=
    ⟨⟨by decide +kernel, by decide +kernel⟩, by decide +kernel, by decide +kernel, by decide +kernel, by decide +kernel, by decide +kernel, by first | exact ⟨⟨65536, 65536, 131072, true, false⟩, by decide +kernel, by decide +kernel, by decide +kernel⟩ | exact ⟨⟨131072, 65536, 0, true, true⟩, by decide +kernel, by decide +kernel, by decide +kernel⟩, by decide +kernel, by decide +kernel, by decide +kernel⟩

theorem witness_hostMemoryMoved_2_2_2_2 :
      (Takes (G gd1 [dh true 20]) (0) (3) formDma (dh true 20)) ∧
      (((G gd1 [dh true 20]).part (par (dh true 20) 0 0 3)).state ≠ PartState.none) ∧
      ((dh true 20).moved = 0) ∧
      (∀ (d : Cmd), d ∈ (G gd1 [dh true 20]).cmds → ¬(d.func = 0 ∧ d.slot = 3 ∧ d.opcode = 48 ∧ d.taken = true)) ∧
      (((G gd1 [dh true 20]).part (par (dh true 20) 0 0 3)).refused = true) :=
    ⟨⟨by decide +kernel, by decide +kernel⟩, by decide +kernel, by decide +kernel, by decide +kernel, by decide +kernel⟩

theorem witness_hostMemoryMoved_2_2_2_1 :
      (Takes (G gd1 [dh false 20]) (0) (3) formDma (dh false 20)) ∧
      (((G gd1 [dh false 20]).part (par (dh false 20) 0 0 3)).state ≠ PartState.none) ∧
      ((dh false 20).moved = 0) ∧
      (∀ (d : Cmd), d ∈ (G gd1 [dh false 20]).cmds → ¬(d.func = 0 ∧ d.slot = 3 ∧ d.opcode = 48 ∧ d.taken = true)) ∧
      (((G gd1 [dh false 20]).part (par (dh false 20) 0 0 3)).refused = true) :=
    ⟨⟨by decide +kernel, by decide +kernel⟩, by decide +kernel, by decide +kernel, by decide +kernel, by decide +kernel⟩

theorem witness_hostMemoryMoved_1 :
      (Takes (G gd [dh false 20]) (0) (3) formDma (dh false 20)) ∧
      (((G gd [dh false 20]).part (par (dh false 20) 0 0 3)).state ≠ PartState.none) ∧
      ((dh false 20).moved = 0) ∧
      (∀ (d : Cmd), d ∈ (G gd [dh false 20]).cmds → ¬(d.func = 0 ∧ d.slot = 3 ∧ d.opcode = 48 ∧ d.taken = true)) ∧
      (BitVec.getLsbD ((dh false 20).arg 0) 8 = false) ∧
      (((G gd [dh false 20]).part (par (dh false 20) 0 0 3)).refused = false) ∧
      (cached ((G gd [dh false 20]).part (par (dh false 20) 0 0 3)) (par (dh false 20) 2 0 48) true (67 * 2 ^ 31 + 131076) 7) ∧
      (soundAt (G gd [dh false 20]) (67 * 2 ^ 31 + 131076)) ∧
      (affords ((G gd [dh false 20]).part (par (dh false 20) 0 0 3)) 64) ∧
      (0 < par (dh false 20) 3 0 40) ∧
      (par (dh false 20) 3 0 40 ≤ 64 - par (dh false 20) 2 0 48 % 64) ∧
      ((67 * 2 ^ 31 + 131076) % 64 = par (dh false 20) 2 0 48 % 64) ∧
      ((G gd [dh false 20]).hbm.cells.rising = true) ∧
      ((G gd [dh false 20]).hbm.keys.rising = true) :=
    ⟨⟨by decide +kernel, by decide +kernel⟩, by decide +kernel, by decide +kernel, by decide +kernel, by decide +kernel, by decide +kernel, by first | exact ⟨⟨65536, 65536, 131072, true, false⟩, by decide +kernel, by decide +kernel, by decide +kernel⟩ | exact ⟨⟨131072, 65536, 0, true, true⟩, by decide +kernel, by decide +kernel, by decide +kernel⟩, by decide +kernel, by decide +kernel, by decide +kernel, by decide +kernel, by decide +kernel, by decide +kernel, by decide +kernel⟩

theorem witness_linkCommands_1_1 :
      (Takes (G v2 [lkc 1 0]) (0) (3) formLink (lkc 1 0)) ∧
      (((G v2 [lkc 1 0]).port (par (lkc 1 0) 0 0 4)).state = PortState.test) :=
    ⟨⟨by decide +kernel, by decide +kernel⟩, by decide +kernel⟩

theorem witness_linkCommands_1_2_1 :
      (Takes (G v3 [lkc 1 0]) (0) (3) formLink (lkc 1 0)) ∧
      (((G v3 [lkc 1 0]).port (par (lkc 1 0) 0 0 4)).state ≠ PortState.test) ∧
      (par (lkc 1 0) 0 8 4 = 1) ∧
      (∀ (j : Nat), j < 4 → ¬(((G v3 [lkc 1 0]).port (par (lkc 1 0) 0 0 4)).retired.testBit j = true ∧ ((G v3 [lkc 1 0]).grade 4 (4 * par (lkc 1 0) 0 0 4 + j)).state = 3)) :=
    ⟨⟨by decide +kernel, by decide +kernel⟩, by decide +kernel, by decide +kernel, by decide +kernel⟩

theorem witness_linkCommands_1_2_2_1 :
      (Takes (G (gk id) [lkc 2 0]) (0) (3) formLink (lkc 2 0)) ∧
      (((G (gk id) [lkc 2 0]).port (par (lkc 2 0) 0 0 4)).state ≠ PortState.test) :=
    ⟨⟨by decide +kernel, by decide +kernel⟩, by decide +kernel⟩

theorem witness_linkCommands_1_2_2_2 :
      (Takes (G (gk id) [lkc 3 1]) (0) (3) formLink (lkc 3 1)) ∧
      (((G (gk id) [lkc 3 1]).port (par (lkc 3 1) 0 0 4)).state ≠ PortState.test) :=
    ⟨⟨by decide +kernel, by decide +kernel⟩, by decide +kernel⟩

theorem witness_linkCommands_2_1_1 :
      (Takes (G (gk id) [ltc]) (0) (3) formLinkTest ltc) ∧
      (∀ (j : Nat), j < 16 → ∀ (t : LinkTest), ((G (gk id) [ltc]).port j).test = some t → ¬(t.func = 0 ∧ t.slot = 3)) ∧
      (((G (gk id) [ltc]).port (par ltc 0 0 4)).state = PortState.test ∨ ∃ (p : Nat), ((G (gk id) [ltc]).port (par ltc 0 0 4)).owner = some p ∧ (((G (gk id) [ltc]).part p).state = PartState.running ∨ ((G (gk id) [ltc]).part p).state = PartState.preempting)) :=
    ⟨⟨by decide +kernel, by decide +kernel⟩, by decide +kernel, by decide +kernel⟩

theorem witness_linkCommands_2_1_2 :
      (Takes (G v4 [ltc]) (0) (3) formLinkTest ltc) ∧
      (∀ (j : Nat), j < 16 → ∀ (t : LinkTest), ((G v4 [ltc]).port j).test = some t → ¬(t.func = 0 ∧ t.slot = 3)) ∧
      (¬(((G v4 [ltc]).port (par ltc 0 0 4)).state = PortState.test ∨ ∃ (p : Nat), ((G v4 [ltc]).port (par ltc 0 0 4)).owner = some p ∧ (((G v4 [ltc]).part p).state = PartState.running ∨ ((G v4 [ltc]).part p).state = PartState.preempting))) :=
    ⟨⟨by decide +kernel, by decide +kernel⟩, by decide +kernel, by decide +kernel⟩

theorem witness_linkCommands_2_2 :
      (((G glt [ltc']).port 3).test = some ltt) ∧
      (ltt.func = 0) ∧
      (ltt.slot = 3) ∧
      (∀ (j : Nat), j < 3 → ∀ (u : LinkTest), ((G glt [ltc']).port j).test = some u → ¬(u.func = 0 ∧ u.slot = 3)) ∧
      (List.find? (fun (c : Cmd) => c.func == 0 && c.slot == 3 && c.opcode == 129 && c.taken) (G glt [ltc']).cmds = some ltc') :=
    ⟨by decide +kernel, by decide +kernel, by decide +kernel, by decide +kernel, by decide +kernel⟩

theorem witness_linkCommands_1_1_1 :
      (Takes sTest (0) (3) formLink (lkc 1 0)) ∧
      ((sTest.port (par (lkc 1 0) 0 0 4)).state = PortState.test) ∧
      (par (lkc 1 0) 0 8 4 = 1) :=
    ⟨⟨by decide +kernel, by decide +kernel⟩, by decide +kernel, by decide +kernel⟩

theorem witness_linkCommands_1_1_2_1 :
      (Takes sTest2 (0) (3) formLink (lkc 2 0)) ∧
      ((sTest2.port (par (lkc 2 0) 0 0 4)).state = PortState.test) ∧
      (par (lkc 2 0) 0 8 4 = 2) :=
    ⟨⟨by decide +kernel, by decide +kernel⟩, by decide +kernel, by decide +kernel⟩

theorem witness_linkCommands_1_1_2_2 :
      (Takes sTest3 (0) (3) formLink (lkc 3 0)) ∧
      ((sTest3.port (par (lkc 3 0) 0 0 4)).state = PortState.test) ∧
      (par (lkc 3 0) 0 8 4 = 3) :=
    ⟨⟨by decide +kernel, by decide +kernel⟩, by decide +kernel, by decide +kernel⟩

theorem witness_commandsTurnedAway :
      ((Instr.negotiate (0 : FnIx) (3 : SlotIx), formNegotiate) ∈ [(Instr.negotiate (0 : FnIx) (3 : SlotIx), formNegotiate), (Instr.partCreate (0 : FnIx) (3 : SlotIx), formCreate), (Instr.partDestroy (0 : FnIx) (3 : SlotIx) none, formDestroy), (Instr.partReset (0 : FnIx) (3 : SlotIx) none, formReset), (Instr.loadImage (0 : FnIx) (3 : SlotIx), formLoad 32), (Instr.bindTimetable (0 : FnIx) (3 : SlotIx), formLoad 33), (Instr.jobStart (0 : FnIx) (3 : SlotIx), formStart), (Instr.jobKill (0 : FnIx) (3 : SlotIx), formKill), (Instr.preempt (0 : FnIx) (3 : SlotIx), formPreempt), (Instr.resume (0 : FnIx) (3 : SlotIx), formResume), (Instr.recess (0 : FnIx) (3 : SlotIx), formRecess), (Instr.powerCapSet (0 : FnIx) (3 : SlotIx) none, formCap), (Instr.powerQuery (0 : FnIx) (3 : SlotIx), formPower), (Instr.fwStage (0 : FnIx) (3 : SlotIx), formStage), (Instr.fwActivate (0 : FnIx) (3 : SlotIx), formActivate), (Instr.attest (0 : FnIx) (3 : SlotIx), formAttest), (Instr.gradebookRead (0 : FnIx) (3 : SlotIx), formGrade), (Instr.testSchedule (0 : FnIx) (3 : SlotIx), formTest)]) ∧
      (sShort.toTake (0) (3) formNegotiate.code = some short1) ∧
      (sShort.verdict formNegotiate short1 = some (2, 4)) :=
    ⟨by simp, by decide +kernel, by decide +kernel⟩

end T15

namespace T16

def cmdW (op : Nat) (plen : Nat) (ps : List Nat) (g : Cmd → Cmd := id) (f : Nat := 0) : Cmd := g ⟨f, 3, op, false, false, false, plen, 55, 0x1234, ((ps.flatMap (leBytes 8)) ++ List.replicate 240 0).take 240, 40, false, false, false, false, 0⟩

def G (g : State → State) (cs : List Cmd) (f : Nat := 0) : State := g (let s := { demo with now := 5000, cmds := cs, up := { demo.up with ready := 0xFFFFFFFFFFFFFFFF#_ } }; s.setFn f { Fn.reset with neg := true, uver := 0x32, rr := ⟨.of 0x10000, .of 10, .of true, 5, 1023, true⟩, ev := ⟨.of 0x20000, .of 6, .of true, 5, 62, true⟩ })

def P2 (g : Part → Part) (s : State) : State := s.modPart 0 g

def dirty (s : State) : State := s.setTile 0 { s.tile 0 with pad := { (s.tile 0).pad with failedBanks := [3, 3, 5], corrWords := [9], draws := 4 } }

def v1 := (G dirty [] |> P2 fun x => { x with count := 1 })

def gs (n : Nat) (st : Nat) (s : State) : State := s.setGrade 1 n { Grade.fresh with state := st }

def nosub (s : State) : State := (subsOfDie (dieOf (ownSite 100))).foldl (fun s x => gs x 2 s) (gs (ownSite 100) 2 s)

def pc := cmdW 0x10 40 [2 + 3 * 16 + 1 * 256 + 1 * 4096 + 3 * 65536 + 4 * 2^20, 0x30, 2, 2, 0x8000]

def hostL (a b : Nat) (s : State) : State := { s with host := Mem.writeN [] 0x8000 (leBytes 2 a ++ leBytes 2 b), up := { s.up with blocks := BitVec.ofNat 49 (2^49-1) } }

def sc := (G (hostL 0x0501 0x0602) [pc]).setPart 0 Part.reset

def xT : List Nat := (List.range 3072).filter (within 2 3 1 1)

def xP : Part := { Part.reset with bx := 2, by_ := 3, bw := 1, bh := 1, count := xT.length }

def scSeated : State := (sc.seatAll 3 xP.tiles).getD sc

def scB := { sc with up := { sc.up with ready := sc.up.ready &&& ~~~(1#_ <<< 6) } }

def scF := { scB with up := { scB.up with failed := (1#_ <<< 6) } }

def hndW : List Byte := leBytes 8 code.toNat ++ leBytes 8 (buf 4096 4096).toNat ++ List.replicate 496 0

def secs : List Byte := (List.range 128).map (BitVec.ofNat 8 ·)

def body : List Byte := -- from 128: dir 2 entries (64), handles at 192 (512) -> 704, sections entries at 704 (32) -> 736, data at 768 len 128 -> 896, tree none
  let dir (n : Nat) := leBytes 8 192 ++ leBytes 8 0 ++ leBytes 8 (704 + n * 2^48) ++ leBytes 8 0
  dir 1 ++ dir 1 ++ hndW ++ (leBytes 8 768 ++ leBytes 8 (4096 + 128 * 2^32 + 2^63)) ++ List.replicate 48 0 ++ secs

def imgOf : List Byte := leBytes 8 (0x4D495847 + 2^32) ++ leBytes 8 2 ++ leBytes 8 128 ++ leBytes 8 896 ++ Config.sha384 body ++ leBytes 8 896 ++ List.replicate 40 0 ++ body

def imgC : List Byte := leBytes 8 (0x4D495847 + 2^32) ++ leBytes 8 2 ++ leBytes 8 128 ++ leBytes 8 896 ++ rnd 3 48 ++ leBytes 8 896 ++ List.replicate 40 0 ++ body

def gi (img : List Byte) (st : PartState) (s : State) : State := s.modPart 0 (fun x => { x with state := st, keyWork := 7, keyRet := 8, slots := [⟨2, 3, .active⟩], mm := { x.mm with tlb := [⟨65536, 65536, 131072, true, false⟩] } }) |> fun s => { s with hbm := ((List.range (img.length / 64)).foldl (fun hb i => hb.putUnit 7 (67 * 2^31 + 131072 + 64 * i) ((img.drop (64 * i)).take 64)) s.hbm) }

def imgS : List Byte := rnd 5 128

def li := cmdW 0x20 24 [0, 65536, 128]

def sI := G (gi imgS .empty) [li]

def li2 := cmdW 0x21 24 [0, 65536, 128]

def ttImg : List Byte := -- header 64, flow at 64 (16), directory at 80 (32)
  leBytes 8 (0x35545447 + 5 * 2^32) ++ leBytes 8 (2 + 2^32) ++ leBytes 8 (64 * 2^32) ++ leBytes 8 (80 + 128 * 2^32) ++ List.replicate 32 0
  ++ (leBytes 8 (9 + 2^15 + 5 * 2^16 + 100 * 2^32) ++ leBytes 8 0) ++ List.replicate 48 0

def sT := (G (gi ttImg .loaded) [li2]).modPart 0 fun x => { x with ports := 0x20 }

def sTp := sT.modPart 0 fun x => { x with ports := 0x10 }

def ttBound : Timetable := ⟨[], [⟨9, 5, 100⟩], [⟨0, 0, 0⟩, ⟨0, 0, 0⟩]⟩

def js := cmdW 0x22 32 [0x300, 0x1234567890ABCDEF, 0xFEDCBA0987654321, 500 + 3 * 2^16 + 9 * 2^32]

def sS := (G id [js]).modPart 0 fun x => { x with state := .loaded, timetable := some [(0, 7)], veto := true, bells := [(5, { Bell.idle with epoch := 6, desc := some ⟨true, true, 1, true, true, 0, 9, 3⟩ })] }

def bareImage : List Byte := leBytes 8 (0x4D495847 + 2^32)

def sec1 : Section_ := ⟨768, 4096, 128, true⟩

def tiSec : TileImage := ⟨Vector.replicate 64 0, Vector.replicate 64 .reset, [sec1]⟩

def img1 : List Byte := List.replicate 896 5

theorem imgDigest : List.take 48 (List.drop 32 imgOf) = Config.sha384 (List.drop 128 imgOf) := by
  have hb : List.drop 128 imgOf = body := List.drop_left' (by simp [leBytes, Config.sha384])
  have hl : (Config.sha384 body).length = 48 := by simp [Config.sha384]
  rw [hb]
  unfold imgOf
  rw [List.append_assoc, List.append_assoc, List.append_assoc, List.drop_left' (by simp [leBytes]), List.take_left' hl]
theorem seatsAll (ls : List Nat) (s : State) (p : Nat) (h : s.faults.grade = []) : (s.seatAll p ls).isSome = true := by
  induction ls generalizing s with
  | nil => rfl
  | cons l ls ih =>
    have g : ∀ x, s.grade 1 x = .fresh := fun x => by rw [State.grade, h]; rfl
    rw [State.seatAll]
    simp only [g, show Grade.fresh.out = false from rfl, show Grade.fresh.state = 0 from rfl]
    simp
    exact ih _ h

theorem witness_partitionWiped_2 :
      ((v1.part 0).tiles = [0]) ∧
      ((v1.seat 0).site = 0) :=
    ⟨by decide +kernel, by decide +kernel⟩

theorem witness_tilesSeated_2_2_1 :
      (¬(((G id []).seat 100).site ≠ ownSite 100 ∧ ((G id []).grade 1 (ownSite 100)).state = 3)) ∧
      (Claims.fit (G id []) ((G id []).seat 100).site) :=
    ⟨by decide +kernel, by decide +kernel⟩

theorem witness_tilesSeated_2_1 :
      (((gs (ownSite 100) 3 ((G id []).setSeat 100 { site := 17, part := 0, valid := false, hold := false : Seat })).seat 100).site ≠ ownSite 100) ∧
      (((gs (ownSite 100) 3 ((G id []).setSeat 100 { site := 17, part := 0, valid := false, hold := false : Seat })).grade 1 (ownSite 100)).state = 3) :=
    ⟨by decide +kernel, by decide +kernel⟩

theorem witness_tilesSeated_2_2_2_1 :
      (¬(((gs (ownSite 100) 2 (G id [])).seat 100).site ≠ ownSite 100 ∧ ((gs (ownSite 100) 2 (G id [])).grade 1 (ownSite 100)).state = 3)) ∧
      (¬Claims.fit (gs (ownSite 100) 2 (G id [])) ((gs (ownSite 100) 2 (G id [])).seat 100).site) ∧
      ((gs (ownSite 100) 2 (G id [])).substitute (some 2) 100 = some (((gs (ownSite 100) 2 (G id [])).substitute (some 2) 100).getD 9)) :=
    ⟨by decide +kernel, by decide +kernel, by decide +kernel⟩

theorem witness_tilesSeated_2_2_2_2 :
      (¬(((nosub (G id [])).seat 100).site ≠ ownSite 100 ∧ ((nosub (G id [])).grade 1 (ownSite 100)).state = 3)) ∧
      (¬Claims.fit (nosub (G id [])) ((nosub (G id [])).seat 100).site) :=
    ⟨by decide +kernel, by decide +kernel⟩

theorem witness_partitionsCreated_1 :
      (Takes { sc with sec := { sc.sec with otp := { sc.sec.otp with lc := 0 : Otp } : Security } : State } (0) (3) formCreate pc) ∧
      ({ sc with sec := { sc.sec with otp := { sc.sec.otp with lc := 0 : Otp } : Security } : State }.sec.otp.state ∈ [0, 4]) :=
    ⟨⟨by decide +kernel, by decide +kernel⟩, by decide +kernel⟩

theorem witness_partitionsCreated_2_1 :
      (Takes (G (hostL 1288 1538) [pc]) (0) (3) formCreate pc) ∧
      (¬(G (hostL 1288 1538) [pc]).sec.otp.state ∈ [0, 4]) ∧
      ((∃ (i : Nat), i < par pc 3 0 9 ∧ (8 ≤ BitVec.toNat ((G (hostL 1288 1538) [pc]).host.read (BitVec.toNat (pc.arg 4) + 2 * i)) ∨ 32 ≤ BitVec.toNat ((G (hostL 1288 1538) [pc]).host.read (BitVec.toNat (pc.arg 4) + 2 * i + 1)))) ∨ ¬(List.map (fun (i : Nat) => 32 * (BitVec.toNat ((G (hostL 1288 1538) [pc]).host.read (BitVec.toNat (pc.arg 4) + 2 * i)) % 8) + BitVec.toNat ((G (hostL 1288 1538) [pc]).host.read (BitVec.toNat (pc.arg 4) + 2 * i + 1)) % 32) (List.range (par pc 3 0 9))).Nodup) :=
    ⟨⟨by decide +kernel, by decide +kernel⟩, by decide +kernel, by decide +kernel⟩

theorem witness_partitionsCreated_2_2_2_2 :
      (Takes sc (0) (3) formCreate pc) ∧
      (¬sc.sec.otp.state ∈ [0, 4]) ∧
      (¬((∃ (i : Nat), i < par pc 3 0 9 ∧ (8 ≤ BitVec.toNat (sc.host.read (BitVec.toNat (pc.arg 4) + 2 * i)) ∨ 32 ≤ BitVec.toNat (sc.host.read (BitVec.toNat (pc.arg 4) + 2 * i + 1)))) ∨ ¬(List.map (fun (i : Nat) => 32 * (BitVec.toNat (sc.host.read (BitVec.toNat (pc.arg 4) + 2 * i)) % 8) + BitVec.toNat (sc.host.read (BitVec.toNat (pc.arg 4) + 2 * i + 1)) % 32) (List.range (par pc 3 0 9))).Nodup)) ∧
      (¬(par pc 0 16 3 < 8 ∧ (sc.part (par pc 0 16 3)).state ≠ PartState.none ∨ (∃ (q : Nat), (q < 8 ∧ (sc.part q).state ≠ PartState.none) ∧ (sc.part q).func = { Part.reset with state := PartState.empty, bx := par pc 0 0 3, by_ := par pc 0 4 3, bw := par pc 0 8 3, bh := par pc 0 12 3, func := par pc 0 20 4, ports := par pc 1 0 16, slots := List.map (fun (u : Nat) => { stack := u / 32, pc := u % 32, state := SlotState.active : Slot }) (List.map (fun (i : Nat) => 32 * (BitVec.toNat (sc.host.read (BitVec.toNat (pc.arg 4) + 2 * i)) % 8) + BitVec.toNat (sc.host.read (BitVec.toNat (pc.arg 4) + 2 * i + 1)) % 32) (List.range (par pc 3 0 9))), lkBase := par pc 0 16 3 * 2 ^ 37, lkSize := par pc 2 0 16 * 2 ^ 26, count := (List.filter (within (par pc 0 0 3) (par pc 0 4 3) (par pc 0 8 3) (par pc 0 12 3)) (List.range 3072)).length : Part }.func) ∨ (∃ (b : Nat), b ∈ List.flatMap (fun (j : Nat) => List.map (fun (i : Nat) => 7 * (par pc 0 4 3 + j) + par pc 0 0 3 + i) (List.range (par pc 0 8 3))) (List.range (par pc 0 12 3)) ∧ sc.up.blocks.getLsbD b = false ∧ sc.up.failBlocks.getLsbD b = false) ∨ (∃ (u : Nat), u ∈ List.map (fun (i : Nat) => 32 * (BitVec.toNat (sc.host.read (BitVec.toNat (pc.arg 4) + 2 * i)) % 8) + BitVec.toNat (sc.host.read (BitVec.toNat (pc.arg 4) + 2 * i + 1)) % 32) (List.range (par pc 3 0 9)) ∧ sc.up.ready.getLsbD (5 + u / 32) = false ∧ sc.up.failed.getLsbD (5 + u / 32) = false) ∨ (∃ (q : Nat), q ∈ List.filter (fun (q : Nat) => (par pc 1 0 16).testBit q) (List.range 16) ∧ sc.up.ready.getLsbD (13 + q) = false ∧ sc.up.failed.getLsbD (13 + q) = false) ∨ par pc 2 0 16 * 2 ^ 26 ≠ 0 ∧ sc.up.ready.getLsbD 29 = false ∧ sc.up.failed.getLsbD 29 = false)) ∧
      (¬((∃ (q : Nat), (q < 8 ∧ (sc.part q).state ≠ PartState.none) ∧ ∃ (l : Nat), l < 3072 ∧ within (par pc 0 0 3) (par pc 0 4 3) (par pc 0 8 3) (par pc 0 12 3) l = true ∧ within (sc.part q).bx (sc.part q).by_ (sc.part q).bw (sc.part q).bh l = true) ∨ (∃ (b : Nat), b ∈ List.flatMap (fun (j : Nat) => List.map (fun (i : Nat) => 7 * (par pc 0 4 3 + j) + par pc 0 0 3 + i) (List.range (par pc 0 8 3))) (List.range (par pc 0 12 3)) ∧ sc.up.failBlocks.getLsbD b = true) ∨ (∃ (u : Nat), u ∈ List.map (fun (i : Nat) => 32 * (BitVec.toNat (sc.host.read (BitVec.toNat (pc.arg 4) + 2 * i)) % 8) + BitVec.toNat (sc.host.read (BitVec.toNat (pc.arg 4) + 2 * i + 1)) % 32) (List.range (par pc 3 0 9)) ∧ (u ∈ sc.hbm.retired ∨ (sc.pcOwner u).isSome = true ∨ sc.up.failed.getLsbD (5 + u / 32) = true)) ∨ (∃ (q : Nat), q ∈ List.filter (fun (q : Nat) => (par pc 1 0 16).testBit q) (List.range 16) ∧ ((sc.port q).owner.isSome = true ∨ sc.up.failed.getLsbD (13 + q) = true)) ∨ par pc 2 0 16 * 2 ^ 26 ≠ 0 ∧ sc.up.failed.getLsbD 29 = true ∨ 112 * 2 ^ 30 < par pc 2 0 16 * 2 ^ 26 + (List.map (fun (q : Nat) => (sc.part q).lkSize) (List.filter (fun (q : Nat) => decide ((sc.part q).state ≠ PartState.none)) (List.range 8))).sum)) ∧
      (sc.seatAll (par pc 0 16 3) { Part.reset with state := PartState.empty, bx := par pc 0 0 3, by_ := par pc 0 4 3, bw := par pc 0 8 3, bh := par pc 0 12 3, func := par pc 0 20 4, ports := par pc 1 0 16, slots := List.map (fun (u : Nat) => { stack := u / 32, pc := u % 32, state := SlotState.active : Slot }) (List.map (fun (i : Nat) => 32 * (BitVec.toNat (sc.host.read (BitVec.toNat (pc.arg 4) + 2 * i)) % 8) + BitVec.toNat (sc.host.read (BitVec.toNat (pc.arg 4) + 2 * i + 1)) % 32) (List.range (par pc 3 0 9))), lkBase := par pc 0 16 3 * 2 ^ 37, lkSize := par pc 2 0 16 * 2 ^ 26, count := (List.filter (within (par pc 0 0 3) (par pc 0 4 3) (par pc 0 8 3) (par pc 0 12 3)) (List.range 3072)).length : Part }.tiles = some scSeated) :=
    ⟨⟨by decide +kernel, by decide +kernel⟩, by decide +kernel, by decide +kernel, by rintro (h | ⟨q, ⟨hq, h⟩, -⟩ | h); (exact absurd h (by decide +kernel)); (exact h ((by decide +kernel : ∀ q < 8, (sc.part q).state = .none) q hq)); (exact absurd h (by decide +kernel)), by rintro (⟨q, ⟨hq, h⟩, -⟩ | h); (exact h ((by decide +kernel : ∀ q < 8, (sc.part q).state = .none) q hq)); (exact absurd h (by decide +kernel)), someGet (seatsAll _ _ _ (by decide +kernel))⟩

theorem witness_partitionsCreated_2_2_1 :
      (Takes scB (0) (3) formCreate pc) ∧
      (¬scB.sec.otp.state ∈ [0, 4]) ∧
      (¬((∃ (i : Nat), i < par pc 3 0 9 ∧ (8 ≤ BitVec.toNat (scB.host.read (BitVec.toNat (pc.arg 4) + 2 * i)) ∨ 32 ≤ BitVec.toNat (scB.host.read (BitVec.toNat (pc.arg 4) + 2 * i + 1)))) ∨ ¬(List.map (fun (i : Nat) => 32 * (BitVec.toNat (scB.host.read (BitVec.toNat (pc.arg 4) + 2 * i)) % 8) + BitVec.toNat (scB.host.read (BitVec.toNat (pc.arg 4) + 2 * i + 1)) % 32) (List.range (par pc 3 0 9))).Nodup)) ∧
      (par pc 0 16 3 < 8 ∧ (scB.part (par pc 0 16 3)).state ≠ PartState.none ∨ (∃ (q : Nat), (q < 8 ∧ (scB.part q).state ≠ PartState.none) ∧ (scB.part q).func = { Part.reset with state := PartState.empty, bx := par pc 0 0 3, by_ := par pc 0 4 3, bw := par pc 0 8 3, bh := par pc 0 12 3, func := par pc 0 20 4, ports := par pc 1 0 16, slots := List.map (fun (u : Nat) => { stack := u / 32, pc := u % 32, state := SlotState.active : Slot }) (List.map (fun (i : Nat) => 32 * (BitVec.toNat (scB.host.read (BitVec.toNat (pc.arg 4) + 2 * i)) % 8) + BitVec.toNat (scB.host.read (BitVec.toNat (pc.arg 4) + 2 * i + 1)) % 32) (List.range (par pc 3 0 9))), lkBase := par pc 0 16 3 * 2 ^ 37, lkSize := par pc 2 0 16 * 2 ^ 26, count := (List.filter (within (par pc 0 0 3) (par pc 0 4 3) (par pc 0 8 3) (par pc 0 12 3)) (List.range 3072)).length : Part }.func) ∨ (∃ (b : Nat), b ∈ List.flatMap (fun (j : Nat) => List.map (fun (i : Nat) => 7 * (par pc 0 4 3 + j) + par pc 0 0 3 + i) (List.range (par pc 0 8 3))) (List.range (par pc 0 12 3)) ∧ scB.up.blocks.getLsbD b = false ∧ scB.up.failBlocks.getLsbD b = false) ∨ (∃ (u : Nat), u ∈ List.map (fun (i : Nat) => 32 * (BitVec.toNat (scB.host.read (BitVec.toNat (pc.arg 4) + 2 * i)) % 8) + BitVec.toNat (scB.host.read (BitVec.toNat (pc.arg 4) + 2 * i + 1)) % 32) (List.range (par pc 3 0 9)) ∧ scB.up.ready.getLsbD (5 + u / 32) = false ∧ scB.up.failed.getLsbD (5 + u / 32) = false) ∨ (∃ (q : Nat), q ∈ List.filter (fun (q : Nat) => (par pc 1 0 16).testBit q) (List.range 16) ∧ scB.up.ready.getLsbD (13 + q) = false ∧ scB.up.failed.getLsbD (13 + q) = false) ∨ par pc 2 0 16 * 2 ^ 26 ≠ 0 ∧ scB.up.ready.getLsbD 29 = false ∧ scB.up.failed.getLsbD 29 = false) :=
    ⟨⟨by decide +kernel, by decide +kernel⟩, by decide +kernel, by decide +kernel, .inr (.inr (.inr (.inl ⟨37, by decide +kernel, by decide +kernel, by decide +kernel⟩)))⟩

theorem witness_partitionsCreated_2_2_2_1 :
      (Takes scF (0) (3) formCreate pc) ∧
      (¬scF.sec.otp.state ∈ [0, 4]) ∧
      (¬((∃ (i : Nat), i < par pc 3 0 9 ∧ (8 ≤ BitVec.toNat (scF.host.read (BitVec.toNat (pc.arg 4) + 2 * i)) ∨ 32 ≤ BitVec.toNat (scF.host.read (BitVec.toNat (pc.arg 4) + 2 * i + 1)))) ∨ ¬(List.map (fun (i : Nat) => 32 * (BitVec.toNat (scF.host.read (BitVec.toNat (pc.arg 4) + 2 * i)) % 8) + BitVec.toNat (scF.host.read (BitVec.toNat (pc.arg 4) + 2 * i + 1)) % 32) (List.range (par pc 3 0 9))).Nodup)) ∧
      (¬(par pc 0 16 3 < 8 ∧ (scF.part (par pc 0 16 3)).state ≠ PartState.none ∨ (∃ (q : Nat), (q < 8 ∧ (scF.part q).state ≠ PartState.none) ∧ (scF.part q).func = { Part.reset with state := PartState.empty, bx := par pc 0 0 3, by_ := par pc 0 4 3, bw := par pc 0 8 3, bh := par pc 0 12 3, func := par pc 0 20 4, ports := par pc 1 0 16, slots := List.map (fun (u : Nat) => { stack := u / 32, pc := u % 32, state := SlotState.active : Slot }) (List.map (fun (i : Nat) => 32 * (BitVec.toNat (scF.host.read (BitVec.toNat (pc.arg 4) + 2 * i)) % 8) + BitVec.toNat (scF.host.read (BitVec.toNat (pc.arg 4) + 2 * i + 1)) % 32) (List.range (par pc 3 0 9))), lkBase := par pc 0 16 3 * 2 ^ 37, lkSize := par pc 2 0 16 * 2 ^ 26, count := (List.filter (within (par pc 0 0 3) (par pc 0 4 3) (par pc 0 8 3) (par pc 0 12 3)) (List.range 3072)).length : Part }.func) ∨ (∃ (b : Nat), b ∈ List.flatMap (fun (j : Nat) => List.map (fun (i : Nat) => 7 * (par pc 0 4 3 + j) + par pc 0 0 3 + i) (List.range (par pc 0 8 3))) (List.range (par pc 0 12 3)) ∧ scF.up.blocks.getLsbD b = false ∧ scF.up.failBlocks.getLsbD b = false) ∨ (∃ (u : Nat), u ∈ List.map (fun (i : Nat) => 32 * (BitVec.toNat (scF.host.read (BitVec.toNat (pc.arg 4) + 2 * i)) % 8) + BitVec.toNat (scF.host.read (BitVec.toNat (pc.arg 4) + 2 * i + 1)) % 32) (List.range (par pc 3 0 9)) ∧ scF.up.ready.getLsbD (5 + u / 32) = false ∧ scF.up.failed.getLsbD (5 + u / 32) = false) ∨ (∃ (q : Nat), q ∈ List.filter (fun (q : Nat) => (par pc 1 0 16).testBit q) (List.range 16) ∧ scF.up.ready.getLsbD (13 + q) = false ∧ scF.up.failed.getLsbD (13 + q) = false) ∨ par pc 2 0 16 * 2 ^ 26 ≠ 0 ∧ scF.up.ready.getLsbD 29 = false ∧ scF.up.failed.getLsbD 29 = false)) ∧
      (((∃ (q : Nat), (q < 8 ∧ (scF.part q).state ≠ PartState.none) ∧ ∃ (l : Nat), l < 3072 ∧ within (par pc 0 0 3) (par pc 0 4 3) (par pc 0 8 3) (par pc 0 12 3) l = true ∧ within (scF.part q).bx (scF.part q).by_ (scF.part q).bw (scF.part q).bh l = true) ∨ (∃ (b : Nat), b ∈ List.flatMap (fun (j : Nat) => List.map (fun (i : Nat) => 7 * (par pc 0 4 3 + j) + par pc 0 0 3 + i) (List.range (par pc 0 8 3))) (List.range (par pc 0 12 3)) ∧ scF.up.failBlocks.getLsbD b = true) ∨ (∃ (u : Nat), u ∈ List.map (fun (i : Nat) => 32 * (BitVec.toNat (scF.host.read (BitVec.toNat (pc.arg 4) + 2 * i)) % 8) + BitVec.toNat (scF.host.read (BitVec.toNat (pc.arg 4) + 2 * i + 1)) % 32) (List.range (par pc 3 0 9)) ∧ (u ∈ scF.hbm.retired ∨ (scF.pcOwner u).isSome = true ∨ scF.up.failed.getLsbD (5 + u / 32) = true)) ∨ (∃ (q : Nat), q ∈ List.filter (fun (q : Nat) => (par pc 1 0 16).testBit q) (List.range 16) ∧ ((scF.port q).owner.isSome = true ∨ scF.up.failed.getLsbD (13 + q) = true)) ∨ par pc 2 0 16 * 2 ^ 26 ≠ 0 ∧ scF.up.failed.getLsbD 29 = true ∨ 112 * 2 ^ 30 < par pc 2 0 16 * 2 ^ 26 + (List.map (fun (q : Nat) => (scF.part q).lkSize) (List.filter (fun (q : Nat) => decide ((scF.part q).state ≠ PartState.none)) (List.range 8))).sum) ∨ scF.seatAll (par pc 0 16 3) { Part.reset with state := PartState.empty, bx := par pc 0 0 3, by_ := par pc 0 4 3, bw := par pc 0 8 3, bh := par pc 0 12 3, func := par pc 0 20 4, ports := par pc 1 0 16, slots := List.map (fun (u : Nat) => { stack := u / 32, pc := u % 32, state := SlotState.active : Slot }) (List.map (fun (i : Nat) => 32 * (BitVec.toNat (scF.host.read (BitVec.toNat (pc.arg 4) + 2 * i)) % 8) + BitVec.toNat (scF.host.read (BitVec.toNat (pc.arg 4) + 2 * i + 1)) % 32) (List.range (par pc 3 0 9))), lkBase := par pc 0 16 3 * 2 ^ 37, lkSize := par pc 2 0 16 * 2 ^ 26, count := (List.filter (within (par pc 0 0 3) (par pc 0 4 3) (par pc 0 8 3) (par pc 0 12 3)) (List.range 3072)).length : Part }.tiles = none) :=
    ⟨⟨by decide +kernel, by decide +kernel⟩, by decide +kernel, by decide +kernel, by rintro (h | ⟨q, ⟨hq, h⟩, -⟩ | h); (exact absurd h (by decide +kernel)); (exact h ((by decide +kernel : ∀ q < 8, (scF.part q).state = .none) q hq)); (exact absurd h (by decide +kernel)), .inl (.inr (.inr (.inl ⟨37, by decide +kernel, .inr (.inr (by decide +kernel))⟩)))⟩

theorem witness_imageChecks_1 :
      (leVal (List.take 4 ((5 : Byte) :: imgC)) ≠ 1296652359) :=
    by decide +kernel

theorem witness_imageChecks_2_1 :
      (leVal (List.take 4 (imgC.set 4 (2 : Byte))) = 1296652359) ∧
      (leVal (List.take 1 (List.drop 4 (imgC.set 4 (2 : Byte)))) ≠ 1) :=
    ⟨by decide +kernel, by decide +kernel⟩

theorem witness_imageChecks_2_2_2 :
      (leVal (List.take 4 imgOf) = 1296652359) ∧
      (leVal (List.take 1 (List.drop 4 imgOf)) = 1) ∧
      (List.take 48 (List.drop 32 imgOf) = Config.sha384 (List.drop 128 imgOf)) ∧
      (leVal (List.take 2 (List.drop 8 imgOf)) % 4096 ≠ 3 ∨ leVal (List.take 5 (List.drop 80 imgOf)) ≠ 896 ∨ 896 % 64 ≠ 0) :=
    ⟨by decide +kernel, by decide +kernel, imgDigest, by decide +kernel⟩

theorem witness_imageChecks_2_2_1 :
      (leVal (List.take 4 bareImage) = 1296652359) ∧
      (leVal (List.take 1 (List.drop 4 bareImage)) = 1) ∧
      (List.take 48 (List.drop 32 bareImage) ≠ Config.sha384 (List.drop 128 bareImage)) :=
    ⟨by decide +kernel, by decide +kernel, by decide +kernel⟩

theorem witness_imagesLoaded_2_2_2_2_2 :
      (Takes sI (0) (3) (formLoad 32) li) ∧
      ((sI.part (par li 0 0 3)).state = PartState.empty) ∧
      ((sI.part (par li 0 0 3)).refused = false) ∧
      ((sI.dvaRead (par li 0 0 3) (BitVec.toNat (li.arg 2) + 1) (par li 1 0 48) (BitVec.toNat (li.arg 2)) []).snd = HbmEnd.done imgS) :=
    ⟨⟨by decide +kernel, by decide +kernel⟩, by decide +kernel, by decide +kernel, by decide +kernel⟩

theorem witness_imagesLoaded_1 :
      (Takes (G (gi imgS PartState.none) [li]) (0) (3) (formLoad 32) li) ∧
      (((G (gi imgS PartState.none) [li]).part (par li 0 0 3)).state = PartState.none) :=
    ⟨⟨by decide +kernel, by decide +kernel⟩, by decide +kernel⟩

theorem witness_imagesLoaded_2_1 :
      (Takes (G (gi imgS PartState.held) [li]) (0) (3) (formLoad 32) li) ∧
      (¬((G (gi imgS PartState.held) [li]).part (par li 0 0 3)).state ∈ [PartState.none, PartState.empty]) :=
    ⟨⟨by decide +kernel, by decide +kernel⟩, by decide +kernel⟩

theorem witness_imagesLoaded_2_2_1 :
      (Takes (P2 (fun (x : Part) => { x with refused := true : Part }) sI) (0) (3) (formLoad 32) li) ∧
      (((P2 (fun (x : Part) => { x with refused := true : Part }) sI).part (par li 0 0 3)).state = PartState.empty) ∧
      (((P2 (fun (x : Part) => { x with refused := true : Part }) sI).part (par li 0 0 3)).refused = true) :=
    ⟨⟨by decide +kernel, by decide +kernel⟩, by decide +kernel, by decide +kernel⟩

theorem witness_imagesLoaded_2_2_2_1 :
      (Takes { sI with hbm := { sI.hbm with poison := [(67 * 2 ^ 31 + 131072) / 64 + 1] : Hbm } : State } (0) (3) (formLoad 32) li) ∧
      (({ sI with hbm := { sI.hbm with poison := [(67 * 2 ^ 31 + 131072) / 64 + 1] : Hbm } : State }.part (par li 0 0 3)).state = PartState.empty) ∧
      (({ sI with hbm := { sI.hbm with poison := [(67 * 2 ^ 31 + 131072) / 64 + 1] : Hbm } : State }.part (par li 0 0 3)).refused = false) ∧
      (({ sI with hbm := { sI.hbm with poison := [(67 * 2 ^ 31 + 131072) / 64 + 1] : Hbm } : State }.dvaRead (par li 0 0 3) (BitVec.toNat (li.arg 2) + 1) (par li 1 0 48) (BitVec.toNat (li.arg 2)) []).snd = HbmEnd.poisoned) :=
    ⟨⟨by decide +kernel, by decide +kernel⟩, by decide +kernel, by decide +kernel, by decide +kernel⟩

theorem witness_imagesLoaded_2_2_2_2_1 :
      (Takes (P2 (fun (x : Part) => { x with mm := { x.mm with tlb := [] : MmBlock } : Part }) sI) (0) (3) (formLoad 32) li) ∧
      (((P2 (fun (x : Part) => { x with mm := { x.mm with tlb := [] : MmBlock } : Part }) sI).part (par li 0 0 3)).state = PartState.empty) ∧
      (((P2 (fun (x : Part) => { x with mm := { x.mm with tlb := [] : MmBlock } : Part }) sI).part (par li 0 0 3)).refused = false) ∧
      (((P2 (fun (x : Part) => { x with mm := { x.mm with tlb := [] : MmBlock } : Part }) sI).dvaRead (par li 0 0 3) (BitVec.toNat (li.arg 2) + 1) (par li 1 0 48) (BitVec.toNat (li.arg 2)) []).snd = HbmEnd.fault 1 ∨ ((P2 (fun (x : Part) => { x with mm := { x.mm with tlb := [] : MmBlock } : Part }) sI).dvaRead (par li 0 0 3) (BitVec.toNat (li.arg 2) + 1) (par li 1 0 48) (BitVec.toNat (li.arg 2)) []).snd = HbmEnd.dead) :=
    ⟨⟨by decide +kernel, by decide +kernel⟩, by decide +kernel, by decide +kernel, by decide +kernel⟩

theorem witness_timetablesBound_2_2_2_2_2_2 :
      (Takes sT (0) (3) (formLoad 33) li2) ∧
      ((sT.part (par li2 0 0 3)).state = PartState.loaded) ∧
      ((sT.part (par li2 0 0 3)).refused = false) ∧
      ((sT.dvaRead (par li2 0 0 3) (BitVec.toNat (li2.arg 2) + 1) (par li2 1 0 48) (BitVec.toNat (li2.arg 2)) []).snd = HbmEnd.done ttImg) ∧
      ((readTimetable ttImg (BitVec.toNat (li2.arg 2)) (sT.part (par li2 0 0 3)).count (sT.part (par li2 0 0 3)).ports fun (r : Nat) => handleOf ((sT.dvaRead (par li2 0 0 3) (BitVec.toNat (li2.arg 2) + 1) (par li2 1 0 48) (BitVec.toNat (li2.arg 2)) []).fst.tile ((sT.part (par li2 0 0 3)).logical r)) 1) = Except.ok ttBound) :=
    ⟨⟨by decide +kernel, by decide +kernel⟩, by decide +kernel, by decide +kernel, by decide +kernel, exOk (by decide +kernel)⟩

theorem witness_timetablesBound_2_2_2_2_2_1 :
      (Takes sTp (0) (3) (formLoad 33) li2) ∧
      ((sTp.part (par li2 0 0 3)).state = PartState.loaded) ∧
      ((sTp.part (par li2 0 0 3)).refused = false) ∧
      ((sTp.dvaRead (par li2 0 0 3) (BitVec.toNat (li2.arg 2) + 1) (par li2 1 0 48) (BitVec.toNat (li2.arg 2)) []).snd = HbmEnd.done ttImg) ∧
      ((readTimetable ttImg (BitVec.toNat (li2.arg 2)) (sTp.part (par li2 0 0 3)).count (sTp.part (par li2 0 0 3)).ports fun (r : Nat) => handleOf ((sTp.dvaRead (par li2 0 0 3) (BitVec.toNat (li2.arg 2) + 1) (par li2 1 0 48) (BitVec.toNat (li2.arg 2)) []).fst.tile ((sTp.part (par li2 0 0 3)).logical r)) 1) = Except.error 2) :=
    ⟨⟨by decide +kernel, by decide +kernel⟩, by decide +kernel, by decide +kernel, by decide +kernel, exErr (by decide +kernel)⟩

theorem witness_timetablesBound_1 :
      (Takes (G (gi ttImg PartState.empty) [li2]) (0) (3) (formLoad 33) li2) ∧
      (((G (gi ttImg PartState.empty) [li2]).part (par li2 0 0 3)).state ∈ [PartState.none, PartState.empty]) :=
    ⟨⟨by decide +kernel, by decide +kernel⟩, by decide +kernel⟩

theorem witness_timetablesBound_2_1 :
      (Takes (G (gi ttImg PartState.held) [li2]) (0) (3) (formLoad 33) li2) ∧
      (¬((G (gi ttImg PartState.held) [li2]).part (par li2 0 0 3)).state ∈ [PartState.none, PartState.empty, PartState.loaded]) :=
    ⟨⟨by decide +kernel, by decide +kernel⟩, by decide +kernel⟩

theorem witness_timetablesBound_2_2_1 :
      (Takes (P2 (fun (x : Part) => { x with refused := true : Part }) sT) (0) (3) (formLoad 33) li2) ∧
      (((P2 (fun (x : Part) => { x with refused := true : Part }) sT).part (par li2 0 0 3)).state = PartState.loaded) ∧
      (((P2 (fun (x : Part) => { x with refused := true : Part }) sT).part (par li2 0 0 3)).refused = true) :=
    ⟨⟨by decide +kernel, by decide +kernel⟩, by decide +kernel, by decide +kernel⟩

theorem witness_timetablesBound_2_2_2_1 :
      (Takes { sT with hbm := { sT.hbm with poison := [(67 * 2 ^ 31 + 131072) / 64 + 1] : Hbm } : State } (0) (3) (formLoad 33) li2) ∧
      (({ sT with hbm := { sT.hbm with poison := [(67 * 2 ^ 31 + 131072) / 64 + 1] : Hbm } : State }.part (par li2 0 0 3)).state = PartState.loaded) ∧
      (({ sT with hbm := { sT.hbm with poison := [(67 * 2 ^ 31 + 131072) / 64 + 1] : Hbm } : State }.part (par li2 0 0 3)).refused = false) ∧
      (({ sT with hbm := { sT.hbm with poison := [(67 * 2 ^ 31 + 131072) / 64 + 1] : Hbm } : State }.dvaRead (par li2 0 0 3) (BitVec.toNat (li2.arg 2) + 1) (par li2 1 0 48) (BitVec.toNat (li2.arg 2)) []).snd = HbmEnd.poisoned) :=
    ⟨⟨by decide +kernel, by decide +kernel⟩, by decide +kernel, by decide +kernel, by decide +kernel⟩

theorem witness_timetablesBound_2_2_2_2_1 :
      (Takes (P2 (fun (x : Part) => { x with mm := { x.mm with tlb := [] : MmBlock } : Part }) sT) (0) (3) (formLoad 33) li2) ∧
      (((P2 (fun (x : Part) => { x with mm := { x.mm with tlb := [] : MmBlock } : Part }) sT).part (par li2 0 0 3)).state = PartState.loaded) ∧
      (((P2 (fun (x : Part) => { x with mm := { x.mm with tlb := [] : MmBlock } : Part }) sT).part (par li2 0 0 3)).refused = false) ∧
      (((P2 (fun (x : Part) => { x with mm := { x.mm with tlb := [] : MmBlock } : Part }) sT).dvaRead (par li2 0 0 3) (BitVec.toNat (li2.arg 2) + 1) (par li2 1 0 48) (BitVec.toNat (li2.arg 2)) []).snd = HbmEnd.fault 1 ∨ ((P2 (fun (x : Part) => { x with mm := { x.mm with tlb := [] : MmBlock } : Part }) sT).dvaRead (par li2 0 0 3) (BitVec.toNat (li2.arg 2) + 1) (par li2 1 0 48) (BitVec.toNat (li2.arg 2)) []).snd = HbmEnd.dead) :=
    ⟨⟨by decide +kernel, by decide +kernel⟩, by decide +kernel, by decide +kernel, by decide +kernel⟩

theorem witness_jobsStart_2_2 :
      (Takes sS (0) (3) formStart js) ∧
      ((sS.part (par js 0 0 3)).state = PartState.loaded) ∧
      ((sS.part (par js 0 0 3)).timetable = some [(0, 7)]) :=
    ⟨⟨by decide +kernel, by decide +kernel⟩, by decide +kernel, by decide +kernel⟩

theorem witness_jobsStart_1 :
      (Takes (P2 (fun (x : Part) => { x with timetable := none : Part }) sS) (0) (3) formStart js) ∧
      (((P2 (fun (x : Part) => { x with timetable := none : Part }) sS).part (par js 0 0 3)).state = PartState.none ∨ ((P2 (fun (x : Part) => { x with timetable := none : Part }) sS).part (par js 0 0 3)).state = PartState.empty ∨ ((P2 (fun (x : Part) => { x with timetable := none : Part }) sS).part (par js 0 0 3)).state = PartState.loaded ∧ ((P2 (fun (x : Part) => { x with timetable := none : Part }) sS).part (par js 0 0 3)).timetable = none) :=
    ⟨⟨by decide +kernel, by decide +kernel⟩, by decide +kernel⟩

theorem witness_jobsStart_2_1 :
      (Takes (P2 (fun (x : Part) => { x with state := PartState.held : Part }) sS) (0) (3) formStart js) ∧
      (¬((P2 (fun (x : Part) => { x with state := PartState.held : Part }) sS).part (par js 0 0 3)).state ∈ [PartState.none, PartState.empty, PartState.loaded]) :=
    ⟨⟨by decide +kernel, by decide +kernel⟩, by decide +kernel⟩

theorem witness_tileLoaded_2_1 :
      (tiSec.secs = [sec1]) ∧
      (sec1.loc % 64 = 0) ∧
      (sec1.len % 8 = 0) ∧
      (sec1.off + sec1.len ≤ img1.length) ∧
      (sec1.loc + sec1.len ≤ 1048576) :=
    ⟨by decide +kernel, by decide +kernel, by decide +kernel, by decide +kernel, by decide +kernel⟩

theorem witness_tileLoaded_2_2_1 :
      (tiSec.secs = [sec1]) ∧
      (sec1.loc % 64 = 0) ∧
      (sec1.len % 8 = 0) ∧
      (sec1.off + sec1.len ≤ img1.length) ∧
      (sec1.loc + sec1.len ≤ 1048576) ∧
      (7 < 1048576) ∧
      (∀ (i : Nat), i < sec1.len → placeOf (skewAt tiSec.handles.toList (sec1.loc + i)) (sec1.loc + i) ≠ 7) :=
    ⟨by decide +kernel, by decide +kernel, by decide +kernel, by decide +kernel, by decide +kernel, by decide +kernel, by decide +kernel⟩

theorem witness_tileLoaded_2_2_2 :
      (tiSec.secs = [sec1]) ∧
      (sec1.loc % 64 = 0) ∧
      (sec1.len % 8 = 0) ∧
      (sec1.off + sec1.len ≤ img1.length) ∧
      (sec1.loc + sec1.len ≤ 1048576) ∧
      (7 < 131072) :=
    ⟨by decide +kernel, by decide +kernel, by decide +kernel, by decide +kernel, by decide +kernel, by decide +kernel⟩

end T16

namespace T17

def W (n : Nat) : Word := BitVec.ofNat 64 n

def cmdW (op : Nat) (plen : Nat) (ps : List Nat) (g : Cmd → Cmd := id) (f : Nat := 0) : Cmd := g ⟨f, 3, op, false, false, false, plen, 55, 0x1234, ((ps.flatMap (leBytes 8)) ++ List.replicate 240 0).take 240, 40, false, false, false, false, 0⟩

def G (g : State → State) (cs : List Cmd) (f : Nat := 0) : State := g (let s := { demo with now := 5000, cmds := cs, up := { demo.up with ready := 0xFFFFFFFFFFFFFFFF#_ } }; s.setFn f { Fn.reset with neg := true, uver := 0x32, rr := ⟨.of 0x10000, .of 10, .of true, 5, 1023, true⟩, ev := ⟨.of 0x20000, .of 6, .of true, 5, 62, true⟩ })

def P2 (g : Part → Part) (s : State) : State := s.modPart 0 g

def bdR : BellDesc := ⟨true, true, 1, true, true, 0, 8, 3⟩

def relr : Rel := ⟨5, 6, 1, false, 1, false, 0, 0, none, false, false, false⟩

def sample1 : Sample := ⟨7, 0, 1, 1, 300, 301, 0, .live⟩

def rich (st : PartState) (s : State) : State := s.modPart 0 fun x => { x with state := st, keyWork := 7, keyRet := 8, ports := 8, lkBase := 0, lkSize := 2^26, slots := [⟨2, 3, .retiring⟩, ⟨2, 4, .active⟩], bells := [(5, { Bell.idle with epoch := 6, desc := some bdR, arr := [⟨.tile 0, 1, 0, false, 0, 0, none⟩], timer := some 4 })], timetable := some [], actions := 3, asked := some (0, 9), keep := true, dbgAddr := 7, veto := true, step := 44, log := ⟨[], 5⟩, flows := [(3, ⟨3, 5, 5, []⟩)], saved := if st = .preempted then some ⟨[(0, demoTile), (1, { demoTile with core := { demoTile.core with pc := 99 } })], false⟩ else none, heldBell := 5 }

def base (st : PartState) (cs : List Cmd) : State :=
  let s := G (rich st) cs
  let s := s.setPort 3 { Port.reset with state := .active, owner := some 0, cells := [.timeReq 1 2, .bell ⟨true, 1, false, 1, false, 0, 1, 1, 1⟩] , rxCtx := [] }
  let s := s.setTile 1 { demoTile with core := { demoTile.core with wait := some ⟨.bell 5 6 7, 0⟩ } }
  { s with faults := { s.faults with samples := [sample1, { sample1 with id := 8, part := 3, shadow := 302, judge := 303 }] }, net := [⟨.tile 0, .tile 1, 0, [], .count 1 2⟩, ⟨.tile 0, .tile 1, 2, [], .count 1 2⟩], power := { s.power with notices := s.power.notices } }

def kc (op : Nat) := cmdW op 8 [0]

def other := cmdW 0x22 32 [0] fun c => { c with slot := 9, seq := 77 }

def otherP := cmdW 0x22 32 [1] fun c => { c with slot := 10, seq := 78 }

def tkn (c : Cmd) : Cmd := { c with taken := true }

def cs5 : List Cmd := [tkn (kc 0x23), tkn { kc 0x24 with slot := 11 }, { kc 0x26 with slot := 12 }, tkn { kc 0x30 with slot := 13 }, tkn { kc 0x11 with slot := 14 }, tkn { kc 0x26 with slot := 15 }]

def epT : Tile := withEp demoTile 4 { Endpoint.reset with state := .isOpen, remote := true, port := 3, peerep := 5, peertile := 6, credits := 4 }

def baseE (e : EndCause) (kp : Bool) : State := ((base .ending cs5).setTile 0 epT).modPart 0 fun x => { x with ending := some e, keep := kp }

def hb (e : Bell) (b : Nat) (s : State) : State := s.modPart 0 fun x => withBell x b e

def eH : Bell := { Bell.idle with epoch := 6, desc := some bdR, held := some (relr, .preempt, 8), arr := [⟨.tile 0, 1, 0, false, 0, 0, none⟩] }

def sPr := hb eH 5 (base .preempting [tkn (kc 0x24)])

def eN : Bell := { Bell.idle with epoch := 6, desc := some { bdR with root := false, children := 0, recess := true }, arr := [⟨.tile 0, 1, 0, false, 0, 0, none⟩, ⟨.tile 1, 1, 0, false, 0, 0, none⟩] }

def sPn := hb eN 5 (base .preempting [])

def v1 := (hb { eN with arr := [] } 5 sPn)

def sRe := hb eH 5 (base .preempted [kc 0x25])

def v2 := (1, { demoTile with core := { demoTile.core with pc := 99 } })

def rc := cmdW 0x26 8 [0x700]

def eW : Bell := { eH with held := some (relr, .work, 8) }

def sW := hb eW 5 (base .running [])

def gs (n : Nat) (st : Nat) (s : State) : State := s.setGrade 1 n { Grade.fresh with state := st }

def sW1 := gs 1 1 sW

def nosub (s : State) : State := (subsOfDie (dieOf 1)).foldl (fun s x => gs x 2 s) s

def wt3 (t : UnitTest) (s : State) : State := { s with faults := { s.faults with tests := [⟨1, 5, 0, false, 5, false, false⟩, t, ⟨2, 1, 0, false, 5, false, false⟩] } }

def tP : UnitTest := ⟨1, 1, 0, false, 1, false, false⟩

def sW2 := wt3 tP sW

def tQ : UnitTest := ⟨1, 1, 0, false, 209, false, true⟩

def sW3 := wt3 tQ sW

def tR (kind unit site : Nat) : UnitTest := ⟨kind, unit, 0, true, site, false, false⟩

def tc (kind unit now : Nat) := cmdW 0x90 8 [kind + unit * 65536 + now * 2^32]

def dg (rel off sp : Nat) (g : Tile → Tile := id) : State := let s := (base .held []).modPart 0 fun x => { x with func := 0, dbgAddr := W (off + rel * 2^32 + sp * 2^48) }; s.setTile 1 (g (s.tile 1))

def bad0 (t : Tile) : Tile := { t with pad := { t.pad with ecc := [(5, 1), (wordOf (placeOf (skewAt t.pad.h.toList 4136) 4136), 3)] } }

def bad3 (t : Tile) : Tile := { t with mx := { t.mx with accErr := [(32 * 0x11 + 35 - 32, 2)] } }

def sampled1 := base .running []

theorem witness_jobsEnd_1 :
      (((base PartState.running []).part 0).state = PartState.running ∨ ((base PartState.running []).part 0).state = PartState.preempting) :=
    by decide +kernel

theorem witness_jobsEnd_2 :
      (¬((base PartState.held []).part 0).state ∈ [PartState.running, PartState.preempting]) :=
    by decide +kernel

theorem witness_samplesVoided_2 :
      ((base PartState.running []).faults.samples = [] ++ [sample1, { sample1 with id := 8, part := 3, shadow := 302, judge := 303 : Sample }]) ∧
      ((sample1.part == 0) = true) ∧
      (∀ (y : Sample), y ∈ [] ++ [{ sample1 with id := 8, part := 3, shadow := 302, judge := 303 : Sample }] → (y.part == 0) = false) ∧
      (sample1.shadow ≠ sample1.judge) ∧
      ((base PartState.running []).tiles.rising = true) :=
    ⟨by decide +kernel, by decide +kernel, by decide +kernel, by decide +kernel, by decide +kernel⟩

theorem witness_samplesVoided_1 :
      (∀ (y : Sample), y ∈ sampled1.faults.samples → false = false) :=
    by decide +kernel

theorem witness_killsTaken_1 :
      (Takes (base PartState.running [other, kc 35, otherP]) (0) (3) formKill (kc 35)) :=
    ⟨by decide +kernel, by decide +kernel⟩

theorem witness_killsTaken_2_2_1 :
      (Takes (base PartState.running [other, kc 18, otherP]) (0) (3) formReset (kc 18)) ∧
      (((base PartState.running [other, kc 18, otherP]).part (par (kc 18) 0 0 3)).state ≠ PartState.none) :=
    ⟨⟨by decide +kernel, by decide +kernel⟩, by decide +kernel⟩

theorem witness_killsTaken_2_2_2_2_2_1 :
      (Takes (base PartState.running [other, kc 17, otherP]) (0) (3) formDestroy (kc 17)) ∧
      (((base PartState.running [other, kc 17, otherP]).part (par (kc 17) 0 0 3)).state ≠ PartState.none) :=
    ⟨⟨by decide +kernel, by decide +kernel⟩, by decide +kernel⟩

theorem witness_killsTaken_2_2_2_1 :
      (Takes (base PartState.running [other, kc 18, otherP]) (0) (3) formReset (kc 18)) ∧
      (((base PartState.running [other, kc 18, otherP]).part (par (kc 18) 0 0 3)).state ≠ PartState.none) :=
    ⟨⟨by decide +kernel, by decide +kernel⟩, by decide +kernel⟩

theorem witness_killsTaken_2_2_2_2_2_2 :
      (Takes (base PartState.running [other, kc 17, otherP]) (0) (3) formDestroy (kc 17)) ∧
      (((base PartState.running [other, kc 17, otherP]).part (par (kc 17) 0 0 3)).state ≠ PartState.none) :=
    ⟨⟨by decide +kernel, by decide +kernel⟩, by decide +kernel⟩

theorem witness_killsTaken_2_2_2_2_1 :
      (Takes (base PartState.none [other, kc 17, otherP]) (0) (3) formDestroy (kc 17)) ∧
      (((base PartState.none [other, kc 17, otherP]).part (par (kc 17) 0 0 3)).state = PartState.none) :=
    ⟨⟨by decide +kernel, by decide +kernel⟩, by decide +kernel⟩

theorem witness_killsTaken_2_1 :
      (Takes (base PartState.none [other, kc 18, otherP]) (0) (3) formReset (kc 18)) ∧
      (((base PartState.none [other, kc 18, otherP]).part (par (kc 18) 0 0 3)).state = PartState.none) :=
    ⟨⟨by decide +kernel, by decide +kernel⟩, by decide +kernel⟩

theorem witness_partitionsEnd :
      (((baseE EndCause.ok true).part 0).state = PartState.ending) ∧
      (((baseE EndCause.ok true).part 0).ending = some EndCause.ok) :=
    ⟨by decide +kernel, by decide +kernel⟩

theorem witness_preemptsAt_1 :
      ((sPr.part 0).bells = [] ++ [(5, eH)]) ∧
      ((sPr.part 0).bells.rising = true) ∧
      (eH.desc = some bdR) ∧
      (bdR.recess = true) ∧
      (∀ (y : Nat × Bell), y ∈ [] → ¬∃ (d : BellDesc), y.snd.desc = some d ∧ d.recess = true ∧ ((∃ (r : Rel), ∃ (t : Nat), y.snd.held = some (r, HoldFor.preempt, t)) ∨ y.snd.held = none ∧ ¬decider d ∧ allArrived y.snd d (sPr.part 0).count)) ∧
      (eH.held = some (relr, HoldFor.preempt, 8)) :=
    ⟨by decide +kernel, by decide +kernel, by decide +kernel, by decide +kernel, by simp, by decide +kernel⟩

theorem witness_preemptsAt_2_1 :
      ((sPn.part 0).bells = [] ++ [(5, eN)]) ∧
      ((sPn.part 0).bells.rising = true) ∧
      (eN.desc = some { bdR with recess := true, root := false, children := 0 : BellDesc }) ∧
      ({ bdR with recess := true, root := false, children := 0 : BellDesc }.recess = true) ∧
      (∀ (y : Nat × Bell), y ∈ [] → ¬∃ (d : BellDesc), y.snd.desc = some d ∧ d.recess = true ∧ ((∃ (r : Rel), ∃ (t : Nat), y.snd.held = some (r, HoldFor.preempt, t)) ∨ y.snd.held = none ∧ ¬decider d ∧ allArrived y.snd d (sPn.part 0).count)) ∧
      (eN.held = none) ∧
      (¬decider { bdR with recess := true, root := false, children := 0 : BellDesc }) ∧
      (allArrived eN { bdR with recess := true, root := false, children := 0 : BellDesc } (sPn.part 0).count) :=
    ⟨by decide +kernel, by decide +kernel, by decide +kernel, by decide +kernel, by simp, by decide +kernel, by decide +kernel, by decide +kernel⟩

theorem witness_preemptsAt_2_2 :
      ((v1.part 0).bells = [] ++ [(5, { eN with arr := [] : Bell })]) ∧
      ((v1.part 0).bells.rising = true) ∧
      ({ eN with arr := [] : Bell }.desc = some { bdR with recess := true, root := false, children := 0 : BellDesc }) ∧
      ({ bdR with recess := true, root := false, children := 0 : BellDesc }.recess = true) ∧
      (∀ (y : Nat × Bell), y ∈ [] → ¬∃ (d : BellDesc), y.snd.desc = some d ∧ d.recess = true ∧ ((∃ (r : Rel), ∃ (t : Nat), y.snd.held = some (r, HoldFor.preempt, t)) ∨ y.snd.held = none ∧ ¬decider d ∧ allArrived y.snd d (v1.part 0).count)) ∧
      (¬∃ (d : BellDesc), { eN with arr := [] : Bell }.desc = some d ∧ d.recess = true ∧ ((∃ (r : Rel), ∃ (t : Nat), { eN with arr := [] : Bell }.held = some (r, HoldFor.preempt, t)) ∨ { eN with arr := [] : Bell }.held = none ∧ ¬decider d ∧ allArrived { eN with arr := [] : Bell } d (v1.part 0).count)) ∧
      (∀ (y : Nat × Bell), y ∈ [] → ¬∃ (d : BellDesc), y.snd.desc = some d ∧ d.recess = true ∧ ((∃ (r : Rel), ∃ (t : Nat), y.snd.held = some (r, HoldFor.preempt, t)) ∨ y.snd.held = none ∧ ¬decider d ∧ allArrived y.snd d (v1.part 0).count)) :=
    ⟨by decide +kernel, by decide +kernel, by decide +kernel, by decide +kernel, by simp, by rintro ⟨d, e, -, ⟨r, t, h⟩ | ⟨-, -, h⟩⟩; (simp [eN, Bell.idle] at h); (cases e; exact absurd h (by decide +kernel)), by simp⟩

theorem witness_preemption_1_1 :
      (Takes (base PartState.running [kc 36]) (0) (3) formPreempt (kc 36)) ∧
      (((base PartState.running [kc 36]).part (par (kc 36) 0 0 3)).state = PartState.running) ∧
      (∃ (b : Nat × Bell), b ∈ ((base PartState.running [kc 36]).part (par (kc 36) 0 0 3)).bells ∧ ∃ (d : BellDesc), b.snd.desc = some d ∧ d.recess = true) :=
    ⟨⟨by decide +kernel, by decide +kernel⟩, by decide +kernel, by decide +kernel⟩

theorem witness_preemption_1_2 :
      (Takes (base PartState.loaded [kc 36]) (0) (3) formPreempt (kc 36)) ∧
      (((base PartState.loaded [kc 36]).part (par (kc 36) 0 0 3)).state ≠ PartState.running ∨ ¬∃ (b : Nat × Bell), b ∈ ((base PartState.loaded [kc 36]).part (par (kc 36) 0 0 3)).bells ∧ ∃ (d : BellDesc), b.snd.desc = some d ∧ d.recess = true) :=
    ⟨⟨by decide +kernel, by decide +kernel⟩, by decide +kernel⟩

theorem witness_preemption_2_1_2 :
      (((base PartState.preempting []).part 0).state = PartState.preempting) ∧
      ((base PartState.preempting []).preemptAt 0 = none ∨ ∃ (l : Nat), l ∈ ((base PartState.preempting []).part 0).tiles ∧ ¬((∀ (g : Eng), g ∈ [Eng.mx, Eng.vx, Eng.xc] → (queueOf ((base PartState.preempting []).tile l) g).waiting = [] ∧ (queueOf ((base PartState.preempting []).tile l) g).started = []) ∧ ∀ (k : Nat), k < 4 → (((base PartState.preempting []).tile l).stream k).queue = [] ∨ (((base PartState.preempting []).tile l).stream k).fault ≠ none)) :=
    ⟨by decide +kernel, by decide +kernel⟩

theorem witness_preemption_2_2_2_2_1 :
      (Takes sRe (0) (3) formResume (kc 37)) ∧
      ((sRe.part (par (kc 37) 0 0 3)).state = PartState.preempted) ∧
      ((sRe.part (par (kc 37) 0 0 3)).saved = some { tiles := [(0, demoTile), v2], lost := false : Saved }) ∧
      ({ tiles := [(0, demoTile), v2], lost := false : Saved }.lost = false) ∧
      (((sRe.part (par (kc 37) 0 0 3)).bell (sRe.part (par (kc 37) 0 0 3)).heldBell).held = some (relr, HoldFor.preempt, 8)) ∧
      (((sRe.part (par (kc 37) 0 0 3)).bell (sRe.part (par (kc 37) 0 0 3)).heldBell).desc = some bdR) ∧
      (relr.bell = (sRe.part (par (kc 37) 0 0 3)).heldBell) :=
    ⟨⟨by decide +kernel, by decide +kernel⟩, by decide +kernel, by decide +kernel, by decide +kernel, by decide +kernel, by decide +kernel, by decide +kernel⟩

theorem witness_preemption_2_2_2_2_2 :
      (Takes (base PartState.preempted [kc 37]) (0) (3) formResume (kc 37)) ∧
      (((base PartState.preempted [kc 37]).part (par (kc 37) 0 0 3)).state = PartState.preempted) ∧
      (((base PartState.preempted [kc 37]).part (par (kc 37) 0 0 3)).saved = some { tiles := [(0, demoTile), v2], lost := false : Saved }) ∧
      ({ tiles := [(0, demoTile), v2], lost := false : Saved }.lost = false) ∧
      (∀ (r : Rel) (t : Nat), (((base PartState.preempted [kc 37]).part (par (kc 37) 0 0 3)).bell ((base PartState.preempted [kc 37]).part (par (kc 37) 0 0 3)).heldBell).held ≠ some (r, HoldFor.preempt, t)) :=
    ⟨⟨by decide +kernel, by decide +kernel⟩, by decide +kernel, by decide +kernel, by decide +kernel, noneNe (by decide +kernel) _⟩

theorem witness_preemption_2_2_2_1 :
      (Takes (P2 (fun (x : Part) => { x with saved := some { tiles := [], lost := true : Saved } : Part }) sRe) (0) (3) formResume (kc 37)) ∧
      (((P2 (fun (x : Part) => { x with saved := some { tiles := [], lost := true : Saved } : Part }) sRe).part (par (kc 37) 0 0 3)).state = PartState.preempted) ∧
      (((P2 (fun (x : Part) => { x with saved := some { tiles := [], lost := true : Saved } : Part }) sRe).part (par (kc 37) 0 0 3)).saved = some { tiles := [], lost := true : Saved }) ∧
      ({ tiles := [], lost := true : Saved }.lost = true) :=
    ⟨⟨by decide +kernel, by decide +kernel⟩, by decide +kernel, by decide +kernel, by decide +kernel⟩

theorem witness_preemption_2_2_1 :
      (Takes (base PartState.loaded [kc 37]) (0) (3) formResume (kc 37)) ∧
      (((base PartState.loaded [kc 37]).part (par (kc 37) 0 0 3)).state ≠ PartState.preempted) :=
    ⟨⟨by decide +kernel, by decide +kernel⟩, by decide +kernel⟩

theorem witness_tilesMove :
      (({ (base PartState.running []) with faults := { (base PartState.running []).faults with samples := [] : Faults } : State }.seat 1).site ≠ 209) ∧
      (∀ (k : Sample), k ∈ { (base PartState.running []) with faults := { (base PartState.running []).faults with samples := [] : Faults } : State }.faults.samples → k.shadow ≠ 209 ∧ k.judge ≠ 209 ∧ k.orig ≠ ({ (base PartState.running []) with faults := { (base PartState.running []).faults with samples := [] : Faults } : State }.seat 1).site) ∧
      ({ (base PartState.running []) with faults := { (base PartState.running []).faults with samples := [] : Faults } : State }.tiles.rising = true) :=
    ⟨by decide +kernel, by decide +kernel, by decide +kernel⟩

theorem witness_recessWork_1_1 :
      (Takes (base PartState.running [rc]) (0) (3) formRecess rc) ∧
      (((base PartState.running [rc]).part (par rc 0 0 3)).state = PartState.running) :=
    ⟨⟨by decide +kernel, by decide +kernel⟩, by decide +kernel⟩

theorem witness_recessWork_1_2 :
      (Takes (base PartState.held [rc]) (0) (3) formRecess rc) ∧
      (((base PartState.held [rc]).part (par rc 0 0 3)).state ≠ PartState.running) :=
    ⟨⟨by decide +kernel, by decide +kernel⟩, by decide +kernel⟩

theorem witness_recessWork_2_1 :
      (((base PartState.running []).seat 1).valid = true) ∧
      (((base PartState.running []).seat 1).part = 0) ∧
      ((¬∃ (b : Nat × Bell), b ∈ ((base PartState.running []).part 0).bells ∧ ∃ (r : Rel), ∃ (t : Nat), b.snd.held = some (r, HoldFor.work, t)) ∨ ¬(List.filter (fun (d : Nat) => decide (d = dieOf ((base PartState.running []).seat 1).site)) ((base PartState.running []).part 0).swapped).length < 16) :=
    ⟨by decide +kernel, by decide +kernel, .inl (noHeld (by decide +kernel))⟩

theorem witness_recessWork_2_2_1 :
      ((sW1.seat 1).valid = true) ∧
      ((sW1.seat 1).part = 0) ∧
      (∃ (b : Nat × Bell), b ∈ (sW1.part 0).bells ∧ ∃ (r : Rel), ∃ (t : Nat), b.snd.held = some (r, HoldFor.work, t)) ∧
      ((List.filter (fun (d : Nat) => decide (d = dieOf (sW1.seat 1).site)) (sW1.part 0).swapped).length < 16) ∧
      ((sW1.grade 1 (sW1.seat 1).site).state = 1) ∧
      (sW1.substitute (some 0) 1 = some ((sW1.substitute (some 0) 1).getD 0)) :=
    ⟨by decide +kernel, by decide +kernel, ⟨(5, eW), by decide +kernel, relr, 8, rfl⟩, by decide +kernel, by decide +kernel, by decide +kernel⟩

theorem witness_recessWork_2_2_2_1 :
      (((nosub sW1).seat 1).valid = true) ∧
      (((nosub sW1).seat 1).part = 0) ∧
      (∃ (b : Nat × Bell), b ∈ ((nosub sW1).part 0).bells ∧ ∃ (r : Rel), ∃ (t : Nat), b.snd.held = some (r, HoldFor.work, t)) ∧
      ((List.filter (fun (d : Nat) => decide (d = dieOf ((nosub sW1).seat 1).site)) ((nosub sW1).part 0).swapped).length < 16) ∧
      (((nosub sW1).grade 1 ((nosub sW1).seat 1).site).state = 1) ∧
      ((nosub sW1).substitute (some 0) 1 = none) :=
    ⟨by decide +kernel, by decide +kernel, ⟨(5, eW), by decide +kernel, relr, 8, rfl⟩, by decide +kernel, by decide +kernel, by decide +kernel⟩

theorem witness_recessWork_2_2_2_2_1_2_1 :
      ((sW2.seat 1).valid = true) ∧
      ((sW2.seat 1).part = 0) ∧
      (∃ (b : Nat × Bell), b ∈ (sW2.part 0).bells ∧ ∃ (r : Rel), ∃ (t : Nat), b.snd.held = some (r, HoldFor.work, t)) ∧
      ((List.filter (fun (d : Nat) => decide (d = dieOf (sW2.seat 1).site)) (sW2.part 0).swapped).length < 16) ∧
      ((sW2.grade 1 (sW2.seat 1).site).state ≠ 1) ∧
      (sW2.faults.tests = [{ kind := 1, unit := 5, due := 0, running := false, site := 5, overdue := false, passed := false : UnitTest }] ++ [tP, { kind := 2, unit := 1, due := 0, running := false, site := 5, overdue := false, passed := false : UnitTest }]) ∧
      (tP.kind = 1 ∧ tP.unit = 1 ∧ tP.running = false) ∧
      (∀ (e : UnitTest), e ∈ [{ kind := 1, unit := 5, due := 0, running := false, site := 5, overdue := false, passed := false : UnitTest }] ++ [{ kind := 2, unit := 1, due := 0, running := false, site := 5, overdue := false, passed := false : UnitTest }] → ¬(e.kind = 1 ∧ e.unit = 1)) ∧
      (tP.passed = false) ∧
      (sW2.substitute (some 0) 1 = some ((sW2.substitute (some 0) 1).getD 0)) :=
    ⟨by decide +kernel, by decide +kernel, ⟨(5, eW), by decide +kernel, relr, 8, rfl⟩, by decide +kernel, by decide +kernel, by decide +kernel, by decide +kernel, by decide +kernel, by decide +kernel, by decide +kernel⟩

theorem witness_recessWork_2_2_2_2_1_2_2 :
      (((nosub sW2).seat 1).valid = true) ∧
      (((nosub sW2).seat 1).part = 0) ∧
      (∃ (b : Nat × Bell), b ∈ ((nosub sW2).part 0).bells ∧ ∃ (r : Rel), ∃ (t : Nat), b.snd.held = some (r, HoldFor.work, t)) ∧
      ((List.filter (fun (d : Nat) => decide (d = dieOf ((nosub sW2).seat 1).site)) ((nosub sW2).part 0).swapped).length < 16) ∧
      (((nosub sW2).grade 1 ((nosub sW2).seat 1).site).state ≠ 1) ∧
      ((nosub sW2).faults.tests = [{ kind := 1, unit := 5, due := 0, running := false, site := 5, overdue := false, passed := false : UnitTest }] ++ [tP, { kind := 2, unit := 1, due := 0, running := false, site := 5, overdue := false, passed := false : UnitTest }]) ∧
      (tP.kind = 1 ∧ tP.unit = 1 ∧ tP.running = false) ∧
      (∀ (e : UnitTest), e ∈ [{ kind := 1, unit := 5, due := 0, running := false, site := 5, overdue := false, passed := false : UnitTest }] ++ [{ kind := 2, unit := 1, due := 0, running := false, site := 5, overdue := false, passed := false : UnitTest }] → ¬(e.kind = 1 ∧ e.unit = 1)) ∧
      (tP.passed = false) ∧
      ((nosub sW2).substitute (some 0) 1 = none) :=
    ⟨by decide +kernel, by decide +kernel, ⟨(5, eW), by decide +kernel, relr, 8, rfl⟩, by decide +kernel, by decide +kernel, by decide +kernel, by decide +kernel, by decide +kernel, by decide +kernel, by decide +kernel⟩

theorem witness_recessWork_2_2_2_2_1_1 :
      ((sW3.seat 1).valid = true) ∧
      ((sW3.seat 1).part = 0) ∧
      (∃ (b : Nat × Bell), b ∈ (sW3.part 0).bells ∧ ∃ (r : Rel), ∃ (t : Nat), b.snd.held = some (r, HoldFor.work, t)) ∧
      ((List.filter (fun (d : Nat) => decide (d = dieOf (sW3.seat 1).site)) (sW3.part 0).swapped).length < 16) ∧
      ((sW3.grade 1 (sW3.seat 1).site).state ≠ 1) ∧
      (sW3.faults.tests = [{ kind := 1, unit := 5, due := 0, running := false, site := 5, overdue := false, passed := false : UnitTest }] ++ [tQ, { kind := 2, unit := 1, due := 0, running := false, site := 5, overdue := false, passed := false : UnitTest }]) ∧
      (tQ.kind = 1 ∧ tQ.unit = 1 ∧ tQ.running = false) ∧
      (∀ (e : UnitTest), e ∈ [{ kind := 1, unit := 5, due := 0, running := false, site := 5, overdue := false, passed := false : UnitTest }] ++ [{ kind := 2, unit := 1, due := 0, running := false, site := 5, overdue := false, passed := false : UnitTest }] → ¬(e.kind = 1 ∧ e.unit = 1)) ∧
      (tQ.passed = true) :=
    ⟨by decide +kernel, by decide +kernel, ⟨(5, eW), by decide +kernel, relr, 8, rfl⟩, by decide +kernel, by decide +kernel, by decide +kernel, by decide +kernel, by decide +kernel, by decide +kernel⟩

theorem witness_recessWork_2_2_2_2_2 :
      ((sW.seat 1).valid = true) ∧
      ((sW.seat 1).part = 0) ∧
      (∃ (b : Nat × Bell), b ∈ (sW.part 0).bells ∧ ∃ (r : Rel), ∃ (t : Nat), b.snd.held = some (r, HoldFor.work, t)) ∧
      ((List.filter (fun (d : Nat) => decide (d = dieOf (sW.seat 1).site)) (sW.part 0).swapped).length < 16) ∧
      ((sW.grade 1 (sW.seat 1).site).state ≠ 1) ∧
      (∀ (t : UnitTest), t ∈ sW.faults.tests → ¬(t.kind = 1 ∧ t.unit = 1 ∧ t.running = false)) :=
    ⟨by decide +kernel, by decide +kernel, ⟨(5, eW), by decide +kernel, relr, 8, rfl⟩, by decide +kernel, by decide +kernel, by decide +kernel⟩

theorem witness_testsRun_1_1 :
      (∃ (t : UnitTest), t ∈ sW3.faults.tests ∧ t.kind = 1 ∧ t.unit = 1) :=
    by decide +kernel

theorem witness_testsRun_1_2 :
      (∀ (t : UnitTest), t ∈ sW.faults.tests → ¬(t.kind = 1 ∧ t.unit = 1)) :=
    by decide +kernel

theorem witness_testsRun_2_1 :
      (sW2.faults.tests = [{ kind := 1, unit := 5, due := 0, running := false, site := 5, overdue := false, passed := false : UnitTest }] ++ [tP, { kind := 2, unit := 1, due := 0, running := false, site := 5, overdue := false, passed := false : UnitTest }]) ∧
      (tP.kind = 1 ∧ tP.unit = 1) ∧
      (tP.running = false ∧ tP.passed = false ∧ tP.overdue = false) ∧
      (∀ (e : UnitTest), e ∈ [{ kind := 1, unit := 5, due := 0, running := false, site := 5, overdue := false, passed := false : UnitTest }] ++ [{ kind := 2, unit := 1, due := 0, running := false, site := 5, overdue := false, passed := false : UnitTest }] → ¬(e.kind = 1 ∧ e.unit = 1)) :=
    ⟨by decide +kernel, by decide +kernel, by decide +kernel, by decide +kernel⟩

theorem witness_testsRun_2_2_1_1 :
      ((wt3 (tR 1 1 1) sW).faults.tests = [{ kind := 1, unit := 5, due := 0, running := false, site := 5, overdue := false, passed := false : UnitTest }] ++ [tR 1 1 1, { kind := 2, unit := 1, due := 0, running := false, site := 5, overdue := false, passed := false : UnitTest }]) ∧
      ((tR 1 1 1).kind = 1 ∧ (tR 1 1 1).unit = 1) ∧
      ((tR 1 1 1).running = true) ∧
      (∀ (e : UnitTest), e ∈ [{ kind := 1, unit := 5, due := 0, running := false, site := 5, overdue := false, passed := false : UnitTest }] ++ [{ kind := 2, unit := 1, due := 0, running := false, site := 5, overdue := false, passed := false : UnitTest }] → ¬(e.kind = 1 ∧ e.unit = 1)) ∧
      (1 = 1) ∧
      (true = true) :=
    ⟨by decide +kernel, by decide +kernel, by decide +kernel, by decide +kernel, by decide +kernel, by decide +kernel⟩

theorem witness_testsRun_2_2_1_2_1 :
      ((wt3 (tR 1 1 1) sW).faults.tests = [{ kind := 1, unit := 5, due := 0, running := false, site := 5, overdue := false, passed := false : UnitTest }] ++ [tR 1 1 1, { kind := 2, unit := 1, due := 0, running := false, site := 5, overdue := false, passed := false : UnitTest }]) ∧
      ((tR 1 1 1).kind = 1 ∧ (tR 1 1 1).unit = 1) ∧
      ((tR 1 1 1).running = true) ∧
      (∀ (e : UnitTest), e ∈ [{ kind := 1, unit := 5, due := 0, running := false, site := 5, overdue := false, passed := false : UnitTest }] ++ [{ kind := 2, unit := 1, due := 0, running := false, site := 5, overdue := false, passed := false : UnitTest }] → ¬(e.kind = 1 ∧ e.unit = 1)) ∧
      (1 = 1) ∧
      (false = false) ∧
      (((wt3 (tR 1 1 1) sW).seat 1).site = (tR 1 1 1).site) :=
    ⟨by decide +kernel, by decide +kernel, by decide +kernel, by decide +kernel, by decide +kernel, by decide +kernel, by decide +kernel⟩

theorem witness_testsRun_2_2_1_2_2_1 :
      ((wt3 (tR 1 1 209) sW).faults.tests = [{ kind := 1, unit := 5, due := 0, running := false, site := 5, overdue := false, passed := false : UnitTest }] ++ [tR 1 1 209, { kind := 2, unit := 1, due := 0, running := false, site := 5, overdue := false, passed := false : UnitTest }]) ∧
      ((tR 1 1 209).kind = 1 ∧ (tR 1 1 209).unit = 1) ∧
      ((tR 1 1 209).running = true) ∧
      (∀ (e : UnitTest), e ∈ [{ kind := 1, unit := 5, due := 0, running := false, site := 5, overdue := false, passed := false : UnitTest }] ++ [{ kind := 2, unit := 1, due := 0, running := false, site := 5, overdue := false, passed := false : UnitTest }] → ¬(e.kind = 1 ∧ e.unit = 1)) ∧
      (1 = 1) ∧
      (false = false) ∧
      (((wt3 (tR 1 1 209) sW).seat 1).site ≠ (tR 1 1 209).site) :=
    ⟨by decide +kernel, by decide +kernel, by decide +kernel, by decide +kernel, by decide +kernel, by decide +kernel, by decide +kernel⟩

theorem witness_testsRun_2_2_1_2_2_2_1 :
      ((wt3 (tR 2 209 209) sW).faults.tests = [{ kind := 1, unit := 5, due := 0, running := false, site := 5, overdue := false, passed := false : UnitTest }] ++ [tR 2 209 209, { kind := 2, unit := 1, due := 0, running := false, site := 5, overdue := false, passed := false : UnitTest }]) ∧
      ((tR 2 209 209).kind = 2 ∧ (tR 2 209 209).unit = 209) ∧
      ((tR 2 209 209).running = true) ∧
      (∀ (e : UnitTest), e ∈ [{ kind := 1, unit := 5, due := 0, running := false, site := 5, overdue := false, passed := false : UnitTest }] ++ [{ kind := 2, unit := 1, due := 0, running := false, site := 5, overdue := false, passed := false : UnitTest }] → ¬(e.kind = 2 ∧ e.unit = 209)) ∧
      (2 = 2) :=
    ⟨by decide +kernel, by decide +kernel, by decide +kernel, by decide +kernel, by decide +kernel⟩

theorem witness_testsRun_2_2_1_2_2_2_2_1 :
      ((wt3 (tR 3 9 9) sW).faults.tests = [{ kind := 1, unit := 5, due := 0, running := false, site := 5, overdue := false, passed := false : UnitTest }] ++ [tR 3 9 9, { kind := 2, unit := 1, due := 0, running := false, site := 5, overdue := false, passed := false : UnitTest }]) ∧
      ((tR 3 9 9).kind = 3 ∧ (tR 3 9 9).unit = 9) ∧
      ((tR 3 9 9).running = true) ∧
      (∀ (e : UnitTest), e ∈ [{ kind := 1, unit := 5, due := 0, running := false, site := 5, overdue := false, passed := false : UnitTest }] ++ [{ kind := 2, unit := 1, due := 0, running := false, site := 5, overdue := false, passed := false : UnitTest }] → ¬(e.kind = 3 ∧ e.unit = 9)) ∧
      (3 = 3) ∧
      (false = false) :=
    ⟨by decide +kernel, by decide +kernel, by decide +kernel, by decide +kernel, by decide +kernel, by decide +kernel⟩

theorem witness_testsRun_2_2_1_2_2_2_2_2 :
      ((wt3 (tR 3 9 9) sW).faults.tests = [{ kind := 1, unit := 5, due := 0, running := false, site := 5, overdue := false, passed := false : UnitTest }] ++ [tR 3 9 9, { kind := 2, unit := 1, due := 0, running := false, site := 5, overdue := false, passed := false : UnitTest }]) ∧
      ((tR 3 9 9).kind = 3 ∧ (tR 3 9 9).unit = 9) ∧
      ((tR 3 9 9).running = true) ∧
      (∀ (e : UnitTest), e ∈ [{ kind := 1, unit := 5, due := 0, running := false, site := 5, overdue := false, passed := false : UnitTest }] ++ [{ kind := 2, unit := 1, due := 0, running := false, site := 5, overdue := false, passed := false : UnitTest }] → ¬(e.kind = 3 ∧ e.unit = 9)) ∧
      (3 = 3) ∧
      (true = true) :=
    ⟨by decide +kernel, by decide +kernel, by decide +kernel, by decide +kernel, by decide +kernel, by decide +kernel⟩

theorem witness_testsRun_2_2_2_2 :
      (Takes (base PartState.running [tc 1 1 0]) (0) (3) formTest (tc 1 1 0)) ∧
      (¬(par (tc 1 1 0) 0 0 4 = 3 ∧ ∃ (p : Nat), ∃ (j : Nat), ∃ (x : Slot), (base PartState.running [tc 1 1 0]).pcOwner (par (tc 1 1 0) 0 16 12) = some (p, j) ∧ ((base PartState.running [tc 1 1 0]).part p).slots[j]? = some x ∧ x.state ≠ SlotState.released)) ∧
      (¬(par (tc 1 1 0) 0 32 2 = 1 ∧ (par (tc 1 1 0) 0 0 4 = 1 ∧ ((base PartState.running [tc 1 1 0]).seat (par (tc 1 1 0) 0 16 12)).valid = true ∧ ((base PartState.running [tc 1 1 0]).part ((base PartState.running [tc 1 1 0]).seat (par (tc 1 1 0) 0 16 12)).part).state ∈ [PartState.running, PartState.preempting, PartState.ending, PartState.held] ∨ par (tc 1 1 0) 0 0 4 = 2 ∧ ((∃ (l : Nat), (base PartState.running [tc 1 1 0]).seatedAt (par (tc 1 1 0) 0 16 12) = some l ∧ ((base PartState.running [tc 1 1 0]).seat l).valid = true) ∨ ∃ (y : Sample), y ∈ (base PartState.running [tc 1 1 0]).faults.samples ∧ (y.shadow = par (tc 1 1 0) 0 16 12 ∨ y.judge = par (tc 1 1 0) 0 16 12))))) :=
    ⟨⟨by decide +kernel, by decide +kernel⟩, fun e => absurd e.1 (by decide +kernel), fun e => absurd e.1 (by decide +kernel)⟩

theorem witness_testsRun_2_2_2_1 :
      (Takes (base PartState.running [tc 1 1 1]) (0) (3) formTest (tc 1 1 1)) ∧
      ((par (tc 1 1 1) 0 0 4 = 3 ∧ ∃ (p : Nat), ∃ (j : Nat), ∃ (x : Slot), (base PartState.running [tc 1 1 1]).pcOwner (par (tc 1 1 1) 0 16 12) = some (p, j) ∧ ((base PartState.running [tc 1 1 1]).part p).slots[j]? = some x ∧ x.state ≠ SlotState.released) ∨ par (tc 1 1 1) 0 32 2 = 1 ∧ (par (tc 1 1 1) 0 0 4 = 1 ∧ ((base PartState.running [tc 1 1 1]).seat (par (tc 1 1 1) 0 16 12)).valid = true ∧ ((base PartState.running [tc 1 1 1]).part ((base PartState.running [tc 1 1 1]).seat (par (tc 1 1 1) 0 16 12)).part).state ∈ [PartState.running, PartState.preempting, PartState.ending, PartState.held] ∨ par (tc 1 1 1) 0 0 4 = 2 ∧ ((∃ (l : Nat), (base PartState.running [tc 1 1 1]).seatedAt (par (tc 1 1 1) 0 16 12) = some l ∧ ((base PartState.running [tc 1 1 1]).seat l).valid = true) ∨ ∃ (y : Sample), y ∈ (base PartState.running [tc 1 1 1]).faults.samples ∧ (y.shadow = par (tc 1 1 1) 0 16 12 ∨ y.judge = par (tc 1 1 1) 0 16 12)))) :=
    ⟨⟨by decide +kernel, by decide +kernel⟩, .inr ⟨by decide +kernel, .inl ⟨by decide +kernel, by decide +kernel, by decide +kernel⟩⟩⟩

theorem witness_debugWindow_1_1 :
      (¬(((dg 5 8 0).part 0).state = PartState.held ∧ ((dg 5 8 0).part 0).func = 0 ∧ BitVec.toNat ((dg 5 8 0).part 0).dbgAddr / 2 ^ 32 % 4096 < ((dg 5 8 0).part 0).count ∧ ((dg 5 8 0).tile (((dg 5 8 0).part 0).logical (BitVec.toNat ((dg 5 8 0).part 0).dbgAddr / 2 ^ 32 % 4096))).pad.wiping = false)) :=
    by decide +kernel

theorem witness_debugWindow_1_2_1 :
      (((dg 1 4136 0).part 0).state = PartState.held ∧ ((dg 1 4136 0).part 0).func = 0 ∧ BitVec.toNat ((dg 1 4136 0).part 0).dbgAddr / 2 ^ 32 % 4096 < ((dg 1 4136 0).part 0).count ∧ ((dg 1 4136 0).tile (((dg 1 4136 0).part 0).logical (BitVec.toNat ((dg 1 4136 0).part 0).dbgAddr / 2 ^ 32 % 4096))).pad.wiping = false) ∧
      (BitVec.toNat ((dg 1 4136 0).part 0).dbgAddr / 2 ^ 48 % 4 = 0) ∧
      (∀ (e : Nat × Nat), e ∈ ((dg 1 4136 0).tile (((dg 1 4136 0).part 0).logical (BitVec.toNat ((dg 1 4136 0).part 0).dbgAddr / 2 ^ 32 % 4096))).pad.ecc → e.fst ≠ wordOf (placeOf (skewAt ((dg 1 4136 0).tile (((dg 1 4136 0).part 0).logical (BitVec.toNat ((dg 1 4136 0).part 0).dbgAddr / 2 ^ 32 % 4096))).pad.h.toList (BitVec.toNat ((dg 1 4136 0).part 0).dbgAddr % 2 ^ 20)) (BitVec.toNat ((dg 1 4136 0).part 0).dbgAddr % 2 ^ 20 / 8 * 8))) :=
    ⟨by decide +kernel, by decide +kernel, by decide +kernel⟩

theorem witness_debugWindow_1_2_2_1 :
      (((dg 1 4136 0 bad0).part 0).state = PartState.held ∧ ((dg 1 4136 0 bad0).part 0).func = 0 ∧ BitVec.toNat ((dg 1 4136 0 bad0).part 0).dbgAddr / 2 ^ 32 % 4096 < ((dg 1 4136 0 bad0).part 0).count ∧ ((dg 1 4136 0 bad0).tile (((dg 1 4136 0 bad0).part 0).logical (BitVec.toNat ((dg 1 4136 0 bad0).part 0).dbgAddr / 2 ^ 32 % 4096))).pad.wiping = false) ∧
      (BitVec.toNat ((dg 1 4136 0 bad0).part 0).dbgAddr / 2 ^ 48 % 4 = 0) ∧
      (((dg 1 4136 0 bad0).tile (((dg 1 4136 0 bad0).part 0).logical (BitVec.toNat ((dg 1 4136 0 bad0).part 0).dbgAddr / 2 ^ 32 % 4096))).pad.ecc.rising = true) ∧
      (((dg 1 4136 0 bad0).tile (((dg 1 4136 0 bad0).part 0).logical (BitVec.toNat ((dg 1 4136 0 bad0).part 0).dbgAddr / 2 ^ 32 % 4096))).pad.ecc.find? (wordOf (placeOf (skewAt ((dg 1 4136 0 bad0).tile (((dg 1 4136 0 bad0).part 0).logical (BitVec.toNat ((dg 1 4136 0 bad0).part 0).dbgAddr / 2 ^ 32 % 4096))).pad.h.toList (BitVec.toNat ((dg 1 4136 0 bad0).part 0).dbgAddr % 2 ^ 20)) (BitVec.toNat ((dg 1 4136 0 bad0).part 0).dbgAddr % 2 ^ 20 / 8 * 8))) = some 3) ∧
      (eccWeight 3 = 2) :=
    ⟨by decide +kernel, by decide +kernel, by decide +kernel, by decide +kernel, by decide +kernel⟩

theorem witness_debugWindow_1_2_2_2_1 :
      (((dg 1 4136 1).part 0).state = PartState.held ∧ ((dg 1 4136 1).part 0).func = 0 ∧ BitVec.toNat ((dg 1 4136 1).part 0).dbgAddr / 2 ^ 32 % 4096 < ((dg 1 4136 1).part 0).count ∧ ((dg 1 4136 1).tile (((dg 1 4136 1).part 0).logical (BitVec.toNat ((dg 1 4136 1).part 0).dbgAddr / 2 ^ 32 % 4096))).pad.wiping = false) ∧
      (BitVec.toNat ((dg 1 4136 1).part 0).dbgAddr / 2 ^ 48 % 4 = 1) :=
    ⟨by decide +kernel, by decide +kernel⟩

theorem witness_debugWindow_1_2_2_2_2_1 :
      (((dg 1 16 2).part 0).state = PartState.held ∧ ((dg 1 16 2).part 0).func = 0 ∧ BitVec.toNat ((dg 1 16 2).part 0).dbgAddr / 2 ^ 32 % 4096 < ((dg 1 16 2).part 0).count ∧ ((dg 1 16 2).tile (((dg 1 16 2).part 0).logical (BitVec.toNat ((dg 1 16 2).part 0).dbgAddr / 2 ^ 32 % 4096))).pad.wiping = false) ∧
      (BitVec.toNat ((dg 1 16 2).part 0).dbgAddr / 2 ^ 48 % 4 = 2) :=
    ⟨by decide +kernel, by decide +kernel⟩

theorem witness_debugWindow_1_2_2_2_2_2_1 :
      (((dg 1 1105 3).part 0).state = PartState.held ∧ ((dg 1 1105 3).part 0).func = 0 ∧ BitVec.toNat ((dg 1 1105 3).part 0).dbgAddr / 2 ^ 32 % 4096 < ((dg 1 1105 3).part 0).count ∧ ((dg 1 1105 3).tile (((dg 1 1105 3).part 0).logical (BitVec.toNat ((dg 1 1105 3).part 0).dbgAddr / 2 ^ 32 % 4096))).pad.wiping = false) ∧
      (BitVec.toNat ((dg 1 1105 3).part 0).dbgAddr / 2 ^ 48 % 4 = 3) ∧
      (Tab.get 0 ((dg 1 1105 3).tile (((dg 1 1105 3).part 0).logical (BitVec.toNat ((dg 1 1105 3).part 0).dbgAddr / 2 ^ 32 % 4096))).mx.accErr (32 * (BitVec.toNat ((dg 1 1105 3).part 0).dbgAddr % 2 ^ 20 % 64) + 2 * (BitVec.toNat ((dg 1 1105 3).part 0).dbgAddr % 2 ^ 20 / 64 % 16)) ≠ 2) ∧
      (Tab.get 0 ((dg 1 1105 3).tile (((dg 1 1105 3).part 0).logical (BitVec.toNat ((dg 1 1105 3).part 0).dbgAddr / 2 ^ 32 % 4096))).mx.accErr (32 * (BitVec.toNat ((dg 1 1105 3).part 0).dbgAddr % 2 ^ 20 % 64) + 2 * (BitVec.toNat ((dg 1 1105 3).part 0).dbgAddr % 2 ^ 20 / 64 % 16) + 1) ≠ 2) :=
    ⟨by decide +kernel, by decide +kernel, by decide +kernel, by decide +kernel⟩

theorem witness_debugWindow_1_2_2_2_2_2_2 :
      (((dg 1 (17 + 64) 3 bad3).part 0).state = PartState.held ∧ ((dg 1 (17 + 64) 3 bad3).part 0).func = 0 ∧ BitVec.toNat ((dg 1 (17 + 64) 3 bad3).part 0).dbgAddr / 2 ^ 32 % 4096 < ((dg 1 (17 + 64) 3 bad3).part 0).count ∧ ((dg 1 (17 + 64) 3 bad3).tile (((dg 1 (17 + 64) 3 bad3).part 0).logical (BitVec.toNat ((dg 1 (17 + 64) 3 bad3).part 0).dbgAddr / 2 ^ 32 % 4096))).pad.wiping = false) ∧
      (BitVec.toNat ((dg 1 (17 + 64) 3 bad3).part 0).dbgAddr / 2 ^ 48 % 4 = 3) ∧
      (Tab.get 0 ((dg 1 (17 + 64) 3 bad3).tile (((dg 1 (17 + 64) 3 bad3).part 0).logical (BitVec.toNat ((dg 1 (17 + 64) 3 bad3).part 0).dbgAddr / 2 ^ 32 % 4096))).mx.accErr (32 * (BitVec.toNat ((dg 1 (17 + 64) 3 bad3).part 0).dbgAddr % 2 ^ 20 % 64) + 2 * (BitVec.toNat ((dg 1 (17 + 64) 3 bad3).part 0).dbgAddr % 2 ^ 20 / 64 % 16)) = 2 ∨ Tab.get 0 ((dg 1 (17 + 64) 3 bad3).tile (((dg 1 (17 + 64) 3 bad3).part 0).logical (BitVec.toNat ((dg 1 (17 + 64) 3 bad3).part 0).dbgAddr / 2 ^ 32 % 4096))).mx.accErr (32 * (BitVec.toNat ((dg 1 (17 + 64) 3 bad3).part 0).dbgAddr % 2 ^ 20 % 64) + 2 * (BitVec.toNat ((dg 1 (17 + 64) 3 bad3).part 0).dbgAddr % 2 ^ 20 / 64 % 16) + 1) = 2) :=
    ⟨by decide +kernel, by decide +kernel, by decide +kernel⟩

/-- The state that the claim `preemption` calls s3, for a save of partition 0 at bell 5, epoch 6. -/
def afterSave (s : State) : State :=
  let x := s.part 0
  let s1 := onTiles (s.voidSamples (fun k => decide (k.part = 0))) 0 (fun _ t => wipedWhole t)
  let y := s1.part 0
  let s2 := s1.setPart 0 { y with
    state := .preempted, heldBell := 5, heldEpoch := 6, preempts := y.preempts + 1
    saved := some ⟨x.tiles.foldl (fun m l => Tab.put m (x.relOf l) (s.tile l)) [], false⟩
    bells := y.bells.map (fun e => (e.1, if e.2.arr = [] then e.2 else { e.2 with mute := true })) }
  { s2 with power := { s2.power with notices := s2.power.notices.filter (fun m => decide (m.part ≠ 0)) } }
def sPq : State := { sPr with cmds := [] }
def still (t : Tile) : Prop := (∀ g ∈ [Eng.mx, Eng.vx, Eng.xc], (queueOf t g).waiting = [] ∧ (queueOf t g).started = []) ∧
  ∀ k < 4, (t.stream k).queue = [] ∨ (t.stream k).fault ≠ none
theorem witness_preemption_2_1_1_1 :
      ((sPr.part 0).state = .preempting) ∧ (sPr.preemptAt 0 = some (5, 6)) ∧ (∀ l ∈ (sPr.part 0).tiles, still (sPr.tile l)) ∧
      ((afterSave sPr).cmds = [] ++ [tkn (kc 36)]) ∧ ((tkn (kc 36)).part = some 0) ∧ ((tkn (kc 36)).opcode = 36) ∧ ((tkn (kc 36)).taken = true) :=
    ⟨by decide +kernel, by decide +kernel, by unfold still; decide +kernel, by decide +kernel, by decide +kernel, by decide +kernel, by decide +kernel⟩
theorem witness_preemption_2_1_1_2 :
      ((sPq.part 0).state = .preempting) ∧ (sPq.preemptAt 0 = some (5, 6)) ∧ (∀ l ∈ (sPq.part 0).tiles, still (sPq.tile l)) ∧
      (∀ d ∈ (afterSave sPq).cmds, ¬ (d.part = some 0 ∧ d.opcode = 36 ∧ d.taken = true)) :=
    ⟨by decide +kernel, by decide +kernel, by unfold still; decide +kernel, by decide +kernel⟩

end T17

namespace T18

def cmdW (op : Nat) (plen : Nat) (ps : List Nat) (g : Cmd → Cmd := id) (f : Nat := 0) : Cmd := g ⟨f, 3, op, false, false, false, plen, 55, 0x1234, ((ps.flatMap (leBytes 8)) ++ List.replicate 240 0).take 240, 40, false, false, false, false, 0⟩

def G (g : State → State) (cs : List Cmd) (f : Nat := 0) : State := g (let s := { demo with now := 5000, cmds := cs, up := { demo.up with ready := 0xFFFFFFFFFFFFFFFF#_ } }; s.setFn f { Fn.reset with neg := true, uver := 0x32, rr := ⟨.of 0x10000, .of 10, .of true, 5, 1023, true⟩, ev := ⟨.of 0x20000, .of 6, .of true, 5, 62, true⟩ })

def pw (g : Power → Power) (cs : List Cmd := []) : State := (G (fun s => { s with power := g s.power }) cs).setPort 3 { Port.reset with state := .active }

def ins (d : Option (Nat × Nat)) (fl : Option Nat) := pw fun w => { w with dip := d, failing := fl }

def pfS : State := { ins none (some 2) with now := 7 * 3600 * 1000000000 } |>.setGrade 1 4 { Grade.fresh with tally := 5, corrected := 9 }

def rs : State := { State.reset with now := 77 }

def v1 := ({ rs with up := { rs.up with rails := 9 } })

def v4 := (pw fun w => { w with unmetSince := some 5000 })

def v5 := (pw fun w => { w with unmetSince := some 5000, unmetOut := true })

def cal (fit : Bool) (br gr : Nat) := pw fun w => { w with fit := fit, badRun := br, goodRun := gr, scaleNum := 3, scaleDen := 7, calAt := 9 }

def cc := cmdW 0x40 8 [900]

def sb := { pw (fun w => { w with mw := 123456, mv := 50000, energy := 987654321, coolIn := 20, coolOut := 30, dies := (w.dies.set 1 { DieHeat.reset with tj := 77 }).set 3 { DieHeat.reset with tj := 99 } }) with hbm := { demo.hbm with heat := (demo.hbm.heat.set 2 { demo.hbm.heat[2] with temp := 88 }) } }

def dr (i : Island) (y : DieHeat) : State := { pw fun w => { w with islands := [(300, i)], dies := w.dies.set! (dieOf 300) y, thresh := { shadow := 9, force := 3 } } with now := 5000000000 }

def v6 := (dr ⟨20, false, true⟩ { DieHeat.reset with trips := 2, deepest := 40, winStart := 4999999000, posted := some 100 })

def v7 := (dr ⟨20, false, true⟩ { DieHeat.reset with trips := 2, deepest := 40, winStart := 4999999000, posted := some 4500000000 })

def ht (y : DieHeat) (o : Option Nat) : State := { pw fun w => { w with dies := (w.dies.set 1 y).set 2 { DieHeat.reset with hold := o }, holdAt := 50, holdNs := 7 } with now := 5000000000 }

def v8 := (ht { DieHeat.reset with hold := some 4 } none)

def v9 := (ht { DieHeat.reset with k := 4 } none)

def v10 := (ht { DieHeat.reset with 5 := 5, moved := 0 } none)

def th (g : Power → Power) : State := ((pw g).modPart 0 fun x => { x with bells := [(63, { Bell.idle with desc := some ⟨false, false, 1, true, false, 3, 5, 3⟩ })], modIndex := 9, func := 2 }).setPort 0 { Port.reset with state := .active }

def v11 := (th fun w => { w with slowSince := some 4, capK := 5 })

def v12 := (th fun w => { w with throttled := true })

def v13 := (th fun w => { w with throttled := true, capK := 4, rate := 25, newRate := some (27, 44) })

def v14 := (th fun w => { w with throttled := true, capK := 4, rate := 26, newRate := some (27, 44) })

def v15 := (th fun w => { w with throttled := true, capK := 4, rate := 26 })

def ns : List PaceNotice := [⟨0, 5, 3, 100⟩, ⟨0, 6, 4, 200⟩]

def v16 := (th fun w => { w with notices := ns })

def paced : State := (th fun w => { w with notices := ns, capK := 20, islands := [(0, ⟨16, true, false⟩)] }).modPart 0 fun x => { x with pace := true }

def v17 := (th fun w => { w with capK := 33 })

def v18 := (th fun w => { w with dies := w.dies.set 0 { DieHeat.reset with hold := some 4 } })

def v19 := (th fun w => { w with islands := [(0, ⟨3, true, true⟩)] })

def railsUp := { rs with up := { rs.up with rails := 9 } }

def wipes4 : State := State.reset.setSiteTile 4 Tile.wiped.wipe

theorem witness_inputWatched_1 :
      (outside44to58 50000 = 0) ∧
      ((ins none none).power.dip = none) :=
    ⟨by decide +kernel, by decide +kernel⟩

theorem witness_inputWatched_2_1 :
      (outside44to58 50000 = 0) ∧
      ((ins (some (1000, 43000)) none).power.dip = some (1000, 43000)) ∧
      ((ins (some (1000, 43000)) none).power.failing = none) :=
    ⟨by decide +kernel, by decide +kernel, by decide +kernel⟩

theorem witness_inputWatched_2_2_1 :
      (outside44to58 50000 = 0) ∧
      ((ins (some (1000, 43000)) (some 2)).power.dip = some (1000, 43000)) ∧
      ((ins (some (1000, 43000)) (some 2)).power.failing = some 2) :=
    ⟨by decide +kernel, by decide +kernel, by decide +kernel⟩

theorem witness_inputWatched_2_2_2 :
      (outside44to58 61000 ≠ 0) ∧
      ((6000, 61000) =
  match (ins none none).power.dip with
  | none => ((timeAt (ins none none) ((ins none none).now + 1000)).now, 61000)
  | some (t, far) => (t, if outside44to58 far < outside44to58 61000 then 61000 else far)) :=
    ⟨by decide +kernel, by decide +kernel⟩

theorem witness_railsRise_1_1 :
      (rs.up.rails = 0) ∧
      (rs.up.railFail = none) :=
    ⟨by decide +kernel, by decide +kernel⟩

theorem witness_railsRise_1_2 :
      (¬(v1.up.rails = 0 ∧ v1.up.railFail = none)) :=
    by decide +kernel

theorem witness_railsRise_2_1 :
      (¬(railsUp.up.rails = 0 ∧ railsUp.up.railFail = none)) :=
    by decide +kernel

theorem witness_railsRise_2_2 :
      (rs.up.rails = 0) ∧
      (rs.up.railFail = none) :=
    ⟨by decide +kernel, by decide +kernel⟩

theorem witness_capLoops_2_2_1 :
      (v4.power.unmetSince = some 5000) ∧
      (v4.power.unmetOut = false) :=
    ⟨by decide +kernel, by decide +kernel⟩

theorem witness_capLoops_2_2_2 :
      (v5.power.unmetSince = none ∨ v5.power.unmetOut = true) :=
    by decide +kernel

theorem witness_estimatorJudged_2_2 :
      ((cal true 0 0).power.fit = true → (¬15 * 50 < 100 * if 100 ≤ 50 then 50 - 100 else 100 - 50) ∨ (cal true 0 0).power.badRun < 7) ∧
      ((cal true 0 0).power.fit = false → (15 * 50 < 100 * if 100 ≤ 50 then 50 - 100 else 100 - 50) ∨ (cal true 0 0).power.goodRun < 7) :=
    ⟨by decide +kernel, by decide +kernel⟩

theorem witness_estimatorJudged_1 :
      ((cal true 7 0).power.fit = true) ∧
      (15 * 100 < 100 * if 200 ≤ 100 then 100 - 200 else 200 - 100) ∧
      (7 ≤ (cal true 7 0).power.badRun) :=
    ⟨by decide +kernel, by decide +kernel, by decide +kernel⟩

theorem witness_estimatorJudged_2_1 :
      ((cal false 0 7).power.fit = false) ∧
      (¬15 * 100 < 100 * if 100 ≤ 100 then 100 - 100 else 100 - 100) ∧
      (7 ≤ (cal false 0 7).power.goodRun) :=
    ⟨by decide +kernel, by decide +kernel, by decide +kernel⟩

theorem witness_capsSet_1_1 :
      (Takes (pw (fun (w : Power) => { w with mgmt := 800 : Power }) [cc]) (0) (3) formCap cc) :=
    ⟨by decide +kernel, by decide +kernel⟩

theorem witness_capsSet_1_2 :
      (Takes (pw id [cc]) (0) (3) formCap cc) :=
    ⟨by decide +kernel, by decide +kernel⟩

theorem witness_capsSet_2_1 :
      (499 < 500 ∨ 1250 < 499) :=
    by decide +kernel

theorem witness_capsSet_2_2_1 :
      (500 ≤ 1250) ∧
      (1250 ≤ 1250) :=
    ⟨by decide +kernel, by decide +kernel⟩

theorem witness_capsSet_2_2_2 :
      (500 ≤ 500) ∧
      (500 ≤ 1250) :=
    ⟨by decide +kernel, by decide +kernel⟩

theorem witness_sideBand_1 :
      ((0, (sb.sensor 0).getD 0) ∈ [(0, sb.power.mw), (1, sb.power.mv), (2, sb.power.energy / 100), (3, (List.map (fun (i : Nat) => (List.map (fun (d : Nat) => (sb.die d).tj) (List.range 4)).getD i 0 % 256 * 2 ^ (8 * i)) (List.range (List.map (fun (d : Nat) => (sb.die d).tj) (List.range 4)).length)).sum), (4, (List.map (fun (i : Nat) => (List.map (fun (y : Stack) => y.temp) sb.hbm.heat.toList).getD i 0 % 256 * 2 ^ (8 * i)) (List.range (List.map (fun (y : Stack) => y.temp) sb.hbm.heat.toList).length)).sum), (5, sb.power.coolIn % 256 + sb.power.coolOut % 256 * 256), (6, sb.up.ready.toNat), (7, sb.up.failed.toNat)]) :=
    by decide +kernel

theorem witness_sideBand_2_1 :
      (8 ≤ 8) :=
    by decide +kernel

theorem witness_droops_1_1 :
      (dieOf 300 < 4) ∧
      ((Tab.get Island.calm (dr { k := 4, tripped := true, severe := false : Island } DieHeat.reset).power.islands 300).tripped = true) :=
    ⟨by decide +kernel, by decide +kernel⟩

theorem witness_droops_1_2_1 :
      (dieOf 300 < 4) ∧
      ((Tab.get Island.calm v7.power.islands 300).tripped = false) ∧
      (¬(v7.power.thresh.force ≠ 0 ∧ (v7.power.thresh.force ≤ if v7.now < (v7.die (dieOf 300)).winStart + 1000000 then (v7.die (dieOf 300)).trips + 1 else 1) ∧ ∀ (t : Nat), (v7.die (dieOf 300)).posted = some t → t + 1000000000 ≤ v7.now)) :=
    ⟨by decide +kernel, by decide +kernel, by decide +kernel⟩

theorem witness_droops_1_2_2 :
      (dieOf 300 < 4) ∧
      ((Tab.get Island.calm v6.power.islands 300).tripped = false) ∧
      (v6.power.thresh.force ≠ 0 ∧ (v6.power.thresh.force ≤ if v6.now < (v6.die (dieOf 300)).winStart + 1000000 then (v6.die (dieOf 300)).trips + 1 else 1) ∧ ∀ (t : Nat), (v6.die (dieOf 300)).posted = some t → t + 1000000000 ≤ v6.now) :=
    ⟨by decide +kernel, by decide +kernel, by decide +kernel⟩

theorem witness_droops_2_1_1 :
      ((Tab.get Island.calm (dr { k := 20, tripped := true, severe := true : Island } DieHeat.reset).power.islands 300).severe = true ∨ Tab.get Island.calm (dr { k := 20, tripped := true, severe := true : Island } DieHeat.reset).power.islands 300 = { k := 0, tripped := false, severe := false : Island }) :=
    by decide +kernel

theorem witness_droops_2_1_2_1 :
      ((Tab.get Island.calm (dr { k := 3, tripped := true, severe := false : Island } DieHeat.reset).power.islands 300).severe = false) ∧
      (Tab.get Island.calm (dr { k := 3, tripped := true, severe := false : Island } DieHeat.reset).power.islands 300 ≠ { k := 0, tripped := false, severe := false : Island }) :=
    ⟨by decide +kernel, by decide +kernel⟩

theorem witness_heatAnswered_1 :
      ({ (v8.die 1) with tj := 100 : DieHeat }.hold = some 4) ∧
      (100 ≤ 100) :=
    ⟨by decide +kernel, by decide +kernel⟩

theorem witness_heatAnswered_2_1 :
      ({ (v8.die 1) with tj := 99 : DieHeat }.hold = some 4) ∧
      (99 < 100) :=
    ⟨by decide +kernel, by decide +kernel⟩

theorem witness_heatAnswered_2_2_1 :
      ({ (v9.die 1) with tj := 104 : DieHeat }.hold = none) ∧
      (104 ≤ 104) :=
    ⟨by decide +kernel, by decide +kernel⟩

theorem witness_heatAnswered_2_2_2_1 :
      ({ (v10.die 1) with tj := 103 : DieHeat }.hold = none) ∧
      (100 ≤ 103) ∧
      (103 < 104) :=
    ⟨by decide +kernel, by decide +kernel, by decide +kernel⟩

theorem witness_heatAnswered_2_2_2_2_1 :
      ({ (v10.die 1) with tj := 98 : DieHeat }.hold = none) ∧
      (98 ≤ 98) ∧
      (98 < 100) :=
    ⟨by decide +kernel, by decide +kernel, by decide +kernel⟩

theorem witness_heatAnswered_2_2_2_2_2 :
      ({ (v10.die 1) with tj := 97 : DieHeat }.hold = none) ∧
      (97 < 98) :=
    ⟨by decide +kernel, by decide +kernel⟩

theorem witness_throttled_1_1 :
      (v11.power.throttled = false) ∧
      (v11.power.slowSince = some 4) :=
    ⟨by decide +kernel, by decide +kernel⟩

theorem witness_throttled_1_2_1 :
      ((th id).power.throttled = false) ∧
      ((th id).power.slowSince = none) :=
    ⟨by decide +kernel, by decide +kernel⟩

theorem witness_throttled_1_2_2_1 :
      (v12.power.throttled = true) ∧
      (slowest v12.power = 0) :=
    ⟨by decide +kernel, by decide +kernel⟩

theorem witness_throttled_1_2_2_2_1 :
      (v13.power.throttled = true) ∧
      (slowest v13.power ≠ 0) ∧
      (v13.power.newRate = some (27, 44)) ∧
      (27 + 2 ≤ v13.power.rate ∨ v13.power.rate + 2 ≤ 27) :=
    ⟨by decide +kernel, by decide +kernel, by decide +kernel, by decide +kernel⟩

theorem witness_throttled_1_2_2_2_2_1 :
      (v14.power.throttled = true) ∧
      (slowest v14.power ≠ 0) ∧
      (∀ (r t : Nat), v14.power.newRate = some (r, t) → ¬(r + 2 ≤ v14.power.rate ∨ v14.power.rate + 2 ≤ r)) :=
    ⟨by decide +kernel, by decide +kernel, someAll (by decide +kernel)⟩

theorem witness_throttled_1_2_2_2_2_2_1 :
      (v15.power.throttled = true) :=
    by decide +kernel

theorem witness_throttled_1_2_2_2_2_2_2 :
      ((th id).power.throttled = false) :=
    by decide +kernel

theorem witness_throttled_2_1 :
      (v16.power.notices = [{ part := 0, origin := 5, rate := 3, time := 100 : PaceNotice }] ++ [{ part := 0, origin := 6, rate := 4, time := 200 : PaceNotice }]) ∧
      ({ part := 0, origin := 6, rate := 4, time := 200 : PaceNotice }.part = 0 ∧ { part := 0, origin := 6, rate := 4, time := 200 : PaceNotice }.origin = 6) ∧
      (∀ (m : PaceNotice), m ∈ [{ part := 0, origin := 5, rate := 3, time := 100 : PaceNotice }] ++ [] → ¬(m.part = 0 ∧ m.origin = 6)) :=
    ⟨by decide +kernel, by decide +kernel, by decide +kernel⟩

theorem witness_throttled_2_2 :
      (∀ (n : PaceNotice), n ∈ v16.power.notices → ¬(n.part = 1 ∧ n.origin = 6)) :=
    by decide +kernel

theorem witness_fractions_2_2_2_2 :
      ((Tab.get Island.calm paced.power.islands 0).severe = false) ∧
      ((paced.siteTile 0).pad.wiping = false) ∧
      ((paced.die (dieOf 0)).hold = none) ∧
      (paced.seatedAt 0 = some 0) ∧
      ((paced.seat 0).valid = true) :=
    ⟨by decide +kernel, by decide +kernel, by decide +kernel, by decide +kernel, by decide +kernel⟩

theorem witness_fractions_2_2_2_1 :
      ((Tab.get Island.calm v17.power.islands 209).severe = false) ∧
      ((v17.siteTile 209).pad.wiping = false) ∧
      ((v17.die (dieOf 209)).hold = none) ∧
      (v17.seatedAt 209 = none) :=
    ⟨by decide +kernel, by decide +kernel, by decide +kernel, by decide +kernel⟩

theorem witness_fractions_2_2_1 :
      ((Tab.get Island.calm v18.power.islands 0).severe = false) ∧
      ((v18.siteTile 0).pad.wiping = false) ∧
      ((v18.die (dieOf 0)).hold ≠ none) :=
    ⟨by decide +kernel, by decide +kernel, by decide +kernel⟩

theorem witness_fractions_1 :
      ((Tab.get Island.calm v19.power.islands 0).severe = true) :=
    by decide +kernel

theorem witness_fractions_2_1 :
      ((Tab.get Island.calm wipes4.power.islands 4).severe = false) ∧
      ((wipes4.siteTile 4).pad.wiping = true) :=
    ⟨by decide +kernel, by decide +kernel⟩

theorem witness_powerFails_1 :
      ((ins none none).power.failing = none) :=
    by decide +kernel

theorem witness_powerFails_2 :
      (pfS.power.failing = some 2) :=
    by decide +kernel

end T18

namespace T19

def cmdW (op : Nat) (plen : Nat) (ps : List Nat) (g : Cmd → Cmd := id) (f : Nat := 0) : Cmd := g ⟨f, 3, op, false, false, false, plen, 55, 0x1234, ((ps.flatMap (leBytes 8)) ++ List.replicate 240 0).take 240, 40, false, false, false, false, 0⟩

def G (g : State → State) (cs : List Cmd) (f : Nat := 0) : State := g (let s := { demo with now := 5000, cmds := cs, up := { demo.up with ready := 0xFFFFFFFFFFFFFFFF#_ } }; s.setFn f { Fn.reset with neg := true, uver := 0x32, rr := ⟨.of 0x10000, .of 10, .of true, 5, 1023, true⟩, ev := ⟨.of 0x20000, .of 6, .of true, 5, 62, true⟩ })

def up64 (n : Nat) : Nat := (n + 63) / 64 * 64

def padTo (n : Nat) (bs : List Byte) : List Byte := (bs ++ List.replicate n 0).take n

def chunkB (k : Nat) : List Byte := rnd k (70 + 3 * k)

def eK : List Byte := rnd 1 32

def pK : List Byte := rnd 2 1952

def ent2 (k role : Nat) : List Byte := rnd (k + 60) 48 ++ leBytes 8 ((chunkB k).length + role * 2^32) ++ leBytes 8 0

def man (seq svn slot rev : Nat) (ks : List (Nat × Nat)) (sg : Byte := 1) : List Byte :=
  padTo 256 (leBytes 8 0x014E414D47 ++ leBytes 8 (seq + svn * 2^32 + slot * 2^40 + rev * 2^48) ++ leBytes 8 ks.length) ++ ks.flatMap (fun k => ent2 k.1 k.2) ++ eK ++ pK ++ padTo 64 [sg] ++ padTo 3309 [1]

def k5 : List (Nat × Nat) := [(11,1),(12,2),(13,3),(14,4),(15,5)]

def k6 : List (Nat × Nat) := [(11,1),(12,2),(13,3),(14,4),(16,5),(17,6)]

def pkg (m : List Byte) (ks : List (Nat × Nat)) : List Byte := padTo (up64 m.length) m ++ ks.flatMap (fun k => padTo (up64 (chunkB k.1).length) (chunkB k.1))

def otp0 : Otp := { Security.reset.otp with slots := Security.reset.otp.slots.set 1 (rnd 9 48), svn := 6 }

def M0 := man 41 6 1 0 k5

def M0m : Manifest := (readManifest M0).getD ⟨0, 0, 0, 0, []⟩

def chs (ks : List (Nat × Nat)) : List (List Byte × List Byte) := ks.map fun k => (Config.sha384 (chunkB k.1), chunkB k.1)

def M1 := man 42 7 1 4 k6

def sec0 : Security := { Security.reset with otp := otp0, store := [⟨man 39 6 1 0 k5, .retired⟩, ⟨M0, .active⟩, ⟨man 50 6 1 0 k5 0xEE, .unmarked⟩, ⟨man 45 5 1 0 k5, .unmarked⟩], chunks := chs k5 ++ [([7,7],[1])], inForce := some M0 }

def boot1 (x : Security) : State := { State.reset with sec := x, draws := 4, up := { State.reset.up with rails := 9 } }

def v1 := (boot1 { sec0 with store := [] })

def sg := cmdW 0x50 16 [0x4000, (pkg M1 k6).length]

def gsec (x : Security) (cs : List Cmd) (p : List Byte := []) : State := G (fun s => { s with sec := x, host := Mem.writeN [] 0x4000 p }) cs

def v2 := (gsec { sec0 with otp := { otp0 with udsKill := true } } [sg] [])

def v3 := (gsec { sec0 with activation := some ⟨.prigar, 4, [], none⟩ } [sg] [])

def ac := cmdW 0x51 8 [42]

def sec2 : Security := { sec0 with store := sec0.store ++ [⟨M1, .staged⟩], chunks := sec0.chunks ++ chs (k6.drop 4) }

def v5 := (gsec { sec2 with chunks := sec0.chunks } [ac] [])

def all12 := [4, 5, 6, 7, 8, 9, 10, 11, 2, 3, 1]

def act (done : List Nat) (rb : Option Nat) : State := gsec { sec2 with activation := some ⟨.host 0 3, 42, done, rb⟩ } [{ ac with taken := true }]

def M1m : Manifest := (readManifest M1).getD ⟨0, 0, 0, 0, []⟩

def rcv (x : Security) : State := { boot1 x with up := { (boot1 x).up with recovery := true, failed := 1 } }

def pkgM : Manifest := (readManifest (packageManifest (pkg M1 k6))).getD ⟨0, 0, 0, 0, []⟩

def v7 := (rcv { sec0 with store := [] })

def at_ := cmdW 0x60 48 [0x4000, 4032, 1, 2, 3, 4]

def gat (x : Security) (cs : List Cmd) : State := (gsec { x with imageDigest := x.imageDigest.set 0 [9,9], tableDigest := x.tableDigest.set 0 [8] } cs).modPart 0 fun y => { y with func := 0 }

def v8 := (gat { sec2 with inForce := none, store := [] } [at_])

def v9 := (gat { sec2 with otp := { otp0 with udsKill := true } } [at_])

def at2 := cmdW 0x60 48 [0x4000, 3968, 1, 2, 3, 4]

def sp (st : Nat) (sg : Option Nat) : State := (gat sec2 []).setSpdm 0 ⟨st, sg, .none⟩

def v10 := (gat { sec2 with otp := { otp0 with udsKill := true } } [])

def sn : Word := Config.serial

def auth (from_ target slot : Nat) (nonce : Nat) (certs : List Byte) (sg : Byte := 1) (mg : Nat := 0x43594C47) : List Byte :=
  padTo 64 (leBytes 4 mg ++ leBytes 1 (from_ + 16 * target) ++ leBytes 1 slot ++ leBytes 2 certs.length ++ leBytes 8 sn.toNat ++ leBytes 32 nonce) ++ certs ++ eK ++ pK ++ padTo 64 [sg] ++ padTo 3309 [1]

def lcs (lc : Nat) (cs : List Cmd) (a : List Byte) (exists_ : Bool := false) : State :=
  let s := (gsec { sec2 with otp := { otp0 with lc := lc, uds := 0x33 }, nonce := 77 } cs a)
  let s := if exists_ then s else s.setPart 0 Part.reset
  { s with draws := 9 }

def lcc (t : Nat) (n : Nat) := cmdW 0xA0 24 [t, 0x4000, n]

def crt : List Byte := [0x30, 3, 0x33, 8, 1] ++ [0x30, 4, 2, 0x33, 9, 1]

def ab := auth 2 3 1 77 []

def oc := cmdW 0x41 0 [] fun c => { c with slot := 9, seq := 70 }

def ck2 (lc t : Nat) (a : List Byte) (second : Option Nat) (ex : Bool) : State := lcs lc [oc, lcc t a.length] a ex

def v11 := (let s := ck2 2 3 ab none false; { s with sec := { s.sec with otp := { s.sec.otp with udsKill := true } } })

def lbad := cmdW 0xA0 23 [3, 0x4000, 5]

def chg : LcChange := ⟨0, 3, 2, 3⟩

def lw (cs : List Cmd) : State := let s := lcs 3 cs ab; { s with sec := { s.sec with change := some chg }, locker := ⟨[(3,4)], [(0,1)], [5], [6]⟩ }.modLog 1 2 0 []

def v12 := (lw [{ lcc 3 9 with taken := true }])

def quiet := gsec { sec0 with otp := { otp0 with udsKill := true } } [ac] []

def busy1 := gsec { sec0 with activation := some ⟨.prigar, 4, [], none⟩ } [ac] []

theorem witness_signatureChecks_1 :
      ({ otp0 with revoked := (2 : BitVec 4) : Otp }.revoked.getLsbD 1 = true) :=
    by decide +kernel

theorem witness_signatureChecks_2_1 :
      (otp0.revoked.getLsbD 0 = false) ∧
      (∀ (b : Byte), b ∈ otp0.slots[(0 : Fin 4)] → b = (0 : Byte)) :=
    ⟨by decide +kernel, by decide +kernel⟩

theorem witness_signatureChecks_2_2 :
      (otp0.revoked.getLsbD 1 = false) ∧
      (¬∀ (b : Byte), b ∈ otp0.slots[(1 : Fin 4)] → b = (0 : Byte)) :=
    ⟨by decide +kernel, by decide +kernel⟩

theorem witness_manifestsChecked_2_1 :
      (readManifest M0 = some M0m) :=
    by decide +kernel

theorem witness_manifestsChecked_2_2_2 :
      (readManifest M0 = some M0m) :=
    by decide +kernel

theorem witness_manifestsChecked_2_2_1 :
      (readManifest (M0 ++ [(1 : Byte)]) = none) :=
    by decide +kernel

theorem witness_boots_1 :
      (2 ≤ v1.up.rails ∧ v1.up.testMode = false ∧ v1.up.loader = false ∧ v1.up.recovery = false) :=
    by decide +kernel

theorem witness_boots_2 :
      (¬(2 ≤ { (boot1 sec0) with up := { State.reset.up with rails := 1 : Bringup } : State }.up.rails ∧ { (boot1 sec0) with up := { State.reset.up with rails := 1 : Bringup } : State }.up.testMode = false ∧ { (boot1 sec0) with up := { State.reset.up with rails := 1 : Bringup } : State }.up.loader = false ∧ { (boot1 sec0) with up := { State.reset.up with rails := 1 : Bringup } : State }.up.recovery = false)) :=
    by decide +kernel

theorem witness_firmwareCommands_1_2_2 :
      (Takes (gsec sec0 [sg] (pkg M1 k6)) (0) (3) formStage sg) ∧
      (¬(gsec sec0 [sg] (pkg M1 k6)).sec.otp.udsKill = true) ∧
      (¬((gsec sec0 [sg] (pkg M1 k6)).sec.activation ≠ none ∨ (gsec sec0 [sg] (pkg M1 k6)).sec.change ≠ none)) :=
    ⟨⟨by decide +kernel, by decide +kernel⟩, by decide +kernel, by decide +kernel⟩

theorem witness_firmwareCommands_1_1 :
      (Takes v2 (0) (3) formStage sg) ∧
      (v2.sec.otp.udsKill = true) :=
    ⟨⟨by decide +kernel, by decide +kernel⟩, by decide +kernel⟩

theorem witness_firmwareCommands_1_2_1 :
      (Takes v3 (0) (3) formStage sg) ∧
      (¬v3.sec.otp.udsKill = true) ∧
      (v3.sec.activation ≠ none ∨ v3.sec.change ≠ none) :=
    ⟨⟨by decide +kernel, by decide +kernel⟩, by decide +kernel, by decide +kernel⟩

theorem witness_firmwareCommands_2_2_2_2 :
      (Takes v5 (0) (3) formActivate ac) ∧
      (¬v5.sec.otp.udsKill = true) ∧
      (¬(v5.sec.activation ≠ none ∨ v5.sec.change ≠ none)) ∧
      (List.find? (fun (m : Stored) => decide (m.mark = StoreMark.staged)) v5.sec.store = some { raw := M1, mark := StoreMark.staged : Stored }) ∧
      (seqOf { raw := M1, mark := StoreMark.staged : Stored }.raw = par ac 0 0 32) :=
    ⟨⟨by decide +kernel, by decide +kernel⟩, by decide +kernel, by decide +kernel, by decide +kernel, by decide +kernel⟩

theorem witness_firmwareCommands_2_2_2_1 :
      (Takes (gsec sec0 [ac]) (0) (3) formActivate ac) ∧
      (¬(gsec sec0 [ac]).sec.otp.udsKill = true) ∧
      (¬((gsec sec0 [ac]).sec.activation ≠ none ∨ (gsec sec0 [ac]).sec.change ≠ none)) ∧
      (∀ (m : Stored), List.find? (fun (m : Stored) => decide (m.mark = StoreMark.staged)) (gsec sec0 [ac]).sec.store = some m → seqOf m.raw ≠ par ac 0 0 32) :=
    ⟨⟨by decide +kernel, by decide +kernel⟩, by decide +kernel, by decide +kernel, by decide +kernel⟩

theorem witness_firmwareCommands_2_1 :
      (Takes quiet (0) (3) formActivate ac) ∧
      (quiet.sec.otp.udsKill = true) :=
    ⟨⟨by decide +kernel, by decide +kernel⟩, by decide +kernel⟩

theorem witness_firmwareCommands_2_2_1 :
      (Takes busy1 (0) (3) formActivate ac) ∧
      (¬busy1.sec.otp.udsKill = true) ∧
      (busy1.sec.activation ≠ none ∨ busy1.sec.change ≠ none) :=
    ⟨⟨by decide +kernel, by decide +kernel⟩, by decide +kernel, by decide +kernel⟩

theorem witness_activationSteps_1_1 :
      ((act [] none).sec.activation = some { by_ := Asker.host 0 3, seq := 42, done := [], rollback := none : Activation }) ∧
      (nextOf (act [] none) { by_ := Asker.host 0 3, seq := 42, done := [], rollback := none : Activation } = some 4) ∧
      (∀ (d : Fin 12), (act [] none).faults.cores[d].away = none) ∧
      ({ by_ := Asker.host 0 3, seq := 42, done := [], rollback := none : Activation }.rollback = none) ∧
      (nextOf (act [] none) { { by_ := Asker.host 0 3, seq := 42, done := [], rollback := none : Activation } with done := { by_ := Asker.host 0 3, seq := 42, done := [], rollback := none : Activation }.done ++ [4] : Activation } ≠ none) :=
    ⟨by decide +kernel, by decide +kernel, by decide +kernel, by decide +kernel, by decide +kernel⟩

theorem witness_activationSteps_1_2 :
      ((act all12 none).sec.activation = some { by_ := Asker.host 0 3, seq := 42, done := all12, rollback := none : Activation }) ∧
      (nextOf (act all12 none) { by_ := Asker.host 0 3, seq := 42, done := all12, rollback := none : Activation } = some 0) ∧
      (∀ (d : Fin 12), (act all12 none).faults.cores[d].away = none) ∧
      ({ by_ := Asker.host 0 3, seq := 42, done := all12, rollback := none : Activation }.rollback = none) ∧
      (nextOf (act all12 none) { { by_ := Asker.host 0 3, seq := 42, done := all12, rollback := none : Activation } with done := { by_ := Asker.host 0 3, seq := 42, done := all12, rollback := none : Activation }.done ++ [0] : Activation } = none) ∧
      (List.find? (fun (m : Stored) => decide (m.mark = StoreMark.staged)) (act all12 none).sec.store = some { raw := M1, mark := StoreMark.staged : Stored }) ∧
      (readManifest { raw := M1, mark := StoreMark.staged : Stored }.raw = some M1m) :=
    ⟨by decide +kernel, by decide +kernel, by decide +kernel, by decide +kernel, by decide +kernel, by decide +kernel, by decide +kernel⟩

theorem witness_activationSteps_2_1 :
      ((act [4] (some 6)).sec.activation = some { by_ := Asker.host 0 3, seq := 42, done := [4], rollback := some 6 : Activation }) ∧
      (nextOf (act [4] (some 6)) { by_ := Asker.host 0 3, seq := 42, done := [4], rollback := some 6 : Activation } = some 4) ∧
      (∀ (d : Fin 12), (act [4] (some 6)).faults.cores[d].away = none) ∧
      ({ by_ := Asker.host 0 3, seq := 42, done := [4], rollback := some 6 : Activation }.rollback = some 6) :=
    ⟨by decide +kernel, by decide +kernel, by decide +kernel, by decide +kernel⟩

theorem witness_activationSteps_2_2 :
      ((act [] none).sec.activation = some { by_ := Asker.host 0 3, seq := 42, done := [], rollback := none : Activation }) ∧
      (nextOf (act [] none) { by_ := Asker.host 0 3, seq := 42, done := [], rollback := none : Activation } = some 4) ∧
      (∀ (d : Fin 12), (act [] none).faults.cores[d].away = none) ∧
      ({ by_ := Asker.host 0 3, seq := 42, done := [], rollback := none : Activation }.rollback = none) :=
    ⟨by decide +kernel, by decide +kernel, by decide +kernel, by decide +kernel⟩

theorem witness_activationWaits :
      ((gsec sec2 []).sec.activation = none ∨ ∃ (d : Fin 12), (gsec sec2 []).faults.cores[d].away ≠ none) :=
    by decide +kernel

theorem witness_prigarUpdates_1_2_2 :
      (¬((gsec sec0 []).up.ready.getLsbD 0 = false ∨ (gsec sec0 []).sec.otp.udsKill = true)) ∧
      (¬((gsec sec0 []).sec.activation ≠ none ∨ (gsec sec0 []).sec.change ≠ none)) :=
    ⟨by decide +kernel, by decide +kernel⟩

theorem witness_prigarUpdates_1_1 :
      ({ (gsec sec0 []) with up := { (gsec sec0 []).up with ready := (0 : BitVec 30) : Bringup } : State }.up.ready.getLsbD 0 = false ∨ { (gsec sec0 []) with up := { (gsec sec0 []).up with ready := (0 : BitVec 30) : Bringup } : State }.sec.otp.udsKill = true) :=
    by decide +kernel

theorem witness_prigarUpdates_1_2_1 :
      (¬((act [] none).up.ready.getLsbD 0 = false ∨ (act [] none).sec.otp.udsKill = true)) ∧
      ((act [] none).sec.activation ≠ none ∨ (act [] none).sec.change ≠ none) :=
    ⟨by decide +kernel, by decide +kernel⟩

theorem witness_prigarUpdates_2_2_2 :
      (v7.up.recovery = true) ∧
      (readManifest (List.take (256 + 64 * chunksOf (pkg M1 k6) + 5357) (pkg M1 k6)) = some pkgM) :=
    ⟨by decide +kernel, by decide +kernel⟩

theorem witness_prigarUpdates_2_2_1 :
      ((rcv sec0).up.recovery = true) ∧
      (readManifest (List.take (256 + 64 * chunksOf [] + 5357) []) = none) :=
    ⟨by decide +kernel, by decide +kernel⟩

theorem witness_prigarUpdates_2_1 :
      ((boot1 sec0).up.recovery = false) :=
    by decide +kernel

theorem witness_attests_2_2 :
      (Takes v8 (0) (3) formAttest at_) ∧
      (¬v8.sec.otp.state ∈ [0, 4]) ∧
      (4032 ≤ BitVec.toNat (at_.arg 1)) ∧
      ((List.take 32 (List.drop 16 at_.params)).length = 32) :=
    ⟨⟨by decide +kernel, by decide +kernel⟩, by decide +kernel, by decide +kernel, by decide +kernel⟩

theorem witness_attests_1 :
      (Takes v9 (0) (3) formAttest at_) ∧
      (v9.sec.otp.state ∈ [0, 4]) :=
    ⟨⟨by decide +kernel, by decide +kernel⟩, by decide +kernel⟩

theorem witness_attests_2_1 :
      (Takes (gat sec2 [at2]) (0) (3) formAttest at2) ∧
      (¬(gat sec2 [at2]).sec.otp.state ∈ [0, 4]) ∧
      (BitVec.toNat (at2.arg 1) < 4032) :=
    ⟨⟨by decide +kernel, by decide +kernel⟩, by decide +kernel, by decide +kernel⟩

theorem witness_spdmAnswers_2_2_1 :
      (turnedAway (sp 1 none) = none) ∧
      (1 ≤ (spdmOf (sp 1 none) (0 : FnIx)).stage) :=
    ⟨by decide +kernel, by decide +kernel⟩

theorem witness_spdmAnswers_2_2_2_1 :
      (turnedAway (sp (3 + 0) none) = none) ∧
      (2 ≤ (spdmOf (sp (3 + 0) none) (0 : FnIx)).stage) :=
    ⟨by decide +kernel, by decide +kernel⟩

theorem witness_spdmAnswers_2_2_2_2_1_1 :
      (turnedAway (sp 3 none) = none) ∧
      (3 ≤ (spdmOf (sp 3 none) (0 : FnIx)).stage) :=
    ⟨by decide +kernel, by decide +kernel⟩

theorem witness_spdmAnswers_2_2_2_2_1_2_1 :
      (turnedAway (sp 3 none) = none) ∧
      (3 ≤ (spdmOf (sp 3 none) (0 : FnIx)).stage) :=
    ⟨by decide +kernel, by decide +kernel⟩

theorem witness_spdmAnswers_2_2_2_2_1_2_2_2_2 :
      (turnedAway (sp 3 none) = none) ∧
      (3 ≤ (spdmOf (sp 3 none) (0 : FnIx)).stage) :=
    ⟨by decide +kernel, by decide +kernel⟩

theorem witness_spdmAnswers_2_2_2_2_1_2_2_1 :
      (turnedAway (sp 3 none) = none) ∧
      (3 ≤ (spdmOf (sp 3 none) (0 : FnIx)).stage) ∧
      (0 = 0 ∨ 8 < 0 ∧ 0 ≠ 255) :=
    ⟨by decide +kernel, by decide +kernel, by decide +kernel⟩

theorem witness_spdmAnswers_2_2_2_2_1_2_2_2_1 :
      (turnedAway (sp 3 none) = none) ∧
      (3 ≤ (spdmOf (sp 3 none) (0 : FnIx)).stage) ∧
      (1 ≤ 7 ∧ 7 ≤ 8 ∧ [7] = [7] ∨ 7 = 255 ∧ [7] = [1, 2, 3, 4, 5, 6, 7, 8]) :=
    ⟨by decide +kernel, by decide +kernel, by decide +kernel⟩

theorem witness_spdmAnswers_2_1 :
      (turnedAway (sp 0 (some 3)) = none) :=
    by decide +kernel

theorem witness_spdmAnswers_2_2_2_2_2_2 :
      (turnedAway (sp 1 (some 3)) = none) ∧
      (1 ≤ (spdmOf (sp 1 (some 3)) (0 : FnIx)).stage) ∧
      ((spdmOf (sp 1 (some 3)) (0 : FnIx)).signed = some 3) :=
    ⟨by decide +kernel, by decide +kernel, by decide +kernel⟩

theorem witness_spdmAnswers_2_2_2_2_2_1 :
      (turnedAway (sp 1 none) = none) ∧
      (1 ≤ (spdmOf (sp 1 none) (0 : FnIx)).stage) ∧
      ((spdmOf (sp 1 none) (0 : FnIx)).signed = none) :=
    ⟨by decide +kernel, by decide +kernel, by decide +kernel⟩

theorem witness_spdmAnswers_1_1 :
      ((Instr.spdmGetVersion (0 : FnIx), 0) ∈ [(Instr.spdmGetVersion (0 : FnIx), 0), (Instr.spdmGetCapabilities (0 : FnIx), 1), (Instr.spdmNegotiateAlgorithms (0 : FnIx), 2), (Instr.spdmGetCertificate (0 : FnIx) 0 0 0, 3), (Instr.spdmChallenge (0 : FnIx) 0, 3), (Instr.spdmGetMeasurements (0 : FnIx) 1 true, 3), (Instr.getPqCertificate (0 : FnIx) (9 : BitVec 16) (7 : BitVec 16), 3), (Instr.getPqSignature (0 : FnIx), 1)]) ∧
      (turnedAway v10 = some SpdmError.unspecified) :=
    ⟨by decide +kernel, by decide +kernel⟩

theorem witness_spdmAnswers_1_2 :
      ((Instr.getPqSignature (0 : FnIx), 1) ∈ [(Instr.spdmGetVersion (0 : FnIx), 0), (Instr.spdmGetCapabilities (0 : FnIx), 1), (Instr.spdmNegotiateAlgorithms (0 : FnIx), 2), (Instr.spdmGetCertificate (0 : FnIx) 0 0 0, 3), (Instr.spdmChallenge (0 : FnIx) 0, 3), (Instr.spdmGetMeasurements (0 : FnIx) 1 true, 3), (Instr.getPqCertificate (0 : FnIx) (9 : BitVec 16) (7 : BitVec 16), 3), (Instr.getPqSignature (0 : FnIx), 1)]) ∧
      (turnedAway (withPower (sp 0 none) Power.reset) = none) ∧
      ((spdmOf (withPower (sp 0 none) Power.reset) (0 : FnIx)).stage < 1) :=
    ⟨by decide +kernel, by decide +kernel, by decide +kernel⟩

theorem witness_authorizations_2_2 :
      (2 < 8) ∧
      (fieldsHold (lcs 1 [] []) (auth 1 2 1 77 crt) 2) ∧
      (permitted (lcs 1 [] []).sec.otp 2) :=
    ⟨by decide +kernel, ⟨by decide +kernel, by decide +kernel, by decide +kernel, by decide +kernel, serialRead rfl, by decide +kernel, by decide +kernel, by decide +kernel, by decide +kernel⟩, by decide +kernel⟩

theorem witness_authorizations_1 :
      (2 < 8) ∧
      (¬fieldsHold (lcs 1 [] []) (auth 1 2 1 77 crt (1 : Byte) 5) 2) :=
    ⟨by decide +kernel, by decide +kernel⟩

theorem witness_authorizations_2_1 :
      (3 < 8) ∧
      (fieldsHold (lcs 1 [] []) (auth 1 3 1 77 []) 3) ∧
      (¬permitted (lcs 1 [] []).sec.otp 3) :=
    ⟨by decide +kernel, ⟨by decide +kernel, by decide +kernel, by decide +kernel, by decide +kernel, serialRead rfl, by decide +kernel, by decide +kernel, by decide +kernel, by decide +kernel⟩, by decide +kernel⟩

theorem witness_lifeCycle_1_2_2 :
      (Instr.lifecycleReturn (0 : FnIx) (3 : SlotIx) none ∈ if par (lcc 3 (auth 2 3 1 77 []).length) 0 0 3 = 2 then [Instr.lifecycleDeploy (0 : FnIx) (3 : SlotIx) none] else if par (lcc 3 (auth 2 3 1 77 []).length) 0 0 3 = 3 then [Instr.lifecycleReturn (0 : FnIx) (3 : SlotIx) none] else if par (lcc 3 (auth 2 3 1 77 []).length) 0 0 3 = 4 then [Instr.lifecycleRetire (0 : FnIx) (3 : SlotIx) none] else [Instr.lifecycleProvision (0 : FnIx) (3 : SlotIx) none]) ∧
      (Takes (ck2 2 3 (auth 2 3 1 77 []) none true) (0) (3) formLifecycle (lcc 3 (auth 2 3 1 77 []).length)) ∧
      ((ck2 2 3 (auth 2 3 1 77 []) none true).sec.otp.udsKill = false) :=
    ⟨by decide +kernel, ⟨by decide +kernel, by decide +kernel⟩, by decide +kernel⟩

theorem witness_lifeCycle_1_2_1 :
      (Instr.lifecycleReturn (0 : FnIx) (3 : SlotIx) none ∈ if par (lcc 3 ab.length) 0 0 3 = 2 then [Instr.lifecycleDeploy (0 : FnIx) (3 : SlotIx) none] else if par (lcc 3 ab.length) 0 0 3 = 3 then [Instr.lifecycleReturn (0 : FnIx) (3 : SlotIx) none] else if par (lcc 3 ab.length) 0 0 3 = 4 then [Instr.lifecycleRetire (0 : FnIx) (3 : SlotIx) none] else [Instr.lifecycleProvision (0 : FnIx) (3 : SlotIx) none]) ∧
      (Takes v11 (0) (3) formLifecycle (lcc 3 ab.length)) ∧
      (v11.sec.otp.udsKill = true) :=
    ⟨by decide +kernel, ⟨by decide +kernel, by decide +kernel⟩, by decide +kernel⟩

theorem witness_lifeCycle_1_1 :
      (Instr.lifecycleReturn (0 : FnIx) (3 : SlotIx) none ∈ if par lbad 0 0 3 = 2 then [Instr.lifecycleDeploy (0 : FnIx) (3 : SlotIx) none] else if par lbad 0 0 3 = 3 then [Instr.lifecycleReturn (0 : FnIx) (3 : SlotIx) none] else if par lbad 0 0 3 = 4 then [Instr.lifecycleRetire (0 : FnIx) (3 : SlotIx) none] else [Instr.lifecycleProvision (0 : FnIx) (3 : SlotIx) none]) ∧
      ((lcs 2 [lbad] []).toTake 0 3 160 = some lbad) ∧
      ((lcs 2 [lbad] []).verdict formLifecycle lbad = some (2, 4)) :=
    ⟨by decide +kernel, by decide +kernel, by decide +kernel⟩

theorem witness_lifeCycle_2_1_1 :
      (v12.sec.change = some chg) ∧
      (List.find? (fun (d : Cmd) => decide (d.func = chg.func ∧ d.slot = chg.slot ∧ d.opcode = 160 ∧ d.taken = true)) ({ v12 with now := v12.now.max (v12.now + 650000000), parts := Vector.map (fun (x : Part) => { x with log := { recs := [], next := 0 : Log } : Part }) v12.parts, hbm := { cells := [], keys := [], poison := [], bad := [], weak := [], retired := v12.hbm.retired, heat := v12.hbm.heat : Hbm }, locker := { cells := [], keys := [], poison := [], bad := [] : Locker }, fns := Vector.map (fun (x : Fn) => { x with slots := [], full := List.map (fun (e : Nat × Word) => (e.fst, (0 : Word))) x.full, held := [] : Fn }) v12.fns, faults := { v12.faults with modLog := { recs := [], next := v12.faults.modLog.next : Log } : Faults }, sec := { v12.sec with aliasGen := v12.sec.aliasGen + 1, change := none : Security } : State }.modEvent 32770 [Fl.h chg.old, Fl.h chg.new]).cmds = some { (lcc 3 9) with taken := true : Cmd }) :=
    ⟨by decide +kernel, by decide +kernel⟩

theorem witness_lifeCycle_2_1_2 :
      ((lw []).sec.change = some chg) ∧
      (∀ (d : Cmd), d ∈ ({ (lw []) with now := (lw []).now.max ((lw []).now + 650000000), parts := Vector.map (fun (x : Part) => { x with log := { recs := [], next := 0 : Log } : Part }) (lw []).parts, hbm := { cells := [], keys := [], poison := [], bad := [], weak := [], retired := (lw []).hbm.retired, heat := (lw []).hbm.heat : Hbm }, locker := { cells := [], keys := [], poison := [], bad := [] : Locker }, fns := Vector.map (fun (x : Fn) => { x with slots := [], full := List.map (fun (e : Nat × Word) => (e.fst, (0 : Word))) x.full, held := [] : Fn }) (lw []).fns, faults := { (lw []).faults with modLog := { recs := [], next := (lw []).faults.modLog.next : Log } : Faults }, sec := { (lw []).sec with aliasGen := (lw []).sec.aliasGen + 1, change := none : Security } : State }.modEvent 32770 [Fl.h chg.old, Fl.h chg.new]).cmds → ¬(d.func = chg.func ∧ d.slot = chg.slot ∧ d.opcode = 160 ∧ d.taken = true)) :=
    ⟨by decide +kernel, by decide +kernel⟩

theorem witness_lifeCycle_2_2 :
      ((lcs 2 [] []).sec.change = none) :=
    by decide +kernel

theorem witness_bootOrder_2_1_2_1 :
      (sec0.otp.accepts { raw := List.take 9 M0, mark := StoreMark.active : Stored }.raw = Except.error 7) :=
    exErr (by decide +kernel)

/-! The two clauses of `bootOrder` about a manifest that passes rest on the free values of the signature checks and of the digest: their witness holds
for every value of them under which the manifest passes. -/
def slotK : List Byte := Config.sha384 eK ++ Config.sha384 pK
def otpK : Otp := { otp0 with slots := otp0.slots.set 1 slotK }
theorem passes {o : Otp} {raw keys : List Byte} {m : Manifest} {x : Seal} (hr : readManifest raw = some m) (hx : sealAt raw (manifestSeal raw) = x)
    (hk : nth o.slots.toList m.slot [] = keys) (h0 : o.revoked.getLsbD m.slot = false) (ha : keys.all (· == 0) = false)
    (h1 : digest x.edKey = slice keys 0 48) (h2 : digest x.pqKey = slice keys 48 48) (h3 : Config.ed25519Verify x.edKey (manifestDigest raw) x.edSig = true)
    (h4 : Config.mldsaVerify x.pqKey (manifestDigest raw) [] x.pqSig = true) (hs : ¬ m.svn < o.svn) : o.accepts raw = .ok m := by
  have hc : o.check m.slot x (manifestDigest raw) = none := by
    unfold Otp.check
    simp only [hk, h0, ha, h1, h2, h3, h4, ne_eq, not_true, or_self, Bool.not_true, Bool.false_eq_true, if_false]
  unfold Otp.accepts
  rw [hr]
  simp only [hx, hc, if_neg hs]
theorem soundBy {x : Security} {m : Manifest} (h : ∀ r ∈ m.chunks, ∃ bs, x.chunk r.dg = some bs ∧ bs.length = r.len ∧ Config.sha384 bs = r.dg) :
    x.sound m = true := by
  unfold Security.sound
  rw [List.all_eq_true]
  intro r hr
  obtain ⟨bs, a, b, c⟩ := h r hr
  have l : (Config.sha384 bs).length = 48 := by simp [Config.sha384]
  have f : Machine.fit 48 (Config.sha384 bs) = r.dg := by rw [Machine.fit, List.take_left' l, c]
  rw [a]
  simp only [b, digest, f, beq_self_eq_true, Bool.and_self]
theorem passesM0 (ha : slotK.all (· == 0) = false) (h3 : Config.ed25519Verify eK (manifestDigest M0) (padTo 64 [1]) = true)
    (h4 : Config.mldsaVerify pK (manifestDigest M0) [] (padTo 3309 [1]) = true) : otpK.accepts M0 = .ok M0m := by
  have l1 : (Config.sha384 eK).length = 48 := by simp [Config.sha384]
  have l2 : (Config.sha384 pK).length = 48 := by simp [Config.sha384]
  refine passes (x := ⟨eK, pK, padTo 64 [1], padTo 3309 [1]⟩) (keys := slotK) (by decide +kernel) (by decide +kernel) ?_ (by decide +kernel) ha ?_ ?_ h3 h4 (by decide +kernel)
  · have e : M0m.slot = 1 := by decide +kernel
    rw [e]
    rfl
  · rw [digest, Machine.fit, List.take_left' l1, slice, List.drop_zero, slotK, List.take_left' l1]
  · rw [digest, Machine.fit, List.take_left' l2, slice, slotK, List.drop_left' l1, List.take_of_length_le (Nat.le_of_eq l2)]
theorem witness_bootOrder_2_1_2_2_1 (ha : slotK.all (· == 0) = false) (h3 : Config.ed25519Verify eK (manifestDigest M0) (padTo 64 [1]) = true)
    (h4 : Config.mldsaVerify pK (manifestDigest M0) [] (padTo 3309 [1]) = true) :
    ({ sec0 with otp := otpK, chunks := [] } : Security).otp.accepts M0 = .ok M0m ∧ ({ sec0 with otp := otpK, chunks := [] } : Security).sound M0m = false :=
  ⟨passesM0 ha h3 h4, by decide +kernel⟩
def soundStore : List (List Byte × List Byte) := k5.map fun k => (rnd (k.1 + 60) 48, chunkB k.1)
theorem witness_bootOrder_2_1_2_2_2 (ha : slotK.all (· == 0) = false) (h3 : Config.ed25519Verify eK (manifestDigest M0) (padTo 64 [1]) = true)
    (h4 : Config.mldsaVerify pK (manifestDigest M0) [] (padTo 3309 [1]) = true) (hd : ∀ k ∈ k5, Config.sha384 (chunkB k.1) = rnd (k.1 + 60) 48) :
    ({ sec0 with otp := otpK, chunks := soundStore } : Security).otp.accepts M0 = .ok M0m ∧ ({ sec0 with otp := otpK, chunks := soundStore } : Security).sound M0m = true := by
  refine ⟨passesM0 ha h3 h4, ?_⟩
  refine soundBy ?_
  have e : M0m.chunks = k5.map fun k => (⟨rnd (k.1 + 60) 48, (chunkB k.1).length, k.2⟩ : ChunkRef) := by decide +kernel
  rw [e]
  intro r hr
  obtain ⟨k, hk, rfl⟩ := List.mem_map.mp hr
  have c : ∀ k ∈ k5, ({ sec0 with otp := otpK, chunks := soundStore } : Security).chunk (rnd (k.1 + 60) 48) = some (chunkB k.1) := by decide +kernel
  exact ⟨chunkB k.1, c k hk, rfl, hd k hk⟩

end T19

namespace T21

def cmdW (op : Nat) (plen : Nat) (ps : List Nat) (g : Cmd → Cmd := id) (f : Nat := 0) : Cmd := g ⟨f, 3, op, false, false, false, plen, 55, 0x1234, ((ps.flatMap (leBytes 8)) ++ List.replicate 240 0).take 240, 40, false, false, false, false, 0⟩

def G (g : State → State) (cs : List Cmd) (f : Nat := 0) : State := g (let s := { demo with now := 5000, cmds := cs, up := { demo.up with ready := 0xFFFFFFFFFFFFFFFF#_ } }; s.setFn f { Fn.reset with neg := true, uver := 0x32, rr := ⟨.of 0x10000, .of 10, .of true, 5, 1023, true⟩, ev := ⟨.of 0x20000, .of 6, .of true, 5, 62, true⟩ })

def bdR : BellDesc := ⟨true, true, 1, true, true, 0, 8, 3⟩

def sample1 : Sample := ⟨7, 0, 1, 1, 300, 301, 0, .live⟩

def rich (st : PartState) (s : State) : State := s.modPart 0 fun x => { x with state := st, keyWork := 7, keyRet := 8, ports := 8, lkBase := 0, lkSize := 2^26, slots := [⟨2, 3, .retiring⟩, ⟨2, 4, .active⟩], bells := [(5, { Bell.idle with epoch := 6, desc := some bdR, arr := [⟨.tile 0, 1, 0, false, 0, 0, none⟩], timer := some 4 })], timetable := some [], actions := 3, asked := some (0, 9), keep := true, dbgAddr := 7, veto := true, step := 44, log := ⟨[], 5⟩, flows := [(3, ⟨3, 5, 5, []⟩)], saved := if st = .preempted then some ⟨[(0, demoTile), (1, { demoTile with core := { demoTile.core with pc := 99 } })], false⟩ else none, heldBell := 5 }

def base (st : PartState) (cs : List Cmd) : State :=
  let s := G (rich st) cs
  let s := s.setPort 3 { Port.reset with state := .active, owner := some 0, cells := [.timeReq 1 2, .bell ⟨true, 1, false, 1, false, 0, 1, 1, 1⟩] , rxCtx := [] }
  let s := s.setTile 1 { demoTile with core := { demoTile.core with wait := some ⟨.bell 5 6 7, 0⟩ } }
  { s with faults := { s.faults with samples := [sample1, { sample1 with id := 8, part := 3, shadow := 302, judge := 303 }] }, net := [⟨.tile 0, .tile 1, 0, [], .count 1 2⟩, ⟨.tile 0, .tile 1, 2, [], .count 1 2⟩], power := { s.power with notices := s.power.notices } }

def E0 := base .running []

def B0 : State := { E0 with faults := { E0.faults with lifeBase := 3000000 } }

def gW (cls u : Nat) (g : Grade) (s : State) : State := s.setGrade cls u g

def g3 : State := gW 3 9 { Grade.fresh with events := [2999000, 2999500], addrs := [7], contained := 2 } B0

def v1 := (gW 1 5 { Grade.fresh with state := 1 } B0)

def v2 := (gW 1 2 { Grade.fresh with state := 1 } B0)

def v3 := (B0.setPort 3 { (B0.port 3) with retired := 4, toRetire := 1 })

def eD : State := (base .ending []).modPart 0 fun x => { x with ending := some .classD }

def dd (st : PartState) : State := let s := (base st []).modPart 0 (fun x => { x with refused := true }) |>.modPart 2 (fun x => { x with state := .running }); { s with faults := { s.faults with derrs := [⟨0, 3, 9, 7, 4000⟩, ⟨2, 3, 9, 7, 4001⟩, ⟨0, 1, 9, 0, 4002⟩] } }

def d0 : DErr := ⟨0, 3, 9, 7, 4000⟩

def d2 : DErr := ⟨0, 1, 9, 0, 4002⟩

def nb : BellDesc := { bdR with root := false, parent := 3, children := 0, mask := 0, recess := false }

def sm (st : SampleState) : State := let s := B0.modPart 0 (fun x => withBell x 63 { Bell.idle with desc := some nb }); { s with faults := { s.faults with samples := [{ sample1 with id := 8, part := 3, shadow := 302, judge := 303 }, { sample1 with state := st }] } }

def ss (st : SampleState) : Sample := { sample1 with state := st }

def pr8 := [{ sample1 with id := 8, part := 3, shadow := 302, judge := 303 }]

def en := SampleState.ended 5 9

def jd := SampleState.judging 5 9

def cm1 := tkn0 (cmdW 0x22 32 [0] fun c => { c with slot := 9, seq := 77 })
where tkn0 (c : Cmd) : Cmd := { c with taken := true }

def cm2 := { cmdW 0x41 0 [] with slot := 10, seq := 78, taken := true }

def cm3 := { cmdW 0x41 0 [] with slot := 11, seq := 79, taken := false }

def ck0 (g : Grade) (c1 : CtlCore) (c0 : CtlCore := ⟨none, false⟩) : State := let s := base .running [cm1, cm2, cm3]; ({ s with faults := { s.faults with cores := (s.faults.cores.set 1 c1).set 0 c0 } }).setGrade 5 0 g |>.setGrade 5 4 g |>.setGrade 5 1 g

def hours1 : State := { B0 with now := 7200000000000, faults := { B0.faults with hourAt := 0 } }

theorem witness_eventsGraded_1 :
      (3 ≤ (afterEvent (g3.grade 3 9) g3.life 7 true).events.length ∨ 7 ≠ 0 ∧ 7 ∈ (g3.grade 3 9).addrs) :=
    by decide +kernel

theorem witness_eventsGraded_2 :
      (¬(3 ≤ (afterEvent (B0.grade 3 9) B0.life 7 true).events.length ∨ 7 ≠ 0 ∧ 7 ∈ (B0.grade 3 9).addrs)) :=
    by decide +kernel

theorem witness_unitsCondemned_1 :
      ((v1.grade 1 5).state ∈ [1, 2, 4]) :=
    by decide +kernel

theorem witness_unitsCondemned_2_1 :
      (¬(B0.grade 1 1).state ∈ [1, 2, 4]) ∧
      ((declared B0 1 1).seatedAt 1 = some 1) ∧
      (((declared B0 1 1).seat 1).valid = true) :=
    ⟨by decide +kernel, by decide +kernel, by decide +kernel⟩

theorem witness_unitsCondemned_2_2_1 :
      (¬(B0.grade 1 209).state ∈ [1, 2, 4]) ∧
      ((declared B0 1 209).seatedAt 209 = none) :=
    ⟨by decide +kernel, by decide +kernel⟩

theorem witness_unitsCondemned_2_2_2_1 :
      (¬(v2.grade 2 37).state ∈ [1, 2, 4]) ∧
      (((declared v2 2 37).grade 1 (37 / 16 : Nat)).state ∈ [1, 2, 4]) :=
    ⟨by decide +kernel, by decide +kernel⟩

theorem witness_unitsCondemned_2_2_2_2_1 :
      (¬(B0.grade 2 17).state ∈ [1, 2, 4]) ∧
      (¬((declared B0 2 17).grade 1 (17 / 16 : Nat)).state ∈ [1, 2, 4]) ∧
      ((declared (declared B0 2 17) 1 (17 / 16 : Nat)).seatedAt (17 / 16 : Nat) = some 1) ∧
      (((declared (declared B0 2 17) 1 (17 / 16 : Nat)).seat 1).valid = true) :=
    ⟨by decide +kernel, by decide +kernel, by decide +kernel, by decide +kernel⟩

theorem witness_unitsCondemned_2_2_2_2_2_1 :
      (¬(B0.grade 3 68).state ∈ [1, 2, 4]) ∧
      ((declared B0 3 68).pcOwner 68 = some (0, 1)) ∧
      (0 < 8) :=
    ⟨by decide +kernel, by decide +kernel, by decide +kernel⟩

theorem witness_unitsCondemned_2_2_2_2_2_2_1 :
      (¬(B0.grade 3 99).state ∈ [1, 2, 4]) ∧
      ((declared B0 3 99).pcOwner 99 = none) :=
    ⟨by decide +kernel, by decide +kernel⟩

theorem witness_unitsCondemned_2_2_2_2_2_2_2_1 :
      (¬(v3.grade 4 13).state ∈ [1, 2, 4]) :=
    by decide +kernel

theorem witness_unitsCondemned_2_2_2_2_2_2_2_2 :
      (5 ≤ 5) ∧
      (¬(B0.grade 5 3).state ∈ [1, 2, 4]) :=
    ⟨by decide +kernel, by decide +kernel⟩

theorem witness_classDDetected_2_1 :
      ((eD.part 0).state = PartState.ending ∧ (eD.part 0).ending = some EndCause.classD) :=
    by decide +kernel

theorem witness_classDDetected_2_2_1 :
      (¬(((base PartState.none []).part 0).state = PartState.ending ∧ ((base PartState.none []).part 0).ending = some EndCause.classD)) ∧
      (((base PartState.none []).part 0).state ∈ [PartState.none, PartState.held, PartState.ending]) :=
    ⟨by decide +kernel, by decide +kernel⟩

theorem witness_classDDetected_2_2_2 :
      (¬((base PartState.empty []).part 0).state ∈ [PartState.none, PartState.held, PartState.ending]) :=
    by decide +kernel

theorem witness_classDResets_1 :
      (List.filter (fun (d : DErr) => decide (d.part = 1)) (dd PartState.running).faults.derrs = []) :=
    by decide +kernel

theorem witness_classDResets_2_1 :
      (List.filter (fun (d : DErr) => decide (d.part = 0)) (dd PartState.empty).faults.derrs = [d0, d2]) ∧
      ((0 : PartIx) = (0 : PartIx)) :=
    ⟨by decide +kernel, by decide +kernel⟩

theorem witness_classDResets_2_2_1 :
      (List.filter (fun (d : DErr) => decide (d.part = 0)) (dd PartState.empty).faults.derrs = [d0, d2]) ∧
      ((2 : PartIx) ≠ (0 : PartIx)) ∧
      ((0 : PartIx) = (0 : PartIx)) :=
    ⟨by decide +kernel, by decide +kernel, by decide +kernel⟩

theorem witness_classDResets_2_2_2_1 :
      (List.filter (fun (d : DErr) => decide (d.part = 0)) (dd PartState.running).faults.derrs = [d0, d2]) ∧
      ((2 : PartIx) ≠ (0 : PartIx)) ∧
      ((2 : PartIx) = (2 : PartIx)) :=
    ⟨by decide +kernel, by decide +kernel, by decide +kernel⟩

theorem witness_classDResets_2_2_2_2 :
      (List.filter (fun (d : DErr) => decide (d.part = 0)) (dd PartState.running).faults.derrs = [d0, d2]) ∧
      ((2 : PartIx) ≠ (0 : PartIx)) ∧
      ((3 : PartIx) ≠ (0 : PartIx)) ∧
      ((3 : PartIx) ≠ (2 : PartIx)) :=
    ⟨by decide +kernel, by decide +kernel, by decide +kernel, by decide +kernel⟩

theorem witness_proctorCompares_1 :
      ((sm en).faults.samples = pr8 ++ [ss en]) ∧
      ((ss en).id = 7) ∧
      (∀ (z : Sample), z ∈ pr8 ++ [] → z.id ≠ 7) ∧
      ((ss en).state = SampleState.ended (5 : Word) (9 : Word)) ∧
      (true = true) :=
    ⟨by decide +kernel, by decide +kernel, by decide +kernel, by decide +kernel, by decide +kernel⟩

theorem witness_proctorCompares_2_1 :
      ((sm en).faults.samples = pr8 ++ [ss en]) ∧
      ((ss en).id = 7) ∧
      (∀ (z : Sample), z ∈ pr8 ++ [] → z.id ≠ 7) ∧
      ((ss en).state = SampleState.ended (5 : Word) (9 : Word)) ∧
      (false = false) ∧
      ((5 : Word) = (5 : Word)) :=
    ⟨by decide +kernel, by decide +kernel, by decide +kernel, by decide +kernel, by decide +kernel, by decide +kernel⟩

theorem witness_proctorCompares_2_2 :
      ((sm en).faults.samples = pr8 ++ [ss en]) ∧
      ((ss en).id = 7) ∧
      (∀ (z : Sample), z ∈ pr8 ++ [] → z.id ≠ 7) ∧
      ((ss en).state = SampleState.ended (5 : Word) (9 : Word)) ∧
      (false = false) ∧
      ((6 : Word) ≠ (5 : Word)) :=
    ⟨by decide +kernel, by decide +kernel, by decide +kernel, by decide +kernel, by decide +kernel, by decide +kernel⟩

theorem witness_proctorJudges_1 :
      ((sm jd).faults.samples = pr8 ++ [ss jd]) ∧
      ((ss jd).id = 7) ∧
      (∀ (z : Sample), z ∈ pr8 ++ [] → z.id ≠ 7) ∧
      ((ss jd).state = SampleState.judging (5 : Word) (9 : Word)) ∧
      (false = false) ∧
      ((5 : Word) = (5 : Word)) :=
    ⟨by decide +kernel, by decide +kernel, by decide +kernel, by decide +kernel, by decide +kernel, by decide +kernel⟩

theorem witness_proctorJudges_2_1 :
      ((sm jd).faults.samples = pr8 ++ [ss jd]) ∧
      ((ss jd).id = 7) ∧
      (∀ (z : Sample), z ∈ pr8 ++ [] → z.id ≠ 7) ∧
      ((ss jd).state = SampleState.judging (5 : Word) (9 : Word)) ∧
      (false = false) ∧
      ((9 : Word) ≠ (5 : Word)) ∧
      ((9 : Word) = (9 : Word)) :=
    ⟨by decide +kernel, by decide +kernel, by decide +kernel, by decide +kernel, by decide +kernel, by decide +kernel, by decide +kernel⟩

theorem witness_proctorJudges_2_2_1 :
      ((sm jd).faults.samples = pr8 ++ [ss jd]) ∧
      ((ss jd).id = 7) ∧
      (∀ (z : Sample), z ∈ pr8 ++ [] → z.id ≠ 7) ∧
      ((ss jd).state = SampleState.judging (5 : Word) (9 : Word)) ∧
      (false = false) ∧
      ((6 : Word) ≠ (5 : Word)) ∧
      ((6 : Word) ≠ (9 : Word)) :=
    ⟨by decide +kernel, by decide +kernel, by decide +kernel, by decide +kernel, by decide +kernel, by decide +kernel, by decide +kernel⟩

theorem witness_proctorJudges_2_2_2 :
      ((sm jd).faults.samples = pr8 ++ [ss jd]) ∧
      ((ss jd).id = 7) ∧
      (∀ (z : Sample), z ∈ pr8 ++ [] → z.id ≠ 7) ∧
      ((ss jd).state = SampleState.judging (5 : Word) (9 : Word)) ∧
      (true = true) :=
    ⟨by decide +kernel, by decide +kernel, by decide +kernel, by decide +kernel, by decide +kernel⟩

theorem witness_gradebookFlushed_1 :
      (∀ (k : Fin 8), { B0 with faults := { B0.faults with hourAt := B0.life / 3600 : Faults } : State }.hbm.heat[k].mult ∈ [1, 2, 4]) ∧
      ((timeAt { B0 with faults := { B0.faults with hourAt := B0.life / 3600 : Faults } : State } (({ B0 with faults := { B0.faults with hourAt := B0.life / 3600 : Faults } : State }.now / 60000000000 + 1) * 60000000000)).life / 3600 - { B0 with faults := { B0.faults with hourAt := B0.life / 3600 : Faults } : State }.faults.hourAt = 0) :=
    ⟨by decide +kernel, by decide +kernel⟩

theorem witness_gradebookFlushed_2 :
      (∀ (k : Fin 8), hours1.hbm.heat[k].mult ∈ [1, 2, 4]) ∧
      ((timeAt hours1 ((hours1.now / 60000000000 + 1) * 60000000000)).life / 3600 - hours1.faults.hourAt ≠ 0) :=
    ⟨by decide +kernel, by decide +kernel⟩

theorem witness_coresRestart_1 :
      ((ck0 Grade.fresh { away := none, retired := false : CtlCore }).faults.cores[(1 : CoreIx)].away = none ∧ (ck0 Grade.fresh { away := none, retired := false : CtlCore }).faults.cores[(1 : CoreIx)].retired = false) :=
    by decide +kernel

theorem witness_coresRestart_2_1 :
      (¬((ck0 Grade.fresh { away := some (4, 2), retired := false : CtlCore }).faults.cores[(1 : CoreIx)].away = none ∧ (ck0 Grade.fresh { away := some (4, 2), retired := false : CtlCore }).faults.cores[(1 : CoreIx)].retired = false)) :=
    by decide +kernel

theorem witness_coresRestart_2_2_1 :
      ((ck0 Grade.fresh { away := some (9, 1), retired := false : CtlCore }).faults.cores[(1 : CoreIx)].away = some (9, 1)) :=
    by decide +kernel

theorem witness_coresRestart_2_2_2 :
      ((ck0 Grade.fresh { away := none, retired := false : CtlCore }).faults.cores[(1 : CoreIx)].away = none) :=
    by decide +kernel

end T21

namespace T22

def G (g : State → State) (cs : List Cmd) (f : Nat := 0) : State := g (let s := { demo with now := 5000, cmds := cs, up := { demo.up with ready := 0xFFFFFFFFFFFFFFFF#_ } }; s.setFn f { Fn.reset with neg := true, uver := 0x32, rr := ⟨.of 0x10000, .of 10, .of true, 5, 1023, true⟩, ev := ⟨.of 0x20000, .of 6, .of true, 5, 62, true⟩ })

def bdR : BellDesc := ⟨true, true, 1, true, true, 0, 8, 3⟩

def sample1 : Sample := ⟨7, 0, 1, 1, 300, 301, 0, .live⟩

def rich (st : PartState) (s : State) : State := s.modPart 0 fun x => { x with state := st, keyWork := 7, keyRet := 8, ports := 8, lkBase := 0, lkSize := 2^26, slots := [⟨2, 3, .retiring⟩, ⟨2, 4, .active⟩], bells := [(5, { Bell.idle with epoch := 6, desc := some bdR, arr := [⟨.tile 0, 1, 0, false, 0, 0, none⟩], timer := some 4 })], timetable := some [], actions := 3, asked := some (0, 9), keep := true, dbgAddr := 7, veto := true, step := 44, log := ⟨[], 5⟩, flows := [(3, ⟨3, 5, 5, []⟩)], saved := if st = .preempted then some ⟨[(0, demoTile), (1, { demoTile with core := { demoTile.core with pc := 99 } })], false⟩ else none, heldBell := 5 }

def base (st : PartState) (cs : List Cmd) : State :=
  let s := G (rich st) cs
  let s := s.setPort 3 { Port.reset with state := .active, owner := some 0, cells := [.timeReq 1 2, .bell ⟨true, 1, false, 1, false, 0, 1, 1, 1⟩] , rxCtx := [] }
  let s := s.setTile 1 { demoTile with core := { demoTile.core with wait := some ⟨.bell 5 6 7, 0⟩ } }
  { s with faults := { s.faults with samples := [sample1, { sample1 with id := 8, part := 3, shadow := 302, judge := 303 }] }, net := [⟨.tile 0, .tile 1, 0, [], .count 1 2⟩, ⟨.tile 0, .tile 1, 2, [], .count 1 2⟩], power := { s.power with notices := s.power.notices } }

def U (g : Bringup → Bringup) : State := let s := base .running []; let s1 := { s with up := g { Bringup.reset with rails := 9, loader := true, ready := 0b11110#_, blocks := 0 }, now := 70 }; { s1 with sec := { s1.sec with bootFails := [(3, 50), (5, 45)] }, fns := s1.fns.map fun x => { x with msix := x.msix.set 2 { Vector_.reset with masked := true } } }

def v1 := (U fun u => { u with ready := 0 })

def v2 := (U fun u => { u with ready := 0, blocks := 9, failed := 0x4000 })

def v3 := (U fun u => { u with rails := 0 })

def uPerst : State := U fun u => { u with perst := true }

def TP (b : Bool) : State := U fun u => { u with testMode := b, cells := [true, false], wir := u.wir.set 2 [true], wdr := u.wdr.set 2 [false] }

def l300 : Nat := ((U id).seatedAt 300).getD 0

def noSubs : State := (subsOfDie (dieOf (ownSite l300))).foldl (fun s x => s.setGrade 1 x { Grade.fresh with state := 2 }) (U id)

theorem witness_functionsReady_1 :
      (¬(isReady (U id).up 3 = false ∧ isFailed (U id).up 3 = false ∧ mayStart (U id).up 3)) :=
    by decide +kernel

theorem witness_functionsReady_2_1 :
      (isReady v1.up 0 = false ∧ isFailed v1.up 0 = false ∧ mayStart v1.up 0) ∧
      (0 = 0) :=
    ⟨by decide +kernel, by decide +kernel⟩

theorem witness_functionsReady_2_2_1 :
      (isReady v1.up 1 = false ∧ isFailed v1.up 1 = false ∧ mayStart v1.up 1) ∧
      (1 ≤ 1 ∧ 1 ≤ 4 ∨ 1 = 29) :=
    ⟨by decide +kernel, by decide +kernel⟩

theorem witness_functionsReady_2_2_2_1 :
      (isReady (U id).up 5 = false ∧ isFailed (U id).up 5 = false ∧ mayStart (U id).up 5) ∧
      (5 ≤ 5) ∧
      (5 ≤ 12) :=
    ⟨by decide +kernel, by decide +kernel, by decide +kernel⟩

theorem witness_functionsReady_2_2_2_2_1 :
      (isReady (U id).up 13 = false ∧ isFailed (U id).up 13 = false ∧ mayStart (U id).up 13) ∧
      (13 ≤ 13) ∧
      (13 ≤ 28) :=
    ⟨by decide +kernel, by decide +kernel, by decide +kernel⟩

theorem witness_functionsReady_2_2_2_2_2 :
      (isReady (U id).up 30 = false ∧ isFailed (U id).up 30 = false ∧ mayStart (U id).up 30) ∧
      (30 ≤ 30) :=
    ⟨by decide +kernel, by decide +kernel⟩

theorem witness_sitesLeave_1 :
      ((U id).seatedAt 209 = none) :=
    by decide +kernel

theorem witness_sitesLeave_2_1 :
      ((U id).seatedAt 1 = some 1) ∧
      (((U id).seat 1).valid = true) :=
    ⟨by decide +kernel, by decide +kernel⟩

theorem witness_sitesLeave_2_2_1 :
      ((U id).seatedAt 300 = some (((U id).seatedAt 300).getD 0)) ∧
      (((U id).seat (((U id).seatedAt 300).getD 0)).valid = false) ∧
      ((U id).substitute none (((U id).seatedAt 300).getD 0) = some (((U id).substitute none (((U id).seatedAt 300).getD 0)).getD 0)) :=
    ⟨by decide +kernel, by decide +kernel, by decide +kernel⟩

theorem witness_sitesLeave_2_2_2 :
      (noSubs.seatedAt 300 = some l300) ∧
      ((noSubs.seat l300).valid = false) ∧
      (noSubs.substitute none l300 = none) :=
    ⟨by decide +kernel, by decide +kernel, by decide +kernel⟩

theorem witness_functionsFail_1 :
      (isReady (U id).up 3 = true ∨ isFailed (U id).up 3 = true ∨ (U id).up.testMode = true) :=
    by decide +kernel

theorem witness_functionsFail_2_1 :
      (¬(isReady v1.up 0 = true ∨ isFailed v1.up 0 = true ∨ v1.up.testMode = true)) ∧
      (0 = 0) :=
    ⟨by decide +kernel, by decide +kernel⟩

theorem witness_functionsFail_2_2_1 :
      (¬(isReady v2.up 1 = true ∨ isFailed v2.up 1 = true ∨ v2.up.testMode = true)) ∧
      (1 ≤ 1) ∧
      (1 ≤ 4) :=
    ⟨by decide +kernel, by decide +kernel, by decide +kernel⟩

theorem witness_functionsFail_2_2_2 :
      (¬(isReady (U id).up 5 = true ∨ isFailed (U id).up 5 = true ∨ (U id).up.testMode = true)) ∧
      (5 ≤ 5) :=
    ⟨by decide +kernel, by decide +kernel⟩

theorem witness_hostPortStarts_1 :
      ((U id).up.rails ≠ 0) :=
    by decide +kernel

theorem witness_hostPortStarts_2_1 :
      (v3.up.rails = 0) :=
    by decide +kernel

theorem witness_hostPortStarts_2_2_1 :
      (uPerst.up.perst = true) ∧
      (exec Instr.hotReset uPerst = Host.Outcome.next (outOf Instr.hotReset uPerst)) :=
    ⟨by decide +kernel, rfl⟩

theorem witness_hostPortStarts_2_2_2 :
      ((U id).up.perst = false) :=
    by decide +kernel

theorem witness_testPort_2_2_2_2_1 :
      ((TP true).up.testMode = true) :=
    by decide +kernel

theorem witness_testPort_2_2_2_2_2 :
      ((TP false).up.testMode = false) ∧
      (Instr.clamp ∈ [Instr.extest [true] [false, true], Instr.extestPulse [true] [false, true], Instr.extestTrain [true] [false, true], Instr.clamp, Instr.highz, Instr.hbmWir (2 : StackIx) [false, true], Instr.hbmWdr (2 : StackIx) [false, true], Instr.laneTest (7 : BitVec 64) [true]]) :=
    ⟨by decide +kernel, by decide +kernel⟩

end T22

end Sys2Proof.Tests
end

section
/-! PROOFS. Power control: the cap loops, the estimator, cap requests, and what Prigar answers (`Machine/Power.lean`; O50). -/

namespace Sys2Proof.Proofs

open Sys2Proof Sys2Proof.Machine Sys2Proof.Claims Sys2Proof.Laws

theorem ite_of_iff {α : Sort _} {b c : Prop} [Decidable b] [Decidable c] {x y u v : α} (h : b ↔ c) (hx : x = u) (hy : y = v) :
    (if b then x else y) = if c then u else v := ite_congr (propext h) (fun _ => hx) (fun _ => hy)

theorem toList_eq_map_finRange {α : Type} {n : Nat} (v : Vector α n) : v.toList = (List.finRange n).map (fun i => v[i]) :=
  List.ext_getElem (by simp) (by simp)

theorem toList_of_four {α : Type} (v : Vector α 4) : v.toList = [v[0], v[1], v[2], v[3]] := toList_eq_map_finRange v

/-! ### The cap loops (R469 to R471) -/

theorem slow_eq_slowest (w : Power) : w.slow = slowest w := by
  have h (k a b c d : Nat) : Nat.max (Nat.max (Nat.max (Nat.max k a) b) c) d = Nat.max k (Nat.max (Nat.max a b) (Nat.max c d)) := by
    show max (max (max (max k a) b) c) d = max k (max (max a b) (max c d))
    omega
  simp only [Power.slow, slowest, toList_of_four, List.foldl_cons, List.foldl_nil, h]

theorem watch_eq_watched (w : Power) (now : Nat) : w.watch now = watched w now := by
  unfold Power.watch watched
  rw [slow_eq_slowest]
  have hr : (!w.throttled || 31 - slowest w == w.rate) = decide (w.throttled = false ∨ 31 - slowest w = w.rate) := by
    rw [Bool.eq_iff_iff]
    simp only [Bool.or_eq_true, Bool.not_eq_true', beq_iff_eq, decide_eq_true_eq]
  simp only [hr, decide_eq_true_eq]
  congr 1
  · cases w.slowSince <;> rfl
  · cases w.newRate with
    | none => rfl
    | some p => simp only [apply_ite some]

theorem limit_eq (w : Power) : w.limit = w.inForce * 1000 - w.inForce * 1000 * (if w.fit then 2 else 7) / 100 := by
  unfold Power.limit
  split <;> omega

theorem climb_eq (k aim : Nat) :
    k + Nat.max 1 (Nat.min 4 (aim - k)) = if aim ≤ k + 1 then k + 1 else if k + 4 ≤ aim then k + 4 else aim := by
  show k + max 1 (min 4 (aim - k)) = _
  split
  · omega
  · split <;> omega

theorem fastStep_eq (w : Power) (est aim : Nat) :
    let limit := w.inForce * 1000 - w.inForce * 1000 * (if w.fit then 2 else 7) / 100
    (if w.limit < est then Nat.min 30 (w.capK + Nat.max 1 (Nat.min 4 (aim - w.capK)))
      else if w.mw ≤ 1000 * w.inForce ∧ aim < w.capK then w.capK - 1 else w.capK) =
    if limit < est then Nat.min 30 (if aim ≤ w.capK + 1 then w.capK + 1 else if w.capK + 4 ≤ aim then w.capK + 4 else aim)
    else if ¬ limit < est ∧ w.mw ≤ 1000 * w.inForce ∧ aim < w.capK then w.capK - 1 else w.capK := by
  intro limit
  rw [limit_eq, climb_eq]
  by_cases hu : limit < est
  · exact (if_pos hu).trans (if_pos hu).symm
  · exact (if_neg hu).trans ((if_neg hu).trans (ite_of_iff (and_iff_right hu) rfl rfl)).symm

theorem measuredPower_eq (w : Power) (mw now : Nat) :
    let above : Prop := 1000 * w.inForce < mw
    let unmet : Prop := above ∧ w.capK = 30
    let aboveB := decide (1000 * w.inForce < mw)
    let unmetB := aboveB && w.capK == 30
    ({ w with
      mw := mw, energy := w.energy + mw, etime := now, capK := if aboveB then Nat.min 30 (w.capK + 1) else w.capK
      unmetSince := if unmetB then some (w.unmetSince.getD now) else none, unmetOut := w.unmetOut && unmetB } : Power) =
    { w with
      mw := mw, energy := w.energy + mw, etime := now, capK := if above then Nat.min 30 (w.capK + 1) else w.capK
      unmetSince := if unmet then (match w.unmetSince with | some t => some t | none => some now) else none
      unmetOut := if unmet then w.unmetOut else false } := by
  intro above unmet aboveB unmetB
  have hu : unmetB = decide unmet := by
    rw [Bool.eq_iff_iff]
    simp only [unmetB, aboveB, unmet, above, Bool.and_eq_true, decide_eq_true_eq, beq_iff_eq]
  rw [hu]
  congr 1
  · exact ite_of_iff decide_eq_true_iff rfl rfl
  · refine ite_of_iff decide_eq_true_iff ?_ rfl
    cases w.unmetSince <;> rfl
  · by_cases h : unmet <;> simp [h]

theorem capUnmet_of_unmet (s : State) (t : Nat) (ht : s.power.unmetSince = some t) (ho : s.power.unmetOut = false) :
    s.capUnmet = ((s.until (t + 10000000)).modPower (fun w => { w with unmetOut := true })).modEvent 0x3004 [.h s.power.inForce, .h s.power.mw] := by
  simp only [State.capUnmet, ht, ho, Bool.false_eq_true, if_false]

theorem capUnmet_of_none_or_out (s : State) (h : s.power.unmetSince = none ∨ s.power.unmetOut = true) : s.capUnmet = s := by
  unfold State.capUnmet
  split
  · next t ht => exact if_pos (h.resolve_left (by simp [ht]))
  · rfl

theorem capLoops_holds : capLoops := by
  refine ⟨fun s est aim => ?_, fun s mw => ?_, fun s => ⟨fun t ht ho => ?_, fun h => ?_⟩⟩
  · intro w s1 limit up down k
    rw [← watch_eq_watched]
    exact congrArg (fun k => Host.Outcome.next (withPower s1 (Power.watch { w with capK := k } s1.now))) (fastStep_eq w est aim)
  · intro w s1 above unmet since v
    rw [← watch_eq_watched]
    exact congrArg (fun w : Power => Host.Outcome.next (withPower s1 (w.watch s1.now))) (measuredPower_eq w mw s1.now)
  · exact congrArg Host.Outcome.next (capUnmet_of_unmet s t ht ho)
  · exact congrArg Host.Outcome.next (capUnmet_of_none_or_out s h)

/-! ### The estimator (R472) -/

/-- R472: the estimator after a window, before the runs of windows are judged. -/
def windowed (w : Power) (now e m : Nat) : Power :=
  let bad := decide (15 * m < 100 * (if e ≤ m then m - e else e - m))
  let cal := w.fit || decide (w.calAt + 100000000 ≤ now)
  let r := calRatio e m
  let sc := if cal then lowest (w.scaleNum * r.1) (w.scaleDen * r.2) else (w.scaleNum, w.scaleDen)
  { w with
    estMw := e, estErr := errPerMille e m, scaleNum := sc.1, scaleDen := sc.2, calAt := if cal then now else w.calAt
    badRun := if bad then w.badRun + 1 else 0, goodRun := if bad then 0 else w.goodRun + 1 }

theorem calibrate_eq (s : State) (e m : Nat) :
    let s1 := timeAt s (s.now + 1000000)
    let v := windowed s.power s1.now e m
    let fs : List Fl := [.h e, .h m, .h (errPerMille e m)]
    s.calibrate e m =
      if s.power.fit = true ∧ 8 ≤ v.badRun then (withPower s1 { v with fit := false, unfits := s.power.unfits + 1, goodRun := 0 }).modEvent 0x3002 fs
      else if (!s.power.fit) = true ∧ 8 ≤ v.goodRun then (withPower s1 { v with fit := true, badRun := 0 }).modEvent 0x3005 fs
      else withPower s1 v := rfl

theorem windowed_eq (w : Power) (now e m : Nat) :
    let diff := if e ≤ m then m - e else e - m
    let bad : Prop := 15 * m < 100 * diff
    let due : Prop := w.fit = true ∨ w.calAt + 100000000 ≤ now
    let ratio : Nat × Nat := if 5 * m < 4 * e then (4, 5) else if 5 * e < 4 * m then (5, 4) else if e = 0 then (1, 1) else (m, e)
    let num := w.scaleNum * ratio.1
    let den := w.scaleDen * ratio.2
    let g := Nat.gcd num den
    let scaled : Nat × Nat := if due then (if g = 0 then (num, den) else (num / g, den / g)) else (w.scaleNum, w.scaleDen)
    windowed w now e m = { w with
      estMw := e, estErr := errPerMille e m, scaleNum := scaled.1, scaleDen := scaled.2, calAt := if due then now else w.calAt
      badRun := if bad then w.badRun + 1 else 0, goodRun := if bad then 0 else w.goodRun + 1 } := by
  intro diff bad due ratio num den g scaled
  have hb : decide (15 * m < 100 * (if e ≤ m then m - e else e - m)) = true ↔ bad := decide_eq_true_iff
  have hd : (w.fit || decide (w.calAt + 100000000 ≤ now)) = true ↔ due := by simp [due]
  have hs : (if (w.fit || decide (w.calAt + 100000000 ≤ now)) = true then lowest (w.scaleNum * ratio.1) (w.scaleDen * ratio.2)
      else (w.scaleNum, w.scaleDen)) = scaled := ite_of_iff hd rfl rfl
  dsimp only [windowed]
  congr 1
  · exact ite_of_iff hb rfl rfl
  · exact ite_of_iff hb rfl rfl
  · exact ite_of_iff hd rfl rfl
  · exact congrArg Prod.fst hs
  · exact congrArg Prod.snd hs

theorem estimatorJudged_holds : estimatorJudged := by
  intro s e m w s1 diff err bad due told ratio num den g scaled v
  have hv : windowed w s1.now e m = v := windowed_eq w s1.now e m
  have hc : exec (.calibrationWindow e m) s =
      .next (if w.fit = true ∧ 8 ≤ v.badRun then (withPower s1 { v with fit := false, unfits := w.unfits + 1, goodRun := 0 }).modEvent 0x3002 [.h e, .h m, .h err]
        else if (!w.fit) = true ∧ 8 ≤ v.goodRun then (withPower s1 { v with fit := true, badRun := 0 }).modEvent 0x3005 [.h e, .h m, .h err]
        else withPower s1 v) := hv ▸ congrArg Host.Outcome.next (calibrate_eq s e m)
  have hbad : v.badRun = if bad then w.badRun + 1 else 0 := rfl
  have hgood : v.goodRun = if bad then 0 else w.goodRun + 1 := rfl
  rw [hc, hbad, hgood]
  refine ⟨fun hf hb hr => ?_, fun hf hb hr => ?_, fun h1 h2 => ?_⟩
  · rw [if_pos ⟨hf, by rw [if_pos hb]; omega⟩]
  · rw [if_neg (by simp [hf]), if_pos ⟨by simp [hf], by rw [if_neg hb]; omega⟩]
  · rw [if_neg, if_neg]
    · rintro ⟨hf, h8⟩
      rcases h2 (by simpa using hf) with hb | hr
      · rw [if_pos hb] at h8; omega
      · split at h8 <;> omega
    · rintro ⟨hf, h8⟩
      rcases h1 hf with hb | hr
      · rw [if_neg hb] at h8; omega
      · split at h8 <;> omega

/-! ### The caps in force (R24, R467, R508) -/

theorem command_of_takes {s : State} {f k : Nat} {fm : Form} {c : Cmd} (h : Takes s f k fm c) (go : State → Cmd → State) :
    s.command f k fm (fun _ => true) go = go s c := by
  simp [State.command, h.taken, h.passes]

theorem fld_arg_eq_par (c : Cmd) (i lo n : Nat) : fld (c.arg i) lo n = par c i lo n := by
  rw [fld, par, Nat.shiftRight_eq_div_pow]

theorem exec_powerCapSet {s : State} {f : FnIx} {k : SlotIx} {c : Cmd} (h : Takes s f k formCap c) (second : Option Nat) :
    exec (.powerCapSet f k second) s = .next (match second with
      | some v => (s.disagree 1 (Nat.min (par c 0 0 16) s.power.mgmt) v).finish c stFault [] 0
      | none => okWith (withPower (timeAt s (s.now + 100000)) (s.power.request true (par c 0 0 16))) c
          [BitVec.ofNat 64 (Nat.min (par c 0 0 16) s.power.mgmt)]) := by
  show Host.Outcome.next (s.powerCapSet f k second) = _
  rw [State.powerCapSet, command_of_takes h, fld_arg_eq_par]
  cases second <;> rfl

theorem pldmCap_of_outside {watts : Nat} (h : watts < 500 ∨ 1250 < watts) (s : State) (second : Option Nat) :
    s.pldmCap watts second = s.prigar pldmInvalid [] := if_pos h

theorem pldmCap_of_inside {watts : Nat} (h : 500 ≤ watts ∧ watts ≤ 1250) (s : State) (second : Option Nat) :
    s.pldmCap watts second = match second with
      | some v => (s.disagree 1 (Nat.min s.power.host watts) v).prigar pldmError []
      | none => (withPower (timeAt s (s.now + 100000)) (s.power.request false watts)).prigar pldmOk [] :=
  (if_neg (by omega)).trans (by cases second <;> rfl)

theorem capsSet_holds : capsSet := by
  constructor
  · intro s f k c w watts v h
    exact ⟨exec_powerCapSet h none, fun other => exec_powerCapSet h (some other)⟩
  intro s watts w v answer
  refine ⟨fun second h => ?_, fun lo hi => ⟨?_, fun other => ?_⟩⟩
  · exact congrArg Host.Outcome.next (pldmCap_of_outside h s second)
  · exact congrArg Host.Outcome.next (pldmCap_of_inside ⟨lo, hi⟩ s none)
  · exact congrArg Host.Outcome.next (pldmCap_of_inside ⟨lo, hi⟩ s (some other))

/-! ### The side band (R436, R438) -/

theorem sum_map_mul (k : Nat) (f : Nat → Nat) (l : List Nat) : (l.map (fun i => k * f i)).sum = k * (l.map f).sum := by
  induction l with
  | nil => rfl
  | cons x l ih => rw [List.map_cons, List.sum_cons, ih, List.map_cons, List.sum_cons, Nat.mul_add]

theorem leVal_bytes (xs : List Nat) :
    leVal (xs.map (BitVec.ofNat 8)) = ((List.range xs.length).map (fun i => xs.getD i 0 % 256 * 2 ^ (8 * i))).sum := by
  induction xs with
  | nil => rfl
  | cons x xs ih =>
    have hx (i : Nat) : (x :: xs).getD (i + 1) 0 % 256 * 2 ^ (8 * (i + 1)) = 256 * (xs.getD i 0 % 256 * 2 ^ (8 * i)) := by
      rw [List.getD_cons_succ, Nat.mul_succ, Nat.pow_add, ← Nat.mul_assoc, Nat.mul_comm]
    rw [List.map_cons, leVal, ih, List.length_cons, List.range_succ_eq_map, List.map_cons, List.sum_cons, List.map_map, ← sum_map_mul]
    simp only [Function.comp_def, Nat.succ_eq_add_one, hx, BitVec.toNat_ofNat, List.getD_cons_zero, Nat.mul_zero, Nat.pow_zero, Nat.mul_one]

theorem pldmSensor_of_some {s : State} {n v : Nat} (h : s.sensor n = some v) : s.pldmSensor n = s.prigar pldmOk (leBytes 8 v) := by
  simp only [State.pldmSensor, h]

theorem pldmSensor_of_none {s : State} {n : Nat} (h : s.sensor n = none) : s.pldmSensor n = s.prigar pldmInvalid [] := by
  simp only [State.pldmSensor, h]

theorem sensor_junctions (s : State) :
    s.sensor 3 = some (((List.range ((List.range 4).map (fun d => (s.die d).tj)).length).map
      (fun i => ((List.range 4).map (fun d => (s.die d).tj)).getD i 0 % 256 * 2 ^ (8 * i))).sum) := by
  have hd : s.power.dies.toList.map (fun y => y.tj) = (List.range 4).map (fun d => (s.die d).tj) := by
    unfold State.die
    rw [toList_of_four]
    rfl
  rw [← hd, ← leVal_bytes]
  rfl

theorem sensor_coolant (s : State) : s.sensor 5 = some (s.power.coolIn % 256 + s.power.coolOut % 256 * 256) := by
  have h : s.sensor 5 = some (leVal ([s.power.coolIn, s.power.coolOut].map (BitVec.ofNat 8))) := rfl
  rw [h]
  simp [leVal, Nat.mul_comm]

theorem sensor_of_high (s : State) {n : Nat} (h : 8 ≤ n) : s.sensor n = none := by
  obtain ⟨m, rfl⟩ := Nat.exists_eq_add_of_le' h
  rfl

theorem sideBand_holds : sideBand := by
  intro s w answer packed
  refine ⟨?_, fun n h => ?_, rfl, rfl⟩
  · have hs : ∀ n v, s.sensor n = some v → exec (.pldmGetSensorReading n) s = answer 0 (leBytes 8 v) :=
      fun n v h => congrArg Host.Outcome.next (pldmSensor_of_some h)
    refine fun n v h => hs n v ((?_ : ∀ e ∈ _, s.sensor e.1 = some e.2) (n, v) h)
    simp only [List.forall_mem_cons]
    exact ⟨rfl, rfl, rfl, sensor_junctions s, congrArg some (leVal_bytes _), sensor_coolant s, rfl, rfl, nofun⟩
  · exact congrArg Host.Outcome.next (pldmSensor_of_none (sensor_of_high s h))

/-- Settles O50, clause by clause: the cap loops, the judging of the estimator, the cap requests, and the side band. -/
theorem powerCaps : Obligations.PowerCaps := ⟨capLoops_holds, estimatorJudged_holds, capsSet_holds, sideBand_holds⟩

end Sys2Proof.Proofs
end

section
/-! PROOFS. The gradebook: counted events and permanent faults, the flush, and restarts of control cores (`Machine/Gradebook.lean`,
`Machine/Faults.lean`; O56). -/

namespace Sys2Proof.Proofs

open Sys2Proof Sys2Proof.Machine Sys2Proof.Claims Sys2Proof.Laws

/-! ### Counted events (R502 to R504) -/

theorem counted_eq_afterEvent (g : Grade) (life addr : Nat) (proctor : Bool) : g.counted life addr proctor = afterEvent g life addr proctor := by
  unfold Grade.counted afterEvent
  congr 1
  · exact ite_of_iff Nat.add_eq_zero_iff rfl rfl
  · exact ite_of_iff List.contains_iff_mem rfl rfl

theorem window_afterEvent (g : Grade) (life addr : Nat) (proctor : Bool) :
    (afterEvent g life addr proctor).window life = (afterEvent g life addr proctor).events.length := by
  have h : ∀ e ∈ (afterEvent g life addr proctor).events, decide (life < e + 2592000) = true := by
    intro e he
    rcases List.mem_append.mp he with he | he
    · exact (List.mem_filter.mp he).2
    · rw [List.mem_singleton.mp he]; simp
  unfold Grade.window
  rw [List.filter_eq_self.mpr h]

theorem condemned_afterEvent_iff (g : Grade) (life addr : Nat) (proctor : Bool) :
    g.condemned (afterEvent g life addr proctor) life addr = true ↔
      3 ≤ (afterEvent g life addr proctor).events.length ∨ (addr ≠ 0 ∧ addr ∈ g.addrs) := by
  simp [Grade.condemned, window_afterEvent]

theorem countGrade_eq (s : State) (cls unit addr : Nat) (proctor : Bool) :
    let g := s.grade cls unit
    let g1 := afterEvent g s.life addr proctor
    let s1 := s.setGrade cls unit g1
    s.countGrade cls unit addr proctor = flashed (if g.condemned g1 s.life addr then s1.condemn cls unit else s1) cls unit := by
  intro g g1 s1
  simp only [s1, g1, ← counted_eq_afterEvent]
  rfl

theorem eventsGraded_holds : eventsGraded := by
  intro s cls unit addr proctor g g1 s1 faulty
  have hf : g.condemned g1 s.life addr = true ↔ faulty := condemned_afterEvent_iff g s.life addr proctor
  rw [countGrade_eq]
  exact ⟨fun h => by rw [if_pos (hf.mpr h)], fun h => by rw [if_neg (mt hf.mp h)]⟩

/-! ### Permanent faults (R505, R339, R368) -/

theorem faultyOrOut_iff (g : Grade) : (decide (g.state = 1) || g.out) = true ↔ g.state ∈ [1, 2, 4] := by
  simp [Grade.out]

theorem condemn_of_out {s : State} {cls unit : Nat} (h : (s.grade cls unit).state ∈ [1, 2, 4]) : s.condemn cls unit = s :=
  if_pos ((faultyOrOut_iff _).mpr h)

theorem condemn_site {s : State} {unit : Nat} (h : (s.grade 1 unit).state ∉ [1, 2, 4]) :
    s.condemn 1 unit = (declared s 1 unit).condemnSite unit :=
  if_neg (mt (faultyOrOut_iff _).mp h)

theorem condemn_bank {s : State} {unit : Nat} (h : (s.grade 2 unit).state ∉ [1, 2, 4]) :
    s.condemn 2 unit = if ((declared s 2 unit).grade 1 (unit / 16)).state ∈ [1, 2, 4] then declared s 2 unit
      else (declared (declared s 2 unit) 1 (unit / 16)).condemnSite (unit / 16) :=
  (if_neg (mt (faultyOrOut_iff _).mp h)).trans (ite_of_iff (faultyOrOut_iff _) rfl rfl)

theorem condemn_channel {s : State} {unit : Nat} (h : (s.grade 3 unit).state ∉ [1, 2, 4]) :
    s.condemn 3 unit = (declared s 3 unit).condemnPc unit :=
  if_neg (mt (faultyOrOut_iff _).mp h)

theorem condemn_lane {s : State} {unit : Nat} (h : (s.grade 4 unit).state ∉ [1, 2, 4]) :
    let s1 := declared s 4 unit
    let x := s1.port (unit / 4)
    s.condemn 4 unit = if x.retired.testBit (unit % 4) then s1 else s1.setPort (unit / 4) { x with toRetire := x.toRetire ||| 2 ^ (unit % 4) } :=
  if_neg (mt (faultyOrOut_iff _).mp h)

theorem condemn_other {s : State} {cls unit : Nat} (hc : 5 ≤ cls) (h : (s.grade cls unit).state ∉ [1, 2, 4]) :
    s.condemn cls unit = declared s cls unit := by
  obtain ⟨k, rfl⟩ := Nat.exists_eq_add_of_le' hc
  exact if_neg (mt (faultyOrOut_iff _).mp h)

theorem condemnSite_of_seated {s : State} {x l : Nat} (h : s.seatedAt x = some l) (hv : (s.seat l).valid = true) : s.condemnSite x = s := by
  simp [State.condemnSite, h, hv]

theorem condemnSite_of_empty {s : State} {x : Nat} (h : s.seatedAt x = none) :
    s.condemnSite x = outOfService s 1 x (s.subsLeft (dieOf x)) := by
  simp only [State.condemnSite, h]
  rfl

theorem filterMap_range_eq_mapIdx {α β : Type} (f : Nat → α → β) (l : List α) :
    (List.range l.length).filterMap (fun i => l[i]?.map (f i)) = l.mapIdx f := by
  induction l generalizing f with
  | nil => rfl
  | cons a l ih =>
    rw [List.length_cons, List.range_succ_eq_map, List.filterMap_cons_some (b := f 0 a) (by rfl), List.filterMap_map, List.mapIdx_cons]
    exact congrArg (f 0 a :: ·) (ih fun i => f (i + 1))

theorem setSlot_eq (s : State) (p k : Nat) (st : SlotState) :
    s.setSlot p k st = s.setPart p { s.part p with slots := slotsWith (s.part p) k st } := by
  simp only [State.setSlot, State.modPart, filterMap_range_eq_mapIdx]
  rfl

theorem condemnPc_of_owned {s : State} {c p k : Nat} (h : s.pcOwner c = some (p, k)) :
    s.condemnPc c = (s.setPart p { s.part p with slots := slotsWith (s.part p) k .retiring }).bothEvent (some p) 0x4002
      [.h k, .h (c / 32), .h (c % 32), .h 0] := by
  simp only [State.condemnPc, h, setSlot_eq]
  rfl

theorem condemnPc_of_free {s : State} {c : Nat} (h : s.pcOwner c = none) : s.condemnPc c = s.retirePc c := by
  simp only [State.condemnPc, h]

theorem unitsCondemned_holds : unitsCondemned := by
  intro s unit out s1
  refine ⟨fun cls h => condemn_of_out h, fun l h hl hv => ?_, fun h hl => ?_, fun h hx => ?_, ?_,
    fun p k h ho _ => ?_, fun h ho => ?_, fun h => condemn_lane h, fun cls hc h => condemn_other hc h⟩
  · exact (condemn_site h).trans (condemnSite_of_seated hl hv)
  · exact (condemn_site h).trans (condemnSite_of_empty hl)
  · exact (condemn_bank h).trans (if_pos hx)
  · intro l h hx s2 hl hv
    exact (condemn_bank h).trans ((if_neg hx).trans (condemnSite_of_seated hl hv))
  · exact (condemn_channel h).trans (condemnPc_of_owned ho)
  · exact (condemn_channel h).trans (condemnPc_of_free ho)

/-! ### The flush (R502, R503) -/

theorem length_filter_range_lt (n v : Nat) : ((List.range n).filter (fun k => decide (k < v))).length = min n v := by
  induction n with
  | zero => simp
  | succ n ih =>
    rw [List.range_succ, List.filter_append, List.length_append, ih]
    by_cases h : n < v
    · simp only [List.filter_cons, List.filter_nil, h, decide_true, if_true, List.length_singleton]; omega
    · simp only [List.filter_cons, List.filter_nil, h, decide_false, Bool.false_eq_true, if_false, List.length_nil]; omega

theorem logBin_eq_logBinOf (v : Nat) : logBin v = logBinOf v := by
  unfold logBin logBinOf
  split
  · next h => subst h; decide
  · next h =>
    have he (k : Nat) : decide (2 ^ k ≤ v) = decide (k < v.log2 + 1) :=
      decide_eq_decide.mpr ((Nat.le_log2 h).symm.trans Nat.lt_succ_iff.symm)
    simp only [he, length_filter_range_lt]

theorem degBin_eq_degreeBin (t : Nat) : degBin t = degreeBin t := by
  have he (k : Nat) : decide (44 + 4 * k ≤ t) = decide (k < (t - 40) / 4) := decide_eq_decide.mpr (by omega)
  unfold degBin degreeBin
  simp only [he, length_filter_range_lt]
  show (if t < 44 then 0 else min 15 ((t - 40) / 4)) = _
  split <;> omega

theorem logHour_eq (g : Grade) (second : Bool) (v n : Nat) :
    g.logHour second v n = if second then { g with h2 := hourIn g.h2 v n } else { g with h1 := hourIn g.h1 v n } := by
  simp only [Grade.logHour, logBin_eq_logBinOf]
  rfl

theorem refreshBin_eq {m : Nat} (h : m ∈ [1, 2, 4]) : m.log2 = if m = 4 then 2 else if m = 2 then 1 else 0 := by
  simp only [List.mem_cons, List.not_mem_nil, or_false] at h
  rcases h with rfl | rfl | rfl <;> decide

/-- The units of Table 16.7. -/
def unitClasses : List (Nat × Nat) := [(1, 3136), (2, 50176), (3, 256), (4, 64), (5, 12), (6, 4), (7, 8)]

theorem hourOf_eq_hourEnded (s : State) (hm : ∀ k : Fin 8, s.hbm.heat[k].mult ∈ [1, 2, 4]) {cls size unit : Nat}
    (hc : (cls, size) ∈ unitClasses) (hu : unit < size) (n d : Nat) : s.hourOf cls unit n d = hourEnded s cls unit n d := by
  simp only [unitClasses, List.mem_cons, Prod.mk.injEq, List.not_mem_nil, or_false] at hc
  rcases hc with ⟨rfl, rfl⟩ | ⟨rfl, rfl⟩ | ⟨rfl, rfl⟩ | ⟨rfl, rfl⟩ | ⟨rfl, rfl⟩ | ⟨rfl, rfl⟩ | ⟨rfl, rfl⟩
  · simp only [State.hourOf, logHour_eq]; rfl
  · simp only [State.hourOf, logHour_eq]; rfl
  · simp only [State.hourOf, logHour_eq]; rfl
  · simp only [State.hourOf, logHour_eq]; rfl
  · simp only [State.hourOf, logHour_eq]; rfl
  · simp only [State.hourOf, logHour_eq, degBin_eq_degreeBin]; rfl
  · have hk : (nth s.hbm.heat.toList unit ⟨0, 1, 0, false, false⟩).mult ∈ [1, 2, 4] := by
      have := hm ⟨unit, hu⟩
      simpa [nth, List.getD, hu] using this
    simp only [State.hourOf, degBin_eq_degreeBin, refreshBin_eq hk]
    rfl

theorem gradeKey_inj {c u c' u' : Nat} (hu : u < 65536) (hu' : u' < 65536) (h : gradeKey c u = gradeKey c' u') : (c, u) = (c', u') := by
  unfold gradeKey at h
  ext <;> dsimp only <;> omega

theorem grade_setGrade (s : State) (cls unit : Nat) (g : Grade) : (s.setGrade cls unit g).grade cls unit = g := get_put _ _ _ _

theorem grade_setGrade_other (s : State) {cls unit cls' unit' : Nat} (g : Grade) (h : gradeKey cls unit ≠ gradeKey cls' unit') :
    (s.setGrade cls' unit' g).grade cls unit = s.grade cls unit := get_put_other _ _ _ _ _ h

/-- The hour's end in the records of some units. -/
def hourIntoAll (s : State) (us : List (Nat × Nat)) (n d : Nat) : State := us.foldl (fun s u => s.setGrade u.1 u.2 (s.hourOf u.1 u.2 n d)) s

theorem hourOf_setGrade_other (s : State) {cls unit cls' unit' : Nat} (g : Grade) (n d : Nat) (h : gradeKey cls unit ≠ gradeKey cls' unit') :
    (s.setGrade cls' unit' g).hourOf cls unit n d = s.hourOf cls unit n d := by
  simp only [State.hourOf, grade_setGrade_other s g h]
  rfl

theorem hourIntoAll_frame (us : List (Nat × Nat)) (s : State) (n d : Nat) :
    ∃ gr, hourIntoAll s us n d = { s with faults := { s.faults with grade := gr } } := by
  induction us generalizing s with
  | nil => exact ⟨s.faults.grade, rfl⟩
  | cons u us ih => exact ih _

theorem grade_hourIntoAll_of_not_mem (us : List (Nat × Nat)) (s : State) (n d cls unit : Nat) (h : ∀ u ∈ us, gradeKey cls unit ≠ gradeKey u.1 u.2) :
    (hourIntoAll s us n d).grade cls unit = s.grade cls unit := by
  induction us generalizing s with
  | nil => rfl
  | cons u us ih =>
    obtain ⟨hu, hus⟩ := List.forall_mem_cons.mp h
    exact (ih _ hus).trans (grade_setGrade_other s _ hu)

theorem grade_hourIntoAll_of_mem (us : List (Nat × Nat)) (s : State) (n d cls unit : Nat) (hd : us.Nodup) (hlt : ∀ u ∈ us, u.2 < 65536)
    (hm : (cls, unit) ∈ us) : (hourIntoAll s us n d).grade cls unit = s.hourOf cls unit n d := by
  induction us generalizing s with
  | nil => cases hm
  | cons u us ih =>
    obtain ⟨hnot, hd⟩ := List.nodup_cons.mp hd
    have hne (v : Nat × Nat) (hv : v ∈ us) : gradeKey v.1 v.2 ≠ gradeKey u.1 u.2 := fun h =>
      have e : v = u := gradeKey_inj (hlt v (List.mem_cons_of_mem _ hv)) (hlt u List.mem_cons_self) h
      hnot (e ▸ hv)
    rcases List.mem_cons.mp hm with rfl | hm
    · exact (grade_hourIntoAll_of_not_mem us _ n d cls unit fun v hv => (hne v hv).symm).trans (grade_setGrade s cls unit _)
    · exact (ih _ hd (fun v hv => hlt v (List.mem_cons_of_mem _ hv)) hm).trans (hourOf_setGrade_other s _ n d (hne _ hm))

theorem gradeUnits_eq : gradeUnits = unitClasses.flatMap (fun c => (List.range c.2).map (fun u => (c.1, u))) :=
  List.flatMap_eq_foldl.symm

theorem mem_gradeUnits {cls unit : Nat} : (cls, unit) ∈ gradeUnits ↔ ∃ size, (cls, size) ∈ unitClasses ∧ unit < size := by
  simp only [gradeUnits_eq, List.mem_flatMap, List.mem_map, List.mem_range, Prod.mk.injEq, Prod.exists]
  constructor
  · rintro ⟨c, size, h, u, hu, rfl, rfl⟩
    exact ⟨size, h, hu⟩
  · rintro ⟨size, h, hu⟩
    exact ⟨cls, size, h, unit, hu, rfl, rfl⟩

theorem gradeUnits_nodup : gradeUnits.Nodup := by
  have hp : unitClasses.Pairwise (fun a b => a.1 ≠ b.1) := by decide
  rw [gradeUnits_eq, List.Nodup, List.pairwise_flatMap]
  refine ⟨fun c _ => List.pairwise_map.mpr (List.nodup_range.imp fun h e => h (congrArg Prod.snd e)), hp.imp fun {a b} hab x hx y hy e => ?_⟩
  obtain ⟨_, _, ha⟩ := List.mem_map.mp hx
  obtain ⟨_, _, hb⟩ := List.mem_map.mp hy
  exact hab (Prod.mk.inj (ha.trans (e.trans hb.symm))).1

theorem unit_lt_of_mem_gradeUnits {u : Nat × Nat} (h : u ∈ gradeUnits) : u.2 < 65536 := by
  obtain ⟨size, hs, hu⟩ := mem_gradeUnits.mp h
  have hb : ∀ c ∈ unitClasses, c.2 < 65536 := by decide
  exact Nat.lt_trans hu (hb _ hs)

/-- R502: every record written to flash, the histograms standing at an hour of life. -/
def toFlash (s : State) (hour : Nat) : State := { s with faults := { s.faults with flash := s.faults.grade, hourAt := hour } }

theorem gradeFlush_eq (s : State) :
    let s1 := timeAt s ((s.now / 60000000000 + 1) * 60000000000)
    let hour := s1.life / 3600
    let n := hour - s.faults.hourAt
    s.gradeFlush = if n = 0 then toFlash s1 s.faults.hourAt else toFlash (hourIntoAll s1 gradeUnits n (hour / 24 - s.faults.hourAt / 24)) hour := by
  intro s1 hour n
  let s2 := if n = 0 then s1 else hourIntoAll s1 gradeUnits n (hour / 24 - s.faults.hourAt / 24)
  show toFlash s2 (if n = 0 then s2.faults.hourAt else hour) = _
  by_cases h : n = 0
  · have h2 : s2 = s1 := if_pos h
    rw [if_pos h, if_pos h, h2]
    rfl
  · have h2 : s2 = hourIntoAll s1 gradeUnits n (hour / 24 - s.faults.hourAt / 24) := if_neg h
    rw [if_neg h, if_neg h, h2]

theorem gradebookFlushed_holds : gradebookFlushed := by
  intro s s1 hour n hm
  have he : exec .gradebookFlush s = .next s.gradeFlush := rfl
  refine ⟨fun h => he.trans (congrArg _ ((gradeFlush_eq s).trans (if_pos h))), fun h => ?_⟩
  have ht := he.trans (congrArg Host.Outcome.next ((gradeFlush_eq s).trans (if_neg h)))
  have hg : ∀ cls unit size, (cls, size) ∈ unitClasses → unit < size →
      (hourIntoAll s1 gradeUnits n (hour / 24 - s.faults.hourAt / 24)).grade cls unit = hourEnded s1 cls unit n (hour / 24 - s.faults.hourAt / 24) :=
    fun cls unit size hc hu =>
      (grade_hourIntoAll_of_mem gradeUnits s1 n _ cls unit gradeUnits_nodup (fun _ => unit_lt_of_mem_gradeUnits) (mem_gradeUnits.mpr ⟨size, hc, hu⟩)).trans
        (hourOf_eq_hourEnded s1 hm hc hu n _)
  obtain ⟨gr, hf⟩ := hourIntoAll_frame gradeUnits s1 n (hour / 24 - s.faults.hourAt / 24)
  rw [hf] at hg
  exact ⟨_, ht, rfl, rfl, by rw [hf]; rfl, fun _ => by rw [hf]; exact hg⟩

/-! ### Control cores (R505, R507, Table 16.10) -/

theorem core_eq_getElem (s : State) (c : CoreIx) : s.core c = s.faults.cores[c] := by
  simp [State.core, nth, List.getD]

theorem setCore_eq (s : State) (c : CoreIx) (k : CtlCore) : s.setCore c k = { s with faults := { s.faults with cores := s.faults.cores.set c k } } :=
  dif_pos c.isLt

theorem serves_iff (k : CtlCore) : k.serves = true ↔ k.away = none ∧ k.retired = false := by
  simp [CtlCore.serves]

theorem coverOf_eq (c : CoreIx) : coverOf c = [1, 0, 3, 2, 5, 4, 7, 6, 9, 8, 11, 10].getD c 0 := by
  revert c; decide

theorem coverOf_lt (c : CoreIx) : coverOf c < 12 := by
  revert c; decide

theorem coverOf_coverOf (c : CoreIx) : coverOf (coverOf c) = c := by
  revert c; decide

theorem dutyOf_eq (c : Nat) : dutyOf c = if c < 4 then c else 4 := by
  show min c 4 = _
  split <;> omega

/-- Table 16.10: the core that serves a command. -/
theorem core_of_command (d : Cmd) : d.core = if d.opcode ∈ [0x11, 0x12, 0x20, 0x21, 0x22, 0x23, 0x24, 0x25, 0x26, 0x30] then 1 else 0 := by
  refine ite_of_iff ?_ rfl rfl
  simp only [partOp, killOp, List.contains_iff_mem, Bool.or_eq_true, decide_eq_true_eq, List.mem_cons, List.not_mem_nil, or_false]
  omega

theorem mem_duties (s : State) (c : CoreIx) (k : Nat) :
    k ∈ s.duties c ↔ k = c ∨ (k = coverOf c ∧ ¬ ((s.core (coverOf c)).away = none ∧ (s.core (coverOf c)).retired = false)) := by
  rw [← serves_iff, State.duties, coverOf_coverOf]
  by_cases h : (s.core (coverOf c)).serves <;> simp [h]

theorem failTaken_eq (s : State) (c : CoreIx) (p : Cmd → Prop) [DecidablePred p] (hp : ∀ d, p d ↔ d.taken = true ∧ d.deferred = false ∧ d.core ∈ s.duties c) :
    s.failTaken (s.duties c) = (s.cmds.filter (fun d => decide (p d))).foldl (fun s d => s.finish d 6 [] 0) s := by
  have hd (d : Cmd) : (d.taken && !d.deferred && (s.duties c).contains d.core) = decide (p d) := by
    rw [Bool.eq_iff_iff, decide_eq_true_iff, hp]
    simp [and_assoc]
  rw [List.foldl_filter]
  unfold State.failTaken
  simp only [hd]
  rfl

theorem coresLeft_eq (s : State) : s.coresLeft = ((List.finRange 12).filter (fun k => decide (s.faults.cores[k].retired = false))).length := by
  rw [State.coresLeft, toList_eq_map_finRange, List.filter_map, List.length_map]
  congr 2
  funext k
  simp

theorem coreMayRetire_iff (s : State) (c : CoreIx) :
    s.coreMayRetire c = true ↔ if c.val < 4 then 3 ≤ ((List.finRange 12).filter (fun k => decide (k.val < 4 ∧ s.faults.cores[k].retired = false))).length
      else ∃ k : Fin 12, k.val = coverOf c ∧ s.faults.cores[k].retired = false := by
  unfold State.coreMayRetire
  split
  · have h4 : List.range 4 = ((List.finRange 12).filter (fun k : Fin 12 => decide (k.val < 4))).map Fin.val := by decide
    have hp : (fun k : Fin 12 => decide (k.val < 4 ∧ s.faults.cores[k].retired = false)) =
        fun k : Fin 12 => !(s.core k).retired && decide (k.val < 4) := by
      funext k
      rw [core_eq_getElem, Bool.decide_and, Bool.and_comm]
      simp
    rw [decide_eq_true_iff, h4, List.filter_map, List.length_map, List.filter_filter, hp]
    rfl
  · have hk : s.core (coverOf c) = s.faults.cores[(⟨coverOf c, coverOf_lt c⟩ : Fin 12)] := core_eq_getElem s ⟨coverOf c, coverOf_lt c⟩
    rw [Bool.not_eq_true', hk]
    exact ⟨fun h => ⟨_, rfl, h⟩, fun ⟨k, he, h⟩ => by rwa [← Fin.ext (a := k) (b := ⟨coverOf c, coverOf_lt c⟩) he]⟩

/-- R507: a core that has restarted, and is away. -/
def coreAway (s : State) (c cause : Nat) : State :=
  let s1 := ((s.failTaken (s.duties c)).modLog 11 0xFFF 0 [.h c, .h cause, .h (dutyOf c)]).modEvent 0x600A [.h c, .h cause, .h (dutyOf c)]
  ((s1.setCore c ⟨some (s1.now, cause), false⟩).modGrade 5 c (fun g => { g with tally := g.tally + 1 })).countGrade 5 c 0 false

theorem coreRestart_eq {s : State} {c : Nat} (h : (s.core c).serves = true) (cause : Nat) :
    s.coreRestart c cause =
      if ((coreAway s c cause).grade 5 c).state = 1 ∧ (coreAway s c cause).coreMayRetire c = true then
        ((coreAway s c cause).setCore c ⟨none, true⟩).retired 5 c ((coreAway s c cause).setCore c ⟨none, true⟩).coresLeft
      else coreAway s c cause :=
  if_neg (by simp [h])

theorem coreRestart_of_away {s : State} {c : Nat} (h : ¬ (s.core c).serves = true) (cause : Nat) : s.coreRestart c cause = s :=
  if_pos (by simp [h])

/-- R505: a core's retirement after a restart, when its record says permanent-faulty and the module can spare it. -/
def retiredIfSpare (s : State) (c : CoreIx) : State :=
  let cover : Nat := [1, 0, 3, 2, 5, 4, 7, 6, 9, 8, 11, 10].getD c 0
  let inService (k : Fin 12) : Prop := s.faults.cores[k].retired = false
  let may : Prop := if c.val < 4 then 3 ≤ ((List.finRange 12).filter (fun k => decide (k.val < 4 ∧ inService k))).length
    else ∃ k : Fin 12, k.val = cover ∧ inService k
  if (s.grade 5 c).state = 1 ∧ may then
    let s1 : State := { s with faults := { s.faults with cores := s.faults.cores.set c ⟨none, true⟩ } }
    outOfService s1 5 c ((List.finRange 12).filter (fun k => decide (s1.faults.cores[k].retired = false))).length
  else s

theorem retiredIfSpare_eq (s : State) (c : CoreIx) :
    (if (s.grade 5 c).state = 1 ∧ s.coreMayRetire c = true then (s.setCore c ⟨none, true⟩).retired 5 c (s.setCore c ⟨none, true⟩).coresLeft else s) =
      retiredIfSpare s c := by
  have hm := coreMayRetire_iff s c
  rw [coverOf_eq] at hm
  by_cases h : (s.grade 5 c).state = 1 ∧ s.coreMayRetire c = true
  · rw [if_pos h, coresLeft_eq, setCore_eq]
    exact (if_pos ⟨h.1, hm.mp h.2⟩).symm
  · rw [if_neg h]
    exact (if_neg fun hn => h ⟨hn.1, hm.mpr hn.2⟩).symm

theorem coreAway_eq (s : State) (c : CoreIx) (cause : Nat) :
    let cover : Nat := [1, 0, 3, 2, 5, 4, 7, 6, 9, 8, 11, 10].getD c 0
    let duty : Nat := if c.val < 4 then c else 4
    let for_ (d : Cmd) : Nat := if d.opcode ∈ [0x11, 0x12, 0x20, 0x21, 0x22, 0x23, 0x24, 0x25, 0x26, 0x30] then 1 else 0
    let mine (k : Nat) : Prop := k = c ∨ (k = cover ∧ ¬ ((s.core cover).away = none ∧ (s.core cover).retired = false))
    let s1 := (s.cmds.filter (fun d => decide (d.taken = true ∧ d.deferred = false ∧ mine (for_ d)))).foldl (fun s d => s.finish d 6 [] 0) s
    let s2 := (s1.modLog 11 0xFFF 0 [.h c, .h cause, .h duty]).modEvent 0x600A [.h c, .h cause, .h duty]
    let s3 : State := { s2 with faults := { s2.faults with cores := s2.faults.cores.set c ⟨some (s2.now, cause), false⟩ } }
    coreAway s c cause = (s3.setGrade 5 c { s3.grade 5 c with tally := (s3.grade 5 c).tally + 1 }).countGrade 5 c 0 false := by
  intro cover duty for_ mine s1 s2 s3
  have h1 : s.failTaken (s.duties c) = s1 := failTaken_eq s c _ fun d => by
    rw [core_of_command, mem_duties, coverOf_eq]
  have h3 : s2.setCore c ⟨some (s2.now, cause), false⟩ = s3 := setCore_eq s2 c _
  unfold coreAway
  rw [h1, dutyOf_eq]
  show ((s2.setCore c ⟨some (s2.now, cause), false⟩).modGrade 5 c _).countGrade 5 c 0 false = _
  rw [h3]
  rfl

theorem coreBack_of_away {s : State} {c : CoreIx} {t cause : Nat} (h : s.faults.cores[c].away = some (t, cause)) :
    s.coreBack c = (s.until (t + 2000000000)).setCore c ⟨none, false⟩ := by
  simp only [State.coreBack, core_eq_getElem, h]

theorem coreBack_of_present {s : State} {c : CoreIx} (h : s.faults.cores[c].away = none) : s.coreBack c = s := by
  simp only [State.coreBack, core_eq_getElem, h]

theorem exec_coreMemoryError (c : CoreIx) (s : State) : exec (.coreMemoryError c) s = .next (s.coreRestart c 1) := rfl

theorem exec_coreWatchdog (c : CoreIx) (s : State) :
    exec (.coreWatchdog c) s = .next (if (s.core c).serves = true then (timeAt s (s.now + 100000000)).coreRestart c 2 else s) := rfl

theorem exec_coreRestartComplete (c : CoreIx) (s : State) : exec (.coreRestartComplete c) s = .next (s.coreBack c) := rfl

theorem coresRestart_holds : coresRestart := by
  intro s c cover serves restarted k
  have hserves (s : State) : (s.core c).serves = true ↔ serves s.faults.cores[c] := core_eq_getElem s c ▸ serves_iff _
  have hrestart (s : State) (cause : Nat) (h : serves s.faults.cores[c]) : s.coreRestart c cause = restarted s cause := by
    rw [coreRestart_eq ((hserves s).mpr h), retiredIfSpare_eq]
    simp -zeta only [restarted]
    extract_lets duty for_ mine s1 s2 src s3 g s4 inService may
    have ha : coreAway s c cause = s4 := coreAway_eq s c cause
    rw [ha]
    clear_value s4
    rfl
  clear_value restarted
  refine ⟨fun h => ⟨?_, ?_⟩, fun h => ⟨?_, ?_⟩, fun t cause h => ?_, fun h => ?_⟩
  · rw [exec_coreMemoryError, hrestart s 1 h]
  · rw [exec_coreWatchdog, if_pos ((hserves s).mpr h)]
    exact congrArg Host.Outcome.next (hrestart (timeAt s (s.now + 100000000)) 2 h)
  · rw [exec_coreMemoryError, coreRestart_of_away (mt (hserves s).mp h)]
  · rw [exec_coreWatchdog, if_neg (mt (hserves s).mp h)]
  · rw [exec_coreRestartComplete, coreBack_of_away h, setCore_eq]
    rfl
  · rw [exec_coreRestartComplete, coreBack_of_present h]

/-- Settles O56, clause by clause: counted events, units declared permanent-faulty, the flush of the gradebook, and restarts of control cores. -/
theorem gradebookAndUnits : Obligations.GradebookAndUnits :=
  ⟨eventsGraded_holds, unitsCondemned_holds, gradebookFlushed_holds, coresRestart_holds⟩

end Sys2Proof.Proofs
end

section
/-! PROOFS. The vector engine outside runs: how its instructions start, the bytes that they move, and what they leave (`Machine/Vector.lean`;
O24). -/

namespace Sys2Proof.Proofs

open Sys2Proof Sys2Proof.Machine Sys2Proof.Claims Sys2Proof.Laws

/-! ### Fields of operand words (R12) -/

theorem fld_eq_div_mod (w : Word) (lo n : Nat) : fld w lo n = w.toNat / 2 ^ lo % 2 ^ n := by rw [fld, Nat.shiftRight_eq_div_pow]

theorem fld_zero_eq_mod (w : Word) (n : Nat) : fld w 0 n = w.toNat % 2 ^ n := rfl

theorem outside_eq_false {w m r : Word} (h : w &&& r = 0) (hm : ~~~m = r) : outside w m = false := by
  rw [outside, hm, h]
  rfl

theorem plainOperand_of_lt {w : Word} (h : w.toNat < 2 ^ 26) : plainOperand w = true := by
  have hw : w &&& 0x3FFFFFF = w :=
    BitVec.eq_of_toNat_eq ((Nat.and_two_pow_sub_one_eq_mod w.toNat 26).trans (Nat.mod_eq_of_lt h))
  rw [plainOperand, outside, ← hw, BitVec.and_assoc, BitVec.and_not_self]
  exact congrArg (fun x : Word => !(x != 0)) BitVec.and_zero

theorem hLacks_read {h : Word} (hv : hValid h = true) (hr : hR h = true) : hLacks h false = false := by
  simp [hLacks, hv, hr]

theorem hLacks_write {h : Word} (hv : hValid h = true) (hw : hW h = true) : hLacks h true = false := by
  simp [hLacks, hv, hw]

/-! ### The places of a buffer's bytes (R75) -/

/-- A rotation of the banks sends different local addresses to different places. -/
theorem placeOf_inj {skew a b : Nat} (h : placeOf skew a = placeOf skew b) : a % 1048576 = b % 1048576 := by
  simp only [placeOf] at h
  have ha : a % 1048576 < 1048576 := Nat.mod_lt _ (by decide)
  have hb : b % 1048576 < 1048576 := Nat.mod_lt _ (by decide)
  generalize a % 1048576 = a at *
  generalize b % 1048576 = b at *
  have hbank : (a / 64 + skew) % 16 = (b / 64 + skew) % 16 := by omega
  have hrow : a / 1024 = b / 1024 := by omega
  have hbyte : a % 64 = b % 64 := by omega
  have hblock : a / 64 % 16 = b / 64 % 16 := by omega
  omega

theorem hPlace_inj {w : Word} {off i j : Nat} (hi : i < 1048576) (hj : j < 1048576) (h : hPlace w (off + i) = hPlace w (off + j)) : i = j := by
  have := placeOf_inj h
  omega

theorem hPlaces_nodup (w : Word) (off : Nat) {n : Nat} (hn : n ≤ 1048576) : (hPlaces w off n).Nodup :=
  List.pairwise_map.mpr (List.nodup_range.imp_of_mem fun hi hj hne h =>
    hne (hPlace_inj (Nat.lt_of_lt_of_le (List.mem_range.mp hi) hn) (Nat.lt_of_lt_of_le (List.mem_range.mp hj) hn) h))

theorem hPlaces_length (w : Word) (off n : Nat) : (hPlaces w off n).length = n := by simp [hPlaces]

theorem hCells_places (w : Word) (off : Nat) (bs : List Byte) : (hCells w off bs).map Prod.fst = hPlaces w off bs.length :=
  List.map_fst_zip (Nat.le_of_eq (hPlaces_length w off _))

theorem mem_hCells {w : Word} {off i : Nat} {bs : List Byte} (h : i < bs.length) : (hPlace w (off + i), bs.getD i 0) ∈ hCells w off bs := by
  refine List.mem_iff_getElem.mpr ⟨i, by simpa [hCells, hPlaces] using h, ?_⟩
  simp [hCells, hPlaces, h]

/-- The bytes of a part of a buffer. -/
theorem bytesAt_window (t : Tile) (w : Word) (off : Nat) {k m n : Nat} (h : k + m ≤ n) :
    ((bytesAt t w off n).drop k).take m = bytesAt t w (off + k) m := by
  refine List.ext_getElem ?_ fun i _ _ => ?_
  · simp only [bytesAt, List.length_take, List.length_drop, List.length_map, List.length_range]
    omega
  · simp [bytesAt, Nat.add_assoc]

/-! ### Bytes written at places -/

theorem read_cells_other (cells : List (Nat × Byte)) {m : Mem} (hm : Mem.wf m = true) {a : Nat} (h : a ∉ cells.map Prod.fst) :
    Mem.read (cells.foldl (fun m c => Mem.write m c.1 c.2) m) a = Mem.read m a := by
  induction cells generalizing m with
  | nil => rfl
  | cons c cells ih =>
    rw [List.map_cons, List.mem_cons, not_or] at h
    rw [List.foldl_cons, ih (wf_write m _ _ hm) h.2, read_write_other m _ _ _ hm h.1]

theorem read_cells_mem (cells : List (Nat × Byte)) {m : Mem} (hm : Mem.wf m = true) (hd : (cells.map Prod.fst).Nodup) {c : Nat × Byte}
    (hc : c ∈ cells) : Mem.read (cells.foldl (fun m c => Mem.write m c.1 c.2) m) c.1 = c.2 := by
  induction cells generalizing m with
  | nil => cases hc
  | cons d cells ih =>
    rw [List.map_cons, List.nodup_cons] at hd
    rw [List.foldl_cons]
    rcases List.mem_cons.mp hc with rfl | hc
    · rw [read_cells_other cells (wf_write m _ _ hm) hd.1, read_write m _ _ hm]
    · exact ih (wf_write m _ _ hm) hd.2 hc

/-- R96: a read of a scratchpad without stored errors finds the bytes of the buffer. -/
theorem fetch_of_whole {t : Tile} (h : t.pad.ecc = []) (conf : Nat) (w : Word) (off n : Nat) :
    (conflicts t.pad conf).fetch w off n = (conflicts t.pad conf, .ok (bytesAt t w off n)) := by
  simp [Pad.fetch, conflicts, h, hPlaces, bytesAt, Function.comp_def]

/-- R96: a write to a scratchpad without stored errors puts its cells there. -/
theorem store_of_whole {p : Pad} (h : p.ecc = []) (cells : List (Nat × Byte)) :
    p.store cells = ({ p with mem := cells.foldl (fun m c => Mem.write m c.1 c.2) p.mem }, none) := by
  simp [Pad.store, Pad.look, h]

/-- What a write of bytes to a buffer leaves in the scratchpad: the bytes at their places, and every other byte as before. -/
theorem store_bytes {p : Pad} (he : p.ecc = []) (hm : Mem.wf p.mem = true) (w : Word) (off : Nat) {bs : List Byte} (hn : bs.length ≤ 1048576) :
    ∃ q : Pad, (∀ conf, (conflicts p conf).store (hCells w off bs) = (conflicts q conf, none)) ∧ q = { p with mem := q.mem } ∧
      (∀ i < bs.length, Mem.read q.mem (hPlace w (off + i)) = bs.getD i 0) ∧
      (∀ a, (∀ i < bs.length, a ≠ hPlace w (off + i)) → Mem.read q.mem a = Mem.read p.mem a) := by
  refine ⟨{ p with mem := (hCells w off bs).foldl (fun m c => Mem.write m c.1 c.2) p.mem },
    fun conf => store_of_whole (p := conflicts p conf) he _, rfl, fun i hi => ?_, fun a ha => ?_⟩
  · exact read_cells_mem _ hm (hCells_places w off bs ▸ hPlaces_nodup w off hn) (mem_hCells hi)
  · refine read_cells_other _ hm ?_
    rw [hCells_places, hPlaces, List.mem_map]
    rintro ⟨i, hi, rfl⟩
    exact ha i (List.mem_range.mp hi) rfl

/-! ### How a VX instruction starts (R51, R54, R177) -/

/-- The head of the vector engine's queue is taken: its entry is free, and its wait token is taken. -/
def vxTaken (t : Tile) (e : QEntry) (rest : List QEntry) : Tile :=
  let t1 := { t with vxq := { t.vxq with waiting := rest } }
  if e.we then { t1 with core := t1.core.take e.wtok } else t1

/-- The vector engine with more clocks stalled (R201). -/
def vxStalled (v : Vx) (stall : Nat) : Vx := { v with stall := v.stall + BitVec.ofNat 64 stall }

/-- The tile in which the instruction does its work: head taken, conflicts and stalled clocks counted. -/
def vxAtWork (t : Tile) (e : QEntry) (rest : List QEntry) (stall conf : Nat) : Tile :=
  { vxTaken t e rest with pad := conflicts t.pad conf, vx := vxStalled t.vx stall }

@[simp] theorem vxStalled_zero (v : Vx) : vxStalled v 0 = v := by simp [vxStalled]

@[simp] theorem vxStalled_cache (v : Vx) (stall : Nat) : (vxStalled v stall).cache = v.cache := rfl

@[simp] theorem vxStalled_xs (v : Vx) (stall : Nat) : (vxStalled v stall).xs = v.xs := rfl

@[simp] theorem conflicts_zero (q : Pad) : conflicts q 0 = q := by simp [conflicts]

@[simp] theorem vxTaken_pad (t : Tile) (e : QEntry) (rest : List QEntry) : (vxTaken t e rest).pad = t.pad := by
  unfold vxTaken
  split <;> rfl

@[simp] theorem vxTaken_vx (t : Tile) (e : QEntry) (rest : List QEntry) : (vxTaken t e rest).vx = t.vx := by
  unfold vxTaken
  split <;> rfl

@[simp] theorem vxTaken_mx (t : Tile) (e : QEntry) (rest : List QEntry) : (vxTaken t e rest).mx = t.mx := by
  unfold vxTaken
  split <;> rfl

@[simp] theorem vxTaken_hOf (t : Tile) (e : QEntry) (rest : List QEntry) (w : Word) : (vxTaken t e rest).hOf w = t.hOf w := by
  simp only [Tile.hOf, vxTaken_pad]

@[simp] theorem vxAtWork_pad (t : Tile) (e : QEntry) (rest : List QEntry) (stall conf : Nat) :
    (vxAtWork t e rest stall conf).pad = conflicts t.pad conf := rfl

@[simp] theorem vxAtWork_vx (t : Tile) (e : QEntry) (rest : List QEntry) (stall conf : Nat) :
    (vxAtWork t e rest stall conf).vx = vxStalled t.vx stall := rfl

@[simp] theorem vxAtWork_hOf (t : Tile) (e : QEntry) (rest : List QEntry) (stall conf : Nat) (w : Word) :
    (vxAtWork t e rest stall conf).hOf w = t.hOf w := rfl

theorem vxAtWork_zero (t : Tile) (e : QEntry) (rest : List QEntry) : vxAtWork t e rest 0 0 = vxTaken t e rest := by
  rw [vxAtWork, vxStalled_zero, conflicts_zero, ← vxTaken_pad t e rest, ← vxTaken_vx t e rest]

@[simp] theorem began_pad (t : Tile) (e : QEntry) (rest : List QEntry) (ret : Option Word) : (began t .vx e rest ret).pad = t.pad := by
  unfold began
  split <;> rfl

@[simp] theorem began_cycle (t : Tile) (e : QEntry) (rest : List QEntry) (ret : Option Word) :
    (began t .vx e rest ret).core.cycle = t.core.cycle := by
  unfold began
  split <;> rfl

theorem vxDone_atWork (t : Tile) (e : QEntry) (rest : List QEntry) (stall conf : Nat) (q : Pad) (v : Vx) (ret : Option Word) :
    Tile.vxDone { vxAtWork t e rest stall conf with pad := q, vx := v } e ret = .quiet (began { t with pad := q, vx := v } .vx e rest ret) := by
  unfold vxAtWork vxTaken began
  split <;> rfl

section
variable {s : State} {p : Nat} {l : LTile} {op : BitVec 8} {e : QEntry} {rest : List QEntry}

theorem takeHead_of_starts (hs : Starts s p l .vx op e rest) : (s.tile l).takeHead .vx op = some (e, vxTaken (s.tile l) e rest) := by
  have hw : ((s.tile l).queue .vx).waiting = e :: rest := hs.head
  have ht : (!e.we || (s.tile l).mayTake e.wtok Eng.vx.rank) = true := by
    cases h : e.we
    · rfl
    · exact hs.token h
  simp only [Tile.takeHead, hw, hs.isOp, ht, decide_true, Bool.and_self, if_true]
  rfl

/-- An instruction that starts with its check passed leaves what its work leaves. -/
theorem vxStart_of_starts (hs : Starts s p l .vx op e rest) (hq : Settled (s.tile l)) {stall conf : Nat} {check : Tile → QEntry → Option VFault}
    {go : Tile → QEntry → TRes} (hc : check (vxTaken (s.tile l) e rest) e = none) :
    vxStart (s.tile l) op stall conf check go = go (vxAtWork (s.tile l) e rest stall conf) e := by
  have hidle : (s.tile l).vxq.started = [] := hs.alone.resolve_left (by decide)
  have hp : (vxTaken (s.tile l) e rest).mx.parity = false := by rw [vxTaken_mx, hq.sound.1]
  simp only [vxStart, hidle, List.isEmpty_nil, Bool.not_true, Bool.false_eq_true, if_false, takeHead_of_starts hs, hc, hp]
  simp only [Tile.conflict, vxTaken_pad, vxTaken_vx]
  rfl

/-- The law of every VX instruction outside runs: with its check passed and its work done, the tile is left with the work's scratchpad and
vector state, the instruction begun, and its value to come. -/
theorem leaves_of_vxStart (hs : Starts s p l .vx op e rest) (hq : Settled (s.tile l)) {i : Instr} {stall conf : Nat}
    {check : Tile → QEntry → Option VFault} {go : Tile → QEntry → TRes} {q : Pad} {v : Vx} {ret : Option Word}
    (hi : exec i s = .next (s.tileStep l.val (fun _ t => vxStart t op stall conf check go)))
    (hc : check (vxTaken (s.tile l) e rest) e = none)
    (hg : go (vxAtWork (s.tile l) e rest stall conf) e = Tile.vxDone { vxAtWork (s.tile l) e rest stall conf with pad := q, vx := v } e ret)
    (hw : q.corrWords = []) : leaves i s l (began { s.tile l with pad := q, vx := v } .vx e rest ret) := by
  refine ⟨began { s.tile l with pad := q, vx := v } .vx e rest ret, ?_, rfl, Nat.le_of_eq (began_cycle { s.tile l with pad := q, vx := v } e rest ret).symm⟩
  have hstep : vxStart (s.tile l) op stall conf check go = .quiet (began { s.tile l with pad := q, vx := v } .vx e rest ret) := by
    rw [vxStart_of_starts hs hq hc, hg, vxDone_atWork]
  rw [hi, State.tileStep, hs.runs]
  exact congrArg Host.Outcome.next (runTile_quiet s p l _ _ hstep ((congrArg Pad.corrWords (began_pad _ e rest ret)).trans hw))

/-- The same for an instruction that neither stalls nor moves bytes. -/
theorem leaves_of_setting (hs : Starts s p l .vx op e rest) (hq : Settled (s.tile l)) {i : Instr} {check : Tile → QEntry → Option VFault}
    {go : Tile → QEntry → TRes} {v : Vx} {ret : Option Word}
    (hi : exec i s = .next (s.tileStep l.val (fun _ t => vxStart t op 0 0 check go)))
    (hc : check (vxTaken (s.tile l) e rest) e = none)
    (hg : go (vxTaken (s.tile l) e rest) e = Tile.vxDone { vxTaken (s.tile l) e rest with vx := v } e ret) :
    leaves i s l (began { s.tile l with vx := v } .vx e rest ret) := by
  refine leaves_of_vxStart hs hq (q := (s.tile l).pad) hi hc ?_ hs.counted
  rw [vxAtWork_zero, hg, ← vxTaken_pad (s.tile l) e rest]

end

/-! ### Settings (R170, R174, R176, R178) -/

theorem vl_eq (n : Nat) : (if n = 0 then 1 else Nat.min n 64) = Nat.max 1 (Nat.min n 64) := by
  show _ = max 1 (min n 64)
  rw [show Nat.min n 64 = min n 64 from rfl]
  split <;> omega

theorem stick_fovf (v : Vx) (b : Bool) : v.stick { fovf := b } = { v with fovf := v.fovf || b } := by simp [Vx.stick]

theorem vectorSets_holds : vectorSets := by
  intro s p l e rest t n sets
  refine ⟨fun hs hq => ?_, fun hs hq h => ?_, fun hs hq h => ?_, fun hs hq => ?_⟩
  · refine leaves_of_setting hs hq (i := .vxSetvl l) rfl rfl ?_
    simp only [vl_eq, vxTaken_vx, t, n]
  · refine leaves_of_setting hs hq (i := .vxConst l) rfl (if_neg (Nat.not_le.mpr h)) ?_
    simp only [vxTaken_vx, Nat.mod_eq_of_lt h, BitVec.ofNat_toNat, t, n]
  · refine leaves_of_setting hs hq (i := .vxSdef l) rfl (if_neg (Nat.not_le.mpr h)) ?_
    simp only [vxTaken_vx, Nat.mod_eq_of_lt h, t, n]
  · refine leaves_of_setting hs hq (i := .vxXrnd l) rfl rfl ?_
    simp only [vxTaken_vx, stick_fovf, BitVec.ofNat_toNat, t]

/-! ### Programs and the operand cache (R183, R197) -/

theorem words32_bytesAt (t : Tile) (w : Word) (n off : Nat) :
    words32 n (bytesAt t w off (4 * n)) = (List.range n).map (fun k => BitVec.ofNat 32 (leVal (bytesAt t w (off + 4 * k) 4))) := by
  induction n generalizing off with
  | zero => rfl
  | succ n ih =>
    have hhead : (bytesAt t w off (4 * (n + 1))).take 4 = bytesAt t w off 4 := bytesAt_window t w off (k := 0) (by omega)
    have htail : (bytesAt t w off (4 * (n + 1))).drop 4 = bytesAt t w (off + 4) (4 * n) := by
      rw [← bytesAt_window t w off (k := 4) (m := 4 * n) (n := 4 * (n + 1)) (by omega), List.take_of_length_le]
      simp only [bytesAt, List.length_drop, List.length_map, List.length_range]
      omega
    rw [words32, hhead, htail, ih, List.range_succ_eq_map, List.map_cons, List.map_map]
    refine congrArg _ (List.map_congr_left fun k _ => ?_)
    rw [Function.comp_apply, Nat.succ_eq_add_one, show off + 4 + 4 * k = off + 4 * (k + 1) by omega]

theorem findIdx_of_all_ok {ws : List (BitVec 32)} (h : ∀ x ∈ ws, epWordOk x = true) : ws.findIdx? (fun w => !epWordOk w) = none := by
  rw [List.findIdx?_eq_none_iff]
  intro x hx
  rw [h x hx]
  rfl

/-- The checks of the operand cache transfers, passed. -/
theorem cacheCheck_eq_none {write : Bool} {t : Tile} {e : QEntry} (ha : e.va.toNat < 2 ^ 26) (hb : e.vb &&& 0xFFFFFFFFFFFF0080 = 0)
    (hlo : 1 ≤ e.vb.toNat / 256 % 256) (hhi : e.vb.toNat % 128 + e.vb.toNat / 256 % 256 ≤ 128) (hr : hLacks (t.hOf e.va) write = false)
    (hlen : owOff e.va + 64 * (e.vb.toNat / 256 % 256) ≤ hLen (t.hOf e.va)) (hal : owOff e.va % 64 = 0) : cacheCheck write t e = none := by
  have hrows : fld e.vb 8 8 = e.vb.toNat / 256 % 256 := fld_eq_div_mod _ _ _
  have hrow : fld e.vb 0 7 = e.vb.toNat % 128 := fld_zero_eq_mod _ 7
  have hout : outside e.vb 0xFF7F = false := outside_eq_false hb (by decide)
  simp only [cacheCheck, hrows, hrow, plainOperand_of_lt ha, hout, hr, hal]
  generalize e.vb.toNat / 256 % 256 = rows at *
  rw [if_neg (by simp only [Bool.not_true, Bool.false_or, decide_eq_true_eq]; omega), if_neg (by omega), if_neg (by decide),
    if_neg (by simp only [Bool.or_eq_true, decide_eq_true_eq]; omega), if_neg (by decide)]

theorem getD_readN (m : Mem) (a : Nat) {i n : Nat} (h : i < n) : (Mem.readN m a n).getD i 0 = Mem.read m (a + i) := by
  simp [Mem.readN, h]

theorem readN_length (m : Mem) (a n : Nat) : (Mem.readN m a n).length = n := by simp [Mem.readN]

theorem bytesAt_length (t : Tile) (w : Word) (off n : Nat) : (bytesAt t w off n).length = n := by simp [bytesAt]

theorem getD_bytesAt (t : Tile) (w : Word) (off : Nat) {i n : Nat} (h : i < n) :
    (bytesAt t w off n).getD i 0 = Mem.read t.pad.mem (hPlace w (off + i)) := by
  simp [bytesAt, h]

/-- The stores of a tile in canonical form: the bytes of its scratchpad and of its operand cache. -/
theorem wf_of_canonical {t : Tile} (h : canonical t = true) : Mem.wf t.pad.mem = true ∧ Mem.wf t.vx.cache = true := by
  simp only [canonical, Bool.and_eq_true] at h
  exact ⟨h.1.1, h.2⟩

theorem setBang_eq_set {α : Type} {n k : Nat} (v : Vector α n) (x : α) (h : k < n) : v.set! k x = v.set k x h := by
  simp [Vector.set!, Vector.set, Array.setIfInBounds, h]

section
variable {s : State} {p : Nat} {l : LTile} {e : QEntry} {rest : List QEntry} {stall conf : Nat}

/-- R183: the words of a program, each checked, go into their slot. -/
theorem vxEpload_leaves {len : Nat} (hs : Starts s p l .vx 0xA1 e rest) (hq : Settled (s.tile l)) (ha : e.va.toNat < 2 ^ 26)
    (hb : e.vb &&& 0xFFFFFFFFFFFFFC0C = 0) (hn : e.vb.toNat / 16 % 64 = len) (hlo : 1 ≤ len) (hhi : len ≤ 32)
    (hr : hLacks ((s.tile l).hOf e.va) false = false) (hlen : owOff e.va + 4 * len ≤ hLen ((s.tile l).hOf e.va)) (hal : owOff e.va % 4 = 0)
    {ws : List (BitVec 32)}
    (hws : (List.range len).map (fun k => BitVec.ofNat 32 (leVal (bytesAt (s.tile l) ((s.tile l).hOf e.va) (owOff e.va + 4 * k) 4))) = ws)
    (hok : ∀ x ∈ ws, epWordOk x = true) :
    leaves (.vxEpload l conf) s l (began { s.tile l with
      pad := conflicts (s.tile l).pad conf, vx := { (s.tile l).vx with prog := (s.tile l).vx.prog.set! (e.vb.toNat % 4) ws } } .vx e rest none) := by
  have hfld : fld e.vb 4 6 = len := (fld_eq_div_mod _ _ _).trans hn
  have hslot : fld e.vb 0 2 % 4 = e.vb.toNat % 4 := (congrArg (· % 4) (fld_zero_eq_mod e.vb 2)).trans (Nat.mod_mod _ 4)
  refine leaves_of_vxStart hs hq (i := .vxEpload l conf) (stall := 0) (conf := conf) rfl ?_ ?_ hs.counted
  · have hout : outside e.vb 0x3F3 = false := outside_eq_false hb (by decide)
    simp only [hfld, plainOperand_of_lt ha, hout, vxTaken_hOf, hr, hal]
    rw [if_neg (by simp only [Bool.not_true, Bool.false_or, decide_eq_true_eq]; omega), if_neg (by omega), if_neg (by decide),
      if_neg (by omega), if_neg (by decide)]
  · simp only [vxAtWork_pad, vxAtWork_hOf, vxAtWork_vx, vxStalled_zero, fetch_of_whole hs.whole, hfld, hslot, words32_bytesAt, hws,
      findIdx_of_all_ok hok, setBang_eq_set _ _ (Nat.mod_lt e.vb.toNat (by decide : 0 < 4))]

/-- R197: rows of the scratchpad go into the operand cache. -/
theorem vxOcld_leaves {row rows : Nat} (hs : Starts s p l .vx 0xA8 e rest) (hq : Settled (s.tile l)) (hrow : fld e.vb 0 7 = row)
    (hrows : fld e.vb 8 8 = rows) (hc : cacheCheck false (vxTaken (s.tile l) e rest) e = none) :
    leaves (.vxOcld l stall conf) s l (began { s.tile l with
      pad := conflicts (s.tile l).pad conf
      vx := { vxStalled (s.tile l).vx stall with
        cache := Mem.writeN (s.tile l).vx.cache (64 * row) (bytesAt (s.tile l) ((s.tile l).hOf e.va) (owOff e.va) (64 * rows)) } } .vx e rest
      none) := by
  refine leaves_of_vxStart hs hq (i := .vxOcld l stall conf) (stall := stall) (conf := conf) rfl hc ?_ hs.counted
  simp only [vxAtWork_pad, vxAtWork_hOf, vxAtWork_vx, fetch_of_whole hs.whole, hrow, hrows]
  rfl

/-- R197: rows of the operand cache go to the scratchpad. -/
theorem vxOcst_leaves {row rows : Nat} {q : Pad} (hs : Starts s p l .vx 0xA9 e rest) (hq : Settled (s.tile l)) (hrow : fld e.vb 0 7 = row)
    (hrows : fld e.vb 8 8 = rows) (hc : cacheCheck true (vxTaken (s.tile l) e rest) e = none) (hw : q.corrWords = [])
    (hst : (conflicts (s.tile l).pad conf).store
      (hCells ((s.tile l).hOf e.va) (owOff e.va) (Mem.readN (s.tile l).vx.cache (64 * row) (64 * rows))) = (conflicts q conf, none)) :
    leaves (.vxOcst l stall conf) s l (began { s.tile l with pad := conflicts q conf, vx := vxStalled (s.tile l).vx stall } .vx e rest none) := by
  refine leaves_of_vxStart hs hq (i := .vxOcst l stall conf) (stall := stall) (conf := conf) rfl hc ?_ hw
  simp only [vxAtWork_pad, vxAtWork_hOf, vxAtWork_vx, vxStalled_cache, hrow, hrows, hst]

end

theorem vectorTransfers_holds : vectorTransfers := by
  intro s p l e rest stall conf t len slot row rows off h stalled ws ha hv
  have hmem := wf_of_canonical (t := t)
  have hrows : fld e.vb 8 8 = rows := fld_eq_div_mod _ _ _
  have hrow : fld e.vb 0 7 = row := fld_zero_eq_mod _ 7
  have hh : (vxTaken t e rest).hOf e.va = h := vxTaken_hOf t e rest e.va
  refine ⟨fun hs hq hb hlo hhi hr hlen hal hok => ?_, fun hs hq hb hlo hhi hr hlen hal => ?_, fun hs hq hb hlo hhi hw hlen hal => ?_⟩
  · exact vxEpload_leaves hs hq ha hb rfl hlo hhi (hLacks_read hv hr) hlen hal rfl hok
  · have hcache := (hmem hs.sorted).2
    have hc := cacheCheck_eq_none ha hb hlo hhi (hh ▸ hLacks_read hv hr) (hh ▸ hlen) hal
    refine ⟨Mem.writeN t.vx.cache (64 * row) (bytesAt t h off (64 * rows)), vxOcld_leaves hs hq hrow hrows hc, fun i hi => ?_, fun a hout => ?_⟩
    · rw [read_writeN _ _ _ _ hcache, bytesAt_length, if_pos (by omega), Nat.add_sub_cancel_left, getD_bytesAt _ _ _ hi]
    · rw [read_writeN _ _ _ _ hcache, bytesAt_length, if_neg (by omega)]
  · have hn := readN_length t.vx.cache (64 * row) (64 * rows)
    have hc := cacheCheck_eq_none ha hb hlo hhi (hh ▸ hLacks_write hv hw) (hh ▸ hlen) hal
    obtain ⟨q, hst, hqp, hin, hother⟩ := store_bytes hs.whole (hmem hs.sorted).1 h off
      (bs := Mem.readN t.vx.cache (64 * row) (64 * rows)) (by omega)
    rw [hn] at hin hother
    have hcorr : q.corrWords = [] := (congrArg Pad.corrWords hqp).trans hs.counted
    exact ⟨q, vxOcst_leaves hs hq hrow hrows hc hcorr (hst conf), hqp, fun i hi => (hin i hi).trans (getD_readN _ _ hi), hother⟩

/-! ### The exact sums (R170, R171, R195) -/

theorem length_leBytes (n v : Nat) : (leBytes n v).length = n := by
  induction n generalizing v with
  | zero => rfl
  | succ n ih => rw [leBytes, List.length_cons, ih]

theorem length_xwordBytes (x : XWord) : x.bytes.length = 48 := by simp [XWord.bytes, length_leBytes]

theorem xwordCheck_eq_none {write : Bool} {n : QEntry → Nat} {t : Tile} {e : QEntry} (ha : e.va.toNat < 2 ^ 26) (hb : e.vb.toNat ≤ 1)
    (hr : hLacks (t.hOf e.va) write = false) (hlen : owOff e.va + n e ≤ hLen (t.hOf e.va)) : xwordCheck write n t e = none := by
  simp only [xwordCheck, plainOperand_of_lt ha, hr]
  rw [if_neg (by simp only [Bool.not_true, Bool.false_or, decide_eq_true_eq]; omega), if_neg (by decide), if_neg (by omega)]

/-- The lane words of an area, read word by word. -/
theorem laneWords_eq {t : Tile} {w : Word} {off : Nat} {xs : Vector XWord 16}
    (h : ∀ k : Fin 16, XWord.ofBytes (bytesAt t w (off + 48 * k) 48) = some xs[k]) :
    (List.range 16).map (fun k => XWord.ofBytes (((bytesAt t w off 768).drop (48 * k)).take 48)) = xs.toList.map some := by
  refine List.ext_getElem (by simp) fun k hk _ => ?_
  have hk16 : k < 16 := by simpa using hk
  have := h ⟨k, hk16⟩
  rw [List.getElem_map, List.getElem_range, bytesAt_window t w off (by omega), List.getElem_map]
  simpa using this

/-- The lane registers as the words loaded leave them, each alone or added to the register's own. -/
theorem laneRegisters_eq (mode : Bool) (old xs : Vector XWord 16) :
    (Vector.ofFn fun i : Fin 16 => nth ((List.range 16).map fun k =>
      if mode then (nth old.toList k .zero).add ((nth (xs.toList.map some) k none).getD .zero)
      else (nth (xs.toList.map some) k none).getD .zero) i.val .zero) = if mode then Vector.ofFn (fun k => old[k].add xs[k]) else xs := by
  refine Vector.ext fun k hk => ?_
  cases mode <;> simp [nth]

section
variable {s : State} {p : Nat} {l : LTile} {e : QEntry} {rest : List QEntry} {stall conf : Nat}

/-- R171: the words of an area go into the lane registers, or are added to them. -/
theorem vxXld_leaves (hs : Starts s p l .vx 0xAA e rest) (hq : Settled (s.tile l))
    (hc : xwordCheck false (fun _ => 768) (vxTaken (s.tile l) e rest) e = none) {xs : Vector XWord 16}
    (hxs : ∀ k : Fin 16, XWord.ofBytes (bytesAt (s.tile l) ((s.tile l).hOf e.va) (owOff e.va + 48 * k) 48) = some xs[k]) :
    leaves (.vxXld l stall conf) s l (began { s.tile l with
      pad := conflicts (s.tile l).pad conf
      vx := { vxStalled (s.tile l).vx stall with
        xs := if e.vb = 1 then Vector.ofFn (fun k => (s.tile l).vx.xs[k].add xs[k]) else xs } } .vx e rest none) := by
  refine leaves_of_vxStart hs hq (i := .vxXld l stall conf) (stall := stall) (conf := conf) rfl hc ?_ hs.counted
  have hlegal : (xs.toList.map some).any Option.isNone = false := List.any_eq_false.mpr (by simp)
  have hregs := laneRegisters_eq (decide (e.vb = 1)) (s.tile l).vx.xs xs
  simp only [decide_eq_true_eq] at hregs
  simp only [vxAtWork_pad, vxAtWork_hOf, vxAtWork_vx, vxStalled_xs, fetch_of_whole hs.whole, laneWords_eq hxs, hlegal, hregs]
  rfl

/-- R195: the lane registers, or their sum, go to the scratchpad. -/
theorem vxXst_leaves {q : Pad} (hs : Starts s p l .vx 0xAB e rest) (hq : Settled (s.tile l))
    (hc : xwordCheck true (fun e => if e.vb = 0 then 768 else 48) (vxTaken (s.tile l) e rest) e = none) (hw : q.corrWords = [])
    (hst : (conflicts (s.tile l).pad conf).store (hCells ((s.tile l).hOf e.va) (owOff e.va)
      (if e.vb = 0 then (s.tile l).vx.xs.toList.flatMap XWord.bytes else (combined (s.tile l).vx.xs.toList).bytes)) = (conflicts q conf, none)) :
    leaves (.vxXst l stall conf) s l (began { s.tile l with pad := conflicts q conf, vx := vxStalled (s.tile l).vx stall } .vx e rest none) := by
  refine leaves_of_vxStart hs hq (i := .vxXst l stall conf) (stall := stall) (conf := conf) rfl hc ?_ hw
  simp only [vxAtWork_pad, vxAtWork_hOf, vxAtWork_vx, vxStalled_xs, hst]

end

theorem length_flatMap_bytes (xs : List XWord) : (xs.flatMap XWord.bytes).length = 48 * xs.length := by
  induction xs with
  | nil => rfl
  | cons x xs ih => rw [List.flatMap_cons, List.length_append, length_xwordBytes, ih, List.length_cons, Nat.mul_succ, Nat.add_comm]

theorem length_xstBytes (all : Prop) [Decidable all] (xs : Vector XWord 16) :
    (if all then xs.toList.flatMap XWord.bytes else (combined xs.toList).bytes).length = if all then 768 else 48 := by
  split
  · rw [length_flatMap_bytes, Vector.length_toList]
  · exact length_xwordBytes _

theorem exactSums_holds : exactSums := by
  intro s p l e rest stall conf t off h n stalled ha hv hb
  have hh : (vxTaken t e rest).hOf e.va = h := vxTaken_hOf t e rest e.va
  refine ⟨fun hs hq hr hlen xs hxs => ?_, fun hs hq hw hlen => ?_⟩
  · exact vxXld_leaves hs hq (xwordCheck_eq_none ha hb (hh ▸ hLacks_read hv hr) (hh ▸ hlen)) hxs
  · have hn := length_xstBytes (e.vb = 0) t.vx.xs
    have hn768 : n ≤ 768 := by
      simp only [n]
      split <;> omega
    obtain ⟨q, hst, hqp, hin, hother⟩ := store_bytes hs.whole (wf_of_canonical hs.sorted).1 h off (Nat.le_trans (Nat.le_of_eq hn) (Nat.le_trans hn768 (by decide)))
    rw [hn] at hin hother
    have hcorr : q.corrWords = [] := (congrArg Pad.corrWords hqp).trans hs.counted
    exact ⟨q, vxXst_leaves hs hq (xwordCheck_eq_none ha hb (hh ▸ hLacks_write hv hw) (hh ▸ hlen)) hcorr (hst conf), hqp, hin, hother⟩

/-- Settles O24, clause by clause: the settings, the programs and the operand cache, and the exact sums. -/
theorem vectorSettings : Obligations.VectorSettings := ⟨vectorSets_holds, vectorTransfers_holds, exactSums_holds⟩

end Sys2Proof.Proofs
end
